-- ==== Sys2Proof/Word.lean ====
section
/-! DEFINITION. The word types of the LN13 and their plainest readings (00_scope.md R16: 32 or 64 bits, little-endian). -/

namespace Sys2Proof

/-- One byte of a store, of HBM or of a layout. -/
abbrev Byte := BitVec 8
/-- A 32-bit register (R16). -/
abbrev W32 := BitVec 32
/-- A 64-bit register (R16). -/
abbrev W64 := BitVec 64
/-- A byte string, the byte at offset 0 first. -/
abbrev Bytes := List Byte
/-- A sparse store: address and byte pairs, addresses rising, no zero byte listed. -/
abbrev Mem := List (Nat × Byte)

end Sys2Proof
end

