-- ==== Sys2Proof/Syntax.lean ====
section
/-! DEFINITION. The commands of the block: one constructor of Instr per row of spec/opcode_table.json.
The table gives no fields, so the operands are the ones the spec's text names, and beside them the data
that only the environment has (log entry 1). Operand names: fn the function that accesses (0 = PF,
f = VF f), f an AIVIA window, p a partition, b a bench, c a core, q a queue, errs the bits of store words that flip
before the command. -/

namespace Sys2Proof

/-- A flipped bit of a store word (R307, R311, R823): bench, bank, row in the bank, word in the row, and bit of the word (from 256 on
a check bit of a rack word; 64 and 65 the parity bits of an activation word). `stored` tells a broken stored word from an error on
the path of its next read. -/
structure Upset where
  bench  : Nat
  bank   : Nat
  row    : Nat
  word   : Nat
  bit    : Nat
  stored : Bool := true
  deriving DecidableEq, Repr, Inhabited

/-- How a host read request ends (R392): data, Unsupported Request or Completer Abort. -/
inductive Xfer where
  | ok (data : Bytes)
  | ur
  | ca
  deriving DecidableEq, Repr

/-- What PACKET_CAPTURE brings (R651, R653): the 128 packet bytes with the extended block (none: it could not
be translated, detail 0x56), or an unresolvable translation of queue memory. -/
inductive Capture where
  | packet (bytes : Bytes) (ext : Option Bytes)
  | unresolvable
  deriving DecidableEq, Repr

/-- An ATS Translation Completion (R388, R390, R392): access granted to a byte range with the translated address of its first byte,
no access, or an error. -/
inductive AtsResult where
  | grant (base len addr : Nat)
  | noAccess
  | ur
  | ca
  deriving DecidableEq, Repr

/-- A Page Request response (R391, R392). -/
inductive PriResult where
  | success
  | failure
  | invalid
  deriving DecidableEq, Repr

/-- What the two paths to the units show at a gate (R632, R633, R785). A list shorter than its kind of unit
stands for USABLE (0) and in tolerance (true). -/
structure GateEnv where
  benchData   : List Nat := []
  benchTemp   : List Bool := []
  supplyOk    : List Bool := []
  memberData  : List Nat := []
  sessionData : List Nat := []
  deriving DecidableEq, Repr

/-- The raw bits of a page of a ledger member as its reads show them (R521 to R525): at the first read, and at the two rereads. A read that
is not listed, and a page that no such record names, shows what was programmed. -/
structure PageRead where
  member : Nat
  row    : Nat
  page   : Nat
  reads  : List Bytes
  deriving DecidableEq, Repr

/-- What only the environment knows at a start-up (R696): the benches' self-test results (R139), the number of
beats from lock to READY (R697), the ledger targets that answer READ ID (R532), the raw bits of ledger pages
(R521, R526, R527), and the functions for which the host's configuration enables ATS and PRI (R388, R390). -/
structure StartEnv where
  pass       : List Bool := []
  readyBeats : Nat := 340000
  present    : List Bool := []
  pages      : List PageRead := []
  ats        : List Nat := []
  pri        : List Nat := []
  deriving DecidableEq, Repr

/-- A ledger member's READ PARAMETER PAGE answer (R503, R504). -/
structure Geometry where
  luns : Nat
  blocks : Nat
  pages : Nat
  pageBytes : Nat
  deriving DecidableEq, Repr

/-- What the members show at LDG_FORMAT or LDG_MEMBER_REPLACE: geometry and factory bad rows (R504, R547). -/
structure MediaEnv where
  geometry : List Geometry
  badRows  : List Nat
  deriving DecidableEq, Repr

/-- The container found on a session's namespace (R580, R581): superblock, two headers, two extent areas, and the
data of the pages read, as (slot, page, bytes of the page that are not zero). -/
structure Container where
  superblock : Bytes
  headers    : List Bytes
  extents    : List Bytes
  pages      : List (Nat × Nat × Mem)
  deriving DecidableEq, Repr

/-- The outcome of opening a store session (R567 to R569). -/
inductive Connect where
  | connected (lbaBytes : Nat) (metadata : Bool) (digests : Bool) (sizeLbas : Nat) (keepAliveBeats : Nat)
  | failed
  deriving DecidableEq, Repr

/-- Why a session closes (R570). -/
inductive CloseWhy where
  | digest
  | reset
  deriving DecidableEq, Repr

/-- A host BAR2 access (R643, R644). -/
inductive Bar2 where
  | read (len : Nat)
  | write (data : Bytes)
  deriving DecidableEq, Repr

/-- The reference inputs: by how many ppm the frequency of REF_BEAT, measured against the holdover oscillator, is off 10.000 MHz (R64),
the level of EPOCH_IN (R66) and the levels of the GPIO pins (18 R748). -/
structure RefEdge where
  ppm     : Int := 0
  epochIn : Bool := false
  pins    : W32 := 0
  deriving DecidableEq, Repr

/-- R64: an edge of a REF_BEAT beyond ±1,000 ppm is treated as absent. -/
def RefEdge.seen (e : RefEdge) : Bool := decide (e.ppm.natAbs ≤ 1000)

/-- One constructor per row of the opcode table. -/
inductive Instr where
  -- 02_beat_and_time.md
  | lock
  | holdoverEntry
  | timelyReturn
  | beatLost
  | relock
  | epochEdge
  | epochBeat
  | epochArm (fn : Nat) (word : W32)
  | epochDisarm (fn : Nat) (word : W32)
  | gate (env : GateEnv)
  | startLaunch (p : Nat)
  -- 03_ring_benches_partitions.md
  | blap (b c q : Nat) (errs : List Upset)
  | lapStart (b : Nat)
  | batonArrival (p : Nat) (errs : List Upset)
  | linkRetry (b dir : Nat) (again : Bool)
  | spliceWindowOpen
  | spliceWindowClose
  | rejoinDone (b : Nat) (pass : Bool)
  -- 04_engines_queues_programs.md
  | nop (b c q : Nat)
  | jog (b c q : Nat)
  | endQueue (b c q : Nat)
  | badEntry (b c q : Nat)
  -- 06_matrix_arrays.md
  | mload (b c q : Nat) (errs : List Upset)
  | mstream (b c q : Nat) (errs : List Upset)
  | mconv (b c q : Nat) (errs : List Upset)
  | mgen (b c q : Nat) (errs : List Upset)
  -- 05_lx16_arithmetic.md
  | vadd (b c q : Nat) (errs : List Upset)
  | vsub (b c q : Nat) (errs : List Upset)
  | vmul (b c q : Nat) (errs : List Upset)
  | vmax (b c q : Nat) (errs : List Upset)
  | vmin (b c q : Nat) (errs : List Upset)
  | vfunc (b c q : Nat) (errs : List Upset)
  | vsum (b c q : Nat) (errs : List Upset)
  | vreq (b c q : Nat) (errs : List Upset)
  | railMv (b c q : Nat) (errs : List Upset)
  | railMvSpill (b c q : Nat) (errs : List Upset)
  | railMvCont (b c q : Nat) (errs : List Upset)
  -- 08_streams_and_dma.md: commands
  | sstart (b c q : Nat)
  | sdrain (b c q : Nat)
  | srearm (b c q : Nat)
  | dowel (b c q : Nat) (errs : List Upset)
  -- 10_plumb_solver.md
  | psolve (b c q : Nat) (errs : List Upset)
  | pbatch (b c q : Nat) (errs : List Upset)
  | pdelta (b c q : Nat) (errs : List Upset)
  | solveComplete (b c : Nat)
  -- completion, stealing, synchronisation, steps
  | commandComplete (b c q : Nat)
  | commandSteal (b c : Nat) (ob oc oq : Nat) (errs : List Upset)
  | hurdleArrival (b c q : Nat)
  | earlyArrivalMove (p h : Nat)
  | buddyPauseEnd (p : Nat)
  | stepCommit (p : Nat) (hostOut : List Bytes)
  | stepRerun (p : Nat)
  | arrayGate (b c a : Nat)
  | rackWriteback (b bank : Nat)
  | queueDoorbell (fn b c q : Nat) (word : W32)
  | satClear (fn b c : Nat)
  | feederPush (b c a : Nat)
  -- 08_streams_and_dma.md: events
  | streamTileStart (b c slot : Nat) (errs : List Upset)
  | readDataReturn (b c id : Nat) (x : Xfer) (errs : List Upset)
  | writeComplete (b c id : Nat)
  | tileLand (b c slot : Nat)
  | deadlineMiss (b c slot : Nat)
  | lateTileResume (p : Nat)
  | atsTranslationCompletion (b c : Nat) (pasid iova : Nat) (r : AtsResult)
  | priResponse (b c : Nat) (pasid iova : Nat) (r : PriResult)
  | translationTimeout (b c : Nat) (pasid iova : Nat)
  | atsInvalidate (f pasid base len : Nat)
  | atsInvalidateComplete (f : Nat)
  | taskAbortComplete (p : Nat)
  -- 12_nderil_ledger.md: events
  | stripeStart
  | nandProgramDone (m : Nat) (pass : Bool)
  | signatureTimer (p : Nat)
  | memberFailed (m : Nat)
  | anchorTimer
  | scrubRead (pages : List PageRead)
  | rebuildStripe (pages : List PageRead)
  -- 13_checkpoint_and_recovery.md: events
  | clampDone (p : Nat)
  | nvmeCompletion (i : Nat) (status : Nat)
  | sessionClose (i : Nat) (why : CloseWhy)
  | keepAlive (i : Nat)
  | keepAliveTimeout (i : Nat)
  | storeSessionConnected (i : Nat) (r : Connect)
  | buddyLoadDone (p : Nat)
  -- 15_host_interface_and_aivia.md
  | aiviaDoorbell (fn f : Nat) (word : W32)
  | packetCapture (f : Nat) (cap : Capture)
  | aiviaEnable (fn f : Nat)
  | aiviaDisable (fn f : Nat)
  | completionPost (f : Nat)
  | completionQueueFree (fn f : Nat) (word : W32)
  | bar2Access (fn off : Nat) (acc : Bar2)
  | aiviaNop (f : Nat)
  | partCreate (f : Nat)
  | partResize (f : Nat)
  | partDestroy (f : Nat)
  | partitionZeroed (p : Nat)
  | partBalance (f : Nat)
  | partPreempt (f : Nat)
  | ringSpareSet (f : Nat)
  | ringRejoin (f : Nat)
  | reconcile (f : Nat) (mgmt data : Nat)
  | programLoad (f : Nat) (image : Xfer)
  | programLoadDone (p : Nat)
  | run (f : Nat) (hostIn : List Bytes)
  | ckpArm (f : Nat) (found : Container)
  | ckpDisarm (f : Nat)
  | ckpRestore (f : Nat) (found : Container)
  | buddySet (f : Nat)
  | storePortSet (f : Nat)
  | storeConnect (f : Nat)
  | storeDisconnect (f : Nat)
  | ldgFormat (f : Nat) (media : MediaEnv)
  | ldgMemberReplace (f : Nat) (media : MediaEnv)
  | ldgUnseal (f : Nat)
  | ldgRelease (f : Nat)
  | ldgExport (f : Nat) (pages : List PageRead)
  | identCert (f : Nat)
  | glueWrite (f : Nat)
  | glueSlotProgrammed
  | selfTest (f : Nat)
  | deferredSelfTestStart (b : Nat)
  | selfTestDone (b : Nat) (pass : Bool)
  | calibrate (f : Nat)
  | calibrateStart
  | calibrateDone
  | fwStage (f : Nat) (image : Xfer)
  -- 16_interrupts.md
  | irqEoi (fn : Nat) (word : W32)
  -- 17_resets_power_states_glue.md and 19_package_power_signals.md
  | por (env : StartEnv)
  | perstAssert (env : StartEnv)
  | pkgReset (fn : Nat) (word : W32) (env : StartEnv)
  | flr (p : Nat)
  | pfFlr
  | benchReset (fn : Nat) (word : W32)
  | engineReset (fn : Nat) (word : W32)
  | benchPowerTransition (b : Nat)
  | packageSleepEntry
  | sleepExit (fn : Nat) (word : W32)
  | powerOff
  | thermalTrip
  | supplyMonitorTrip (b : Nat)
  -- 18_gpio_and_management_core.md
  | gpioOutWrite (fn : Nat) (value : W64)
  | gpioFuncEnWrite (fn group : Nat) (value : W32)
  | gpioDebounceWrite (fn pin : Nat) (value : W32)
  | gpioIntModeWrite (fn : Nat) (half : Nat) (value : W32)
  | gpioFilterChange (pin : Nat)
  | tempSample (bench hbm : List (BitVec 16))
  | smbusIdent (pec : Bool)
  | smbusFwStatus (pec : Bool)
  | smbusAssetTag (pec : Bool)
  | smbusStatus (pec : Bool)
  | smbusTempMax (pec : Bool)
  | smbusBenchTemp (k : Nat) (pec : Bool)
  | smbusHbmTemp (k : Nat) (pec : Bool)
  -- 00_scope.md and 20_address_map.md
  | lowHalfRead (fn addr : Nat)
  | registerWrite (fn addr size : Nat) (value : W64)
  -- the rows added at the end of the table
  | refBeatEdge (edge : Bool) (lines : RefEdge)
  | completionTimeout (b c id : Nat)
  | nandEraseDone (m : Nat) (pass : Bool)
  | powerTransitionDone (b : Option Nat)
  | msixVectorUnmask
  | smbusNack
  deriving DecidableEq, Repr

end Sys2Proof
end

