-- ==== Sys2Proof/Decode.lean ====
section
/-! DEFINITION. The command that a table word spells. No row of spec/opcode_table.json gives a field or a bit (every row's
"fields" is empty), so no word spells a command. -/

namespace Sys2Proof

/-- The command spelled by the word w of nbits bits: none, for the table gives bits to no row. -/
def decodeTableWord (_nbits _w : Nat) : Option Instr := none

end Sys2Proof
end

