-- ==== Sys2Proof/Config.lean ====
section
/-! DEFINITION. What the manual leaves to the part, to an outside standard or open: constants with no body.
A claim about one of them holds whatever its value is. -/

namespace Sys2Proof.Config

/-- DESIGN CHOICE, log entry 3. A fresh unstated value; the model applies it to State.freeCtr. -/
opaque freeNat : Nat → Nat
/-- R491: the ECDSA P-256 signature (r, s) by the device identity key of the part with this serial number,
over the given bytes. The key is generated inside the part (R769) and no source gives it; log entry 4. -/
opaque ecdsaSign : BitVec 64 → Bytes → Bytes × Bytes
/-- R764: whether (r, s) is a valid signature of the bytes under fused signer key k; log entry 4. -/
opaque signerAccepts : Nat → Bytes → Bytes → Bytes → Bool
/-- R770, R821: the DER certificate of the part with this serial number; log entry 4. -/
opaque certificate : BitVec 64 → Bytes
/-- R490: first 8 bytes of the SHA-256 of the identity key's public point; log entry 4. -/
opaque keyId : BitVec 64 → Bytes
/-- R84, R85, check 0x32 of R211: whether the image's schedule reserves its HBM windows. The image format
gives no place for them; log entry 5. -/
opaque hbmWindowsHold : Bytes → Bool
/-- R83, R646: the reserved 2-beat refresh windows of an image, as beat offsets from the start gate; log entry 5. -/
opaque refreshWindow : Bytes → Nat → Bool
/-- R80: the gate offset that closes the scheduled HBM window a tile falls in, if it falls in one; log entry 5. -/
opaque hbmWindowGate : Bytes → Nat → Option Nat
/-- R388: which of the 1,024 cached translations a fill displaces; log entry 6. -/
opaque atcVictim : Nat → Nat
/-- R242: rack byte offset, relative to the weight source, of weight (row, column) of a rail product, given the
output length in rows; the manual gives no layout; log entry 7. -/
opaque railWeightOffset : Nat → Nat → Nat → Nat
/-- R240: number of input elements of a rail product, given the command's operands; log entry 7. -/
opaque railInputLength : Nat → Nat → Nat
/-- R238: cycles from a vector command's last row to its completion; the manual gives none; log entry 16. -/
opaque vectorLatency : Nat
/-- R835: content of a plumb engine's work area after a command; log entry 8. -/
opaque plumbWork : Nat → Nat → Byte
/-- R526, R531: payload of a sector of an anchor copy, given its generation; the manual gives no layout; log entry 24. -/
opaque anchorPayload : Nat → Nat → Bytes

end Sys2Proof.Config
end

