-- ==== Sys2Proof/Machine/State.lean ====
section
/-! DEFINITION. The state of the LN13 as plain data: every register, buffer, queue, counter, mode and pin that spec/ names,
the free-value counter of the model (log entry 3), the device's writes to the outside (State.out), and the commands that
wait (State.pending). Registers that are a view of other state are computed in Machine/Registers.lean. -/

namespace Sys2Proof.Machine

/-! ## Part identity and life -/

/-- R1 to R3. -/
inductive Grade where | A | C
  deriving DecidableEq, Repr, Inhabited
/-- R1. -/
inductive Stepping where | a0 | a1
  deriving DecidableEq, Repr, Inhabited

/-- Fused contents (R721 first line): grade and stepping, serial (20), shim map words (R273; bench, core, array order),
factory MAC values (R722). -/
structure Fuses where
  grade    : Grade := .A
  stepping : Stepping := .a0
  serial   : W64 := 0
  shims    : List W32 := []
  macs     : List (BitVec 48) := [0x020000000000, 0x020000000001]
  deriving DecidableEq, Repr, Inhabited

/-- Where the package stands (R696, R720, R766, R782, R803). -/
inductive Life where
  | off                          -- P4
  | awaitLock                    -- R696 step 3
  | starting (beatsLeft : Nat)   -- R696 steps 4 and 5
  | up                           -- READY
  | noFirmware                   -- R766
  | tripped                      -- R803
  deriving DecidableEq, Repr, Inhabited

/-! ## The beat (02_beat_and_time.md) -/

/-- BEAT registers, the epoch logic and the gate sequencer. `periods` counts REF_BEAT or synthesised periods and `cc` the
core cycles of the beat; `events` is bits [11:8] of BEAT_STATUS in place. -/
structure Beat where
  count       : W64 := 0
  epochValue  : W64 := 0
  epochPrior  : W64 := 0
  locked      : Bool := false
  aligned     : Bool := false
  holdover    : Bool := false
  armed       : Bool := false
  events      : W32 := 0
  outEn       : Bool := false
  mActive     : Nat := 100
  lostCount   : W32 := 0
  holdCount   : W32 := 0
  lines       : RefEdge := {}    -- the reference inputs, as the last REF_BEAT_EDGE found them (log entry 33)
  epochIn     : Bool := false    -- last sample (R66)
  epochOut    : Bool := false    -- R72, R790
  edgeSeen    : Bool := false    -- an epoch edge at this REF_BEAT edge, not yet handled
  edgeArmed   : Bool := false    -- R67, R68: EPOCH_ARMED, after the first lock, when that edge was sampled
  loadDecided : Bool := false    -- R67: the load is decided
  loadDue     : Bool := false    -- this REF_BEAT edge is the epoch beat
  epochBeat   : Bool := false    -- the current beat is an epoch beat (R742 EPOCH)
  synth       : Nat := 0         -- beats ended since the last REF_BEAT edge (R58, R59)
  lost        : Bool := false    -- after BEAT_LOST, no relock has completed (R61)
  relocking   : Bool := false    -- R61: REF_BEAT has returned, and the core clock relocks
  relockBeats : Nat := 0         -- beats of that relock
  started     : Bool := false    -- first lock done (R57)
  periods     : Nat := 0
  cc          : Nat := 0
  gateOpen    : Bool := false    -- R75: a gate at cc 0 of this beat
  gateDone    : Bool := false    -- that gate has opened
  deriving DecidableEq, Repr, Inhabited

/-! ## Interrupts (16_interrupts.md) -/

structure Irq where
  summaryEnable : W32 := 0
  pinEn         : Bool := true
  pfCompletion  : Bool := false
  benchEnable   : List W32 := List.replicate 13 0x0FFF
  leafEnable    : List (Nat × W32) := []   -- leaves whose enable is not 0xFFFF_FFFF
  msixEnabled   : Bool := false            -- the PF vector sends (R687)
  msixPending   : Bool := false            -- its Pending Bit
  deriving DecidableEq, Repr, Inhabited

/-! ## Aivia (15_host_interface_and_aivia.md) -/

/-- A captured packet in the 128-entry gate buffer (R651) with its capture time and extended block. -/
structure Pkt where
  bytes : Bytes := []
  ext   : Option Bytes := none
  at_   : Nat := 0
  deriving DecidableEq, Repr, Inhabited

/-- What a completion needs of its packet (R661). -/
structure PktId where
  f     : Nat := 0
  tag   : W32 := 0
  op    : Nat := 0
  pasid : Option Nat := none
  epoch : Nat := 0
  deriving DecidableEq, Repr, Inhabited

/-- When a completion may be posted: at once, or when an entry is durable (R496). -/
inductive Cond where
  | ready
  | durable (stream seq : Nat)
  | posted (p : Nat)           -- after every run completion of the partition is written (R623)
  deriving DecidableEq, Repr, Inhabited

structure Compl where
  id     : PktId := {}
  part   : Nat := 0xFF
  status : Nat := 0
  detail : Nat := 0
  r0     : W64 := 0
  r1     : W64 := 0
  r2     : W32 := 0
  cond   : Cond := .ready
  ofTask : Bool := false      -- the completion of a task, at its end (R817)
  ends   : Bool := false      -- ends a task ABORTED or TORN: the function's next packet waits for it (R398)
  deriving DecidableEq, Repr, Inhabited

/-- One function's AIVIA window, gate buffer and completions not yet written. -/
structure Aivia where
  sqBase : W64 := 0
  sqLog2 : Nat := 0
  sqTail : Nat := 0
  sqHead : Nat := 0
  cqBase : W64 := 0
  cqLog2 : Nat := 0
  cqHead : Nat := 0
  cqTail : Nat := 0
  enable : Bool := false
  ready  : Bool := false
  badDoorbell : Bool := false
  fetchFault  : Bool := false
  gateBuf  : List Pkt := []
  eligible : Nat := 0          -- packets of gateBuf the open gate may still take in (R76, R77)
  notBefore : Nat := 0         -- R398: no admission before this REF_BEAT period
  afterLaunch : Nat := 0       -- R90: a packet behind a launch is admitted in this REF_BEAT period or later
  compl    : List Compl := []
  epoch    : Nat := 0          -- resets of the function; completions of packets admitted before one are discarded (R626, R642)
  inWork   : Nat := 0          -- admitted packets whose completion is not posted
  deriving DecidableEq, Repr, Inhabited

/-! ## Commands of the engines (04_engines_queues_programs.md) -/

/-- A command entry (R174). -/
structure Cmd where
  opcode : Nat := 0
  engine : Nat := 0
  stepEnd : Bool := false
  stealOk : Bool := false
  issueCc : Nat := 0
  issueBeat : Nat := 0
  waitTally : Nat := 0
  waitEn : Bool := false
  waitValue : Nat := 0
  sigTally : Nat := 0
  sigEn : Bool := false
  sigDelta : Nat := 0
  hurdle : Nat := 0
  hurdleEn : Bool := false
  creditLink : Nat := 0
  creditCount : Nat := 0
  reserved : Bool := false      -- a reserved bit is set
  opA : W32 := 0
  opB : W64 := 0
  deriving DecidableEq, Repr, Inhabited

/-- What an issued command still waits for before it completes. -/
inductive Until where
  | time
  | streamLanded (slot : Nat)
  | streamStarted (slot : Nat)
  | slotIdle (slot : Nat)
  | dowel (id : Nat)
  | solve
  | job (id : Nat)             -- a job of the bench: a vector, rail or matrix command in work
  deriving DecidableEq, Repr, Inhabited

structure InFlight where
  cmd    : Cmd := {}
  issued : Nat := 0
  doneAt : Nat := 0
  on     : Until := .time
  step   : Nat := 0
  deriving DecidableEq, Repr, Inhabited

/-- The head command's arrival at its hurdle (R176, R423): counted or held, and the cycle from which it may issue. -/
structure Arrival where
  hurdle : Nat := 0
  held   : Bool := false
  freeAt : Option Nat := none
  at_    : Nat := 0
  deriving DecidableEq, Repr, Inhabited

/-- One of the 40 queues of a core. -/
structure Queue where
  base   : W64 := 0
  log2   : Nat := 0
  head   : Nat := 0
  tail   : Nat := 0
  status : W32 := 0
  ended  : Bool := false
  inflight : List InFlight := []
  arrival  : Option Arrival := none
  stepHeads : List Nat := []   -- HEAD after each STEP_END issued in the run, newest first
  stepsDone   : Nat := 0       -- STEP_END commands completed in the run
  stepAt      : Nat := 0       -- cycle of the last of them
  lastDone    : Nat := 0       -- cycle of the last completion
  since       : Option Nat := none   -- issuable but unissued since (R192)
  deriving DecidableEq, Repr, Inhabited

/-! ## Matrix arrays (06_matrix_arrays.md) -/

/-- What has an array's west bus (R263, R264): an MLOAD or the rows of a streaming command, from a cycle on, or the last wavefronts
of a pre-skewed block, behind its last row. -/
inductive Bus where
  | free
  | load (from_ : Nat)
  | stream (from_ : Nat)
  | tail
  deriving DecidableEq, Repr, Inhabited

structure ArraySt where
  tile   : List (BitVec 16) := []    -- 128 x 128 weights, row-major; [] stands for the zero tile (R825)
  eW     : Int := 0
  eB     : Int := 0
  kValid : Nat := 128
  nValid : Nat := 128
  bias   : List (BitVec 16) := []
  acc    : List (Nat × List W64) := []   -- accumulator rows that are not zero
  accOpen : Bool := false
  accExp  : Int := 0
  held    : Option Nat := none         -- queue that holds the array (R287)
  holdBias : Bool := false             -- BIAS_LOAD within the hold
  bus     : Bus := .free
  carried : Bool := false              -- the bus carries something in the running cycle (R269)
  conv    : Bool := false              -- an MCONV runs on the array (R260)
  feeder  : List (Bool × Bytes) := []  -- 256-byte rows, at most 64; true: of the array's address generator (R256)
  pushes  : List (Nat × Nat × Bytes) := []   -- (slot, tile, row) that wait to be pushed (R259, R260)
  gated    : Bool := true
  jogRun   : Nat := 0
  deriving DecidableEq, Repr, Inhabited

structure GenSlot where
  valid   : Bool := false
  readyAt : Nat := 0
  desc    : Bytes := []
  deriving DecidableEq, Repr, Inhabited

structure Mx where
  arrays : List ArraySt := List.replicate 4 {}
  gens   : List GenSlot := List.replicate 4 {}
  jogCount  : W32 := 0
  wakeCount : W32 := 0
  fault  : W32 := 0
  jogCmdEnd : Nat := 0      -- a JOG command occupies the engine until here (R271)
  deriving DecidableEq, Repr, Inhabited

/-! ## Streams and DMA (08_streams_and_dma.md) -/

/-- A cached translation (R388): the function and PASID that it serves, the range of addresses, and the translated address of the
range's first byte. -/
structure AtcEnt where
  fn    : Nat := 0
  pasid : Option Nat := none
  base  : Nat := 0
  len   : Nat := 0
  addr  : Nat := 0
  deriving DecidableEq, Repr, Inhabited

/-- Where an issued request stands: it waits for its source outside (0), reads a bench's store (1), writes a bench's store (2), holds
its data (3), or has given its data to its far destination (4). -/
inductive ReqStage where | away | reading | writing | held | sent
  deriving DecidableEq, Repr, Inhabited

/-- One request of at most 512 bytes (R326). A source space of 7 stands for zeros: the record of an index of 0xFFFF_FFFF (R357). -/
structure Req where
  id   : Nat := 0
  slot : Nat := 0        -- 64 for a dowel transfer
  q    : Nat := 0        -- queue of the starting command
  tile : Nat := 0        -- running tile number
  cls  : Nat := 0        -- 0 read, 1 write, 2 remote (R330)
  write : Bool := false  -- counts against the write limit (R337)
  srcSpace : Nat := 0
  src  : Nat := 0
  dstSpace : Nat := 0
  dst  : Nat := 0
  len  : Nat := 0
  off  : Nat := 0        -- byte offset in its tile or transfer
  pasid : Option Nat := none
  used : Option AtcEnt := none   -- the translation with which it was issued (R388, R393)
  gate : Option Nat := none      -- a dowel read of an HBM window: period of the gate that closes the window (R80)
  stage : ReqStage := .away
  at_  : Nat := 0        -- period in which its data came (R76)
  buf  : Mem := []       -- its data, by offset
  deriving DecidableEq, Repr, Inhabited

structure Tile where
  num     : Nat := 0
  toIssue : List Req := []
  out     : Nat := 0                 -- requests issued and not complete
  index   : Option Mem := none       -- index words read so far, while they are being read (R829)
  zeros   : List (Nat × Nat × Nat) := []     -- zero records to be written locally: address, tile offset, bytes (R357)
  gated   : Bool := false
  gate    : Option Nat := none       -- period of the gate that closes its HBM window (R80)
  capturedAt : Option Nat := none    -- when the last byte of a gated tile arrived
  start   : Nat := 0                 -- scheduled start cycle
  due     : Nat := 0
  late    : Bool := false            -- it has missed its due cycle or gate
  counted : Bool := false            -- it has counted in DMA_CORE_DEADLINE_COUNT (R377)
  admitted : Bool := false           -- its gated data was written at a gate
  rowsOut : Nat := 0                 -- rows that have come, in order, to wait before the feeder queue (R347)
  fed     : Nat := 0                 -- rows pushed into the feeder queue
  deriving DecidableEq, Repr, Inhabited

/-- One stream slot: its descriptor and the arming in force (R341 to R364). Tile numbers run since SSTART (R363). -/
structure Slot where
  raw     : Bytes := []
  busy    : Bool := false
  starter : Nat := 0
  far     : Int := 0
  count   : Nat := 0
  armBase : Nat := 0        -- running number of the arming's tile 0
  armAt   : Nat := 0        -- issue cycle of the SSTART or SREARM
  old     : List (Nat × Int × Nat × Nat) := []   -- earlier armings: armBase, far, armAt, count, newest first (R384 restarts in them)
  issued  : Nat := 0        -- requests of the arming issued (R400)
  started : Nat := 0        -- tiles started (running)
  landed  : Nat := 0        -- tiles landed in order (running)
  noGate  : Nat := 0        -- tiles below this number make no GATE_TALLY wait (R831)
  noLand  : Nat := 0        -- tiles below this number signal no LAND_TALLY (R831)
  draining : Bool := false
  tiles   : List Tile := []
  deriving DecidableEq, Repr, Inhabited

/-- A translation in work: 0 ATS request, 1 page request, 2 retranslation (R388 to R391). -/
structure Trans where
  pasid : Option Nat := none
  iova  : Nat := 0
  slot  : Nat := 0
  q     : Nat := 0       -- queue of the command whose request needs it
  phase : Nat := 0
  since : Nat := 0       -- periods
  deriving DecidableEq, Repr, Inhabited

structure Dowel where
  id    : Nat := 0
  q     : Nat := 0
  total : Nat := 1            -- requests of the transfer
  parts : List Req := []      -- requests not yet issued
  deriving DecidableEq, Repr, Inhabited

structure Dma where
  slots  : List Slot := List.replicate 64 {}
  dowels : List Dowel := []
  reads  : List Req := []
  writes : List Req := []
  rr     : List Nat := [0, 0, 0]
  nextId : Nat := 1
  atc    : List AtcEnt := []
  trans  : List Trans := []
  fault  : W32 := 0
  faultAddr  : W64 := 0
  faultPasid : W32 := 0
  deadlineCount : W32 := 0
  priCount : W32 := 0
  stalls : List W32 := List.replicate 10 0
  deriving DecidableEq, Repr, Inhabited

/-! ## Plumb engine (10_plumb_solver.md) -/

inductive PlbKind where | solve | batch | delta
  deriving DecidableEq, Repr, Inhabited

structure PlbJob where
  kind  : PlbKind := .solve
  q     : Nat := 0
  step  : Nat := 0        -- the run's step to which the command belongs
  desc  : Nat := 0
  count : Nat := 1        -- problems of a PBATCH, entries of a PDELTA
  done  : Nat := 0
  running : Bool := false
  begun : Nat := 0        -- cycle in which the running solve, or the PDELTA, started
  setup : Nat := 0        -- cycles of the setup, of an iteration's phases, and of the write (R459, R461)
  iters : List Nat := []
  write : Nat := 0
  phase : Nat := 0        -- phase in progress: 0 setup, then those of the iterations, then the write
  total : Nat := 0        -- phases of iterations before the write
  live  : Nat := 0        -- those that are no jog iterations (R460)
  stopK : Nat := 0        -- its ITERATIONS
  endAt : Nat := 0        -- cycle after the phase, or the PDELTA
  wait  : Nat := 0        -- cycles by which waits for banks have lengthened it (R834)
  bad   : Option Nat := none   -- first entry of a PDELTA's list that is out of range (R454)
  deriving DecidableEq, Repr, Inhabited

structure Plb where
  resident  : Option Nat := none    -- DEST of the resident structure (R451, R452)
  fault     : W32 := 0
  counts    : List W32 := List.replicate 4 0   -- SOLVE, ITER, PIVOT, CAP
  job       : Option PlbJob := none
  deriving DecidableEq, Repr, Inhabited

/-! ## Core and bench -/

/-- A tally signal of the next cycle (R178, R412, R414): order key, tally, delta, context. -/
structure Signal where
  key   : Nat := 0      -- queue 0..39, 64 + slot, 200 for the ring port
  tally : Nat := 0
  delta : Nat := 0
  ctx   : Nat := 0
  deriving DecidableEq, Repr, Inhabited

structure Core where
  queues   : List Queue := List.replicate 40 {}
  ctxState : List Nat := List.replicate 8 0
  steals   : W32 := 0
  sat      : List W32 := List.replicate 4 0
  satShadow : List (Nat × Nat × Nat) := []   -- (step, kind, count) of steps not committed: saturations of the matrix, vector, rail
                                             -- and plumb engines (0 to 3), and SOLVE, ITER, PIVOT, CAP (4 to 7)
  satAdded : Nat × List Nat := (0, [])       -- cycle after the last commit, and what that commit added (R232)
  returns  : List (Nat × Nat × Nat) := []    -- credits returned in this cycle: context, link, number (R187)
  arithFault : W32 := 0
  tables   : List Bytes := List.replicate 32 []
  mx       : Mx := {}
  dma      : Dma := {}
  plb      : Plb := {}
  tallies  : List (Nat × Nat) := []     -- tallies that are not zero, index rising
  tlyFault : W32 := 0
  signals  : List Signal := []
  taken    : List (Nat × Nat) := []     -- consumed by waits in cycle takenAt (R414 step 2)
  takenAt  : Nat := 0
  credits     : List Nat := []          -- 6 x context + link
  creditStart : List Nat := []
  tokens   : List Nat := []             -- 5 x context + engine; [] stands for 1 everywhere
  wrr      : List (Nat × Nat) := List.replicate 5 (0, 0)   -- per engine: context in turn, commands issued
  lastIssue : List Nat := List.replicate 5 0   -- per engine: cycle of the last issue + 1
  busyUntil : List Nat := List.replicate 5 0
  idleSince : List Nat := List.replicate 5 0   -- per engine: no issuable command since (R192)
  deriving DecidableEq, Repr, Inhabited

/-- Whose request of a store row it is, and so where the bytes read go or what its end brings. -/
inductive Who where
  | job (id tag : Nat)               -- operand `tag` of a job of the bench
  | dma (b c id : Nat)               -- a DMA request of core c of bench b
  | index (slot tile : Nat)          -- index words of a gather or scatter tile of the port's core (R829)
  | tile (slot num : Nat)            -- bytes of a tile of the port's core that need no far request (R346, R357)
  | flit (p leg : Nat)               -- a flit of a baton's leg
  | plumb (c : Nat)                  -- the running solve of core c
  | writeBack (bank row word : Nat)  -- a corrected rack word (R308)
  | lone                             -- nothing waits for it
  deriving DecidableEq, Repr, Inhabited

/-- A request of one store row by a port (R293 to R301): the cycle from which it asks for a slot of its bank, the owner code of its
port (R296), the array or engine, the row of the store, and the bytes: read, as (store offset, length), or written. -/
structure MemReq where
  due   : Nat := 0
  port  : Nat := 0
  unit  : Nat := 0
  rack  : Bool := false
  row   : Nat := 0
  write : Bool := false
  spans : List (Nat × Nat) := []
  data  : List (Nat × Bytes) := []
  who   : Who := .lone
  deriving DecidableEq, Repr, Inhabited

/-- Kinds of jobs: vector commands, rail commands, MLOADs, and streaming commands by feed. -/
inductive JobKind where | vec | rail | load | preskew | queue | conv
  deriving DecidableEq, Repr, Inhabited

/-- A vector, rail or matrix command in work on a bench that owns it. It runs on core (eb, ec), another one where it was stolen. -/
structure Job where
  id    : Nat := 0
  p     : Nat := 0
  c     : Nat := 0
  q     : Nat := 0
  eb    : Nat := 0
  ec    : Nat := 0
  step  : Nat := 0           -- the run's step to which the command belongs
  kind  : JobKind := .vec
  cmd   : Cmd := {}
  row   : Nat := 0           -- next row, wavefront or step of its work
  from_ : Nat := 0           -- cycle from which that may be worked on
  asked : Bool := false      -- its operands have been requested
  got   : List (Nat × Nat × Bytes) := []   -- operands read: tag, store offset, bytes
  window : List Bytes := []  -- rows kept for later steps, newest first
  acc   : List Int := []     -- exact sums of a VSUM or rail block
  gang  : List (Nat × Nat × Int) := []   -- array, gang position, accumulator exponent at issue
  gens  : List (Option Nat) := []        -- units that an MCONV has still to gather
  gen   : Nat := 0           -- its generator slot
  late  : Bool := false      -- behind its schedule: issued late, or delayed by a bank or a row that was not there
  genAt : Nat := 0           -- cycle from which its generator gathers
  ended : Bool := false      -- every row has entered or been read
  endAt : Nat := 0           -- cycle in which it completes, once its writes are made
  behind : Option Nat := none   -- job that runs before it (R289)
  deriving DecidableEq, Repr, Inhabited

structure Spd where
  status    : W32 := 0
  errCap    : W32 := 0
  clashCap  : W32 := 0
  clashBeat : W64 := 0
  breachCap : W32 := 0
  phase     : Nat := 0
  corrected : W32 := 0
  parity    : W32 := 0
  reruns    : W32 := 0
  waits     : W32 := 0
  deriving DecidableEq, Repr, Inhabited

/-- What one BLAP gives to a lap: the bench's own list, or that of the slot it adopted (R125, R599). -/
structure LapPart where
  no : Nat := 0                      -- how many of the slot's BLAPs the port has accepted in the run, with this one
  adopted : Bool := false
  batons : List (Nat × Nat) := []    -- (source, size) in 64 KiB units
  releaseTally : Nat := 0
  releaseEn : Bool := false
  ctx : Nat := 0
  deriving DecidableEq, Repr, Inhabited

/-- A lap of a bench's ring port (R123 to R125). -/
structure Lap where
  mode : Nat := 0
  parts : List LapPart := []
  started : Bool := false
  deriving DecidableEq, Repr, Inhabited

structure RingPort where
  lap  : Option Lap := none
  next : Option Lap := none
  laps : Nat := 0          -- laps started in the run
  accepted : Nat × Nat := (0, 0)   -- own and adopted slot's BLAPs accepted in the run
  arrivals : List (Bool × Nat × Nat) := []   -- batons taken in since run start (R126): counter-clockwise, home place, lap
  holdCw  : Nat := 0       -- cycle until which a retry holds the clockwise lane that leaves here (R130), and the other
  holdCcw : Nat := 0
  overdue : List (Nat × Nat) := []   -- rack ranges in which an overdue baton of a scheduled run is to arrive (R132)
  buffers : List (Bool × Nat × Nat × Nat) := []   -- adopted, RING_IN_CW, RING_IN_CCW, SLOT_UNITS of the run (R126)
  deriving DecidableEq, Repr, Inhabited

/-- R137. -/
inductive BState where | unassigned | spare | active | bypassed | fenced | testing
  deriving DecidableEq, Repr, Inhabited

/-- Why a bench is TESTING, and what follows (R139, R165, R714, R729). -/
inductive TestWhy where
  | startup
  | selfTest
  | rejoin (id : PktId)
  | p2exit
  deriving DecidableEq, Repr, Inhabited

structure BenchTest where
  why    : TestWhy := .startup
  former : BState := .unassigned
  endAt  : Nat := 0      -- period
  deriving DecidableEq, Repr, Inhabited

structure Bench where
  cores : List Core := List.replicate 2 {}
  rack  : Mem := []
  act   : Mem := []
  spd   : Spd := {}
  reqs  : List MemReq := []
  jobs  : List Job := []
  nextJob : Nat := 0
  upsets : List Upset := []
  toWriteBack : List (Nat × Nat × Nat) := []   -- corrected rack words not yet written back (R308)
  port  : RingPort := {}
  state : BState := .unassigned
  test  : Option BenchTest := none
  testPass : Bool := false
  testDeferred : Bool := false
  powerReq : Nat := 0
  power    : Nat := 0
  powerMove : Option (Nat × Nat) := none   -- target state and the period at which it is in force
  resetUntil : Option Nat := none          -- steps 1 to 4 of R702 in work until this cycle (R707, R815)
  reloadUntil : Option Nat := none         -- step 5 of R702 in work until this cycle (R707)
  supplyBad : Nat := 0                     -- gates for which a tripped monitor still reads UNUSABLE (R785)
  disagree  : Nat := 0                     -- consecutive gates at which the views disagreed (R633)
  temp : BitVec 16 := 0x8000
  deriving DecidableEq, Repr, Inhabited

/-! ## Ring, partitions and tasks -/

inductive Change where
  | create
  | resize (first count : Nat) (released : List Nat)
  | takeover (lost : Nat)
  | bypass (lost : Nat)
  | destroy (seats : List Nat)     -- the switches of an arc that is no more
  deriving DecidableEq, Repr, Inhabited

structure SpliceReq where
  part : Nat := 0
  change : Change := .create
  id   : Option PktId := none
  notBefore : Nat := 0     -- period before which its window does not open (R734)
  shown : Bool := true     -- counted in RING_SPLICE_STATUS.WAITING: until an FLR or BCH reset of its partition (R721 note 1)
  deriving DecidableEq, Repr, Inhabited

structure Window where
  closeAt : Nat := 0       -- period of gate g + 64
  reqs    : List SpliceReq := []
  deriving DecidableEq, Repr, Inhabited

structure Ring where
  seatMap  : List Nat := List.range 13
  switches : W32 := 0x1FFF
  spareLive : Nat := 0xF
  waiting  : List SpliceReq := []
  window   : Option Window := none
  lastSplice : W64 := 0
  event    : W32 := 0
  retryCount : W32 := 0
  deriving DecidableEq, Repr, Inhabited

/-- A leg of a baton (R108 to R116), flit by flit. Places are counted clockwise over the benches of the partition's circle. Legs of
one lane leave in the order of their numbers. -/
structure Leg where
  id   : Nat := 0
  home : Nat := 0
  ccw  : Bool := false
  leg  : Nat := 1
  legs : Nat := 1
  bidir : Bool := false
  place : Nat := 0         -- place that it leaves
  dest : Nat := 0          -- place it arrives at
  lap  : Nat := 0          -- number of its lap in the run
  src  : Nat := 0          -- rack offset of the baton on the bench it leaves
  bytes : Nat := 0
  step : Nat := 0          -- cycles that a leg of its whole lap takes on a lane
  parent : Option Nat := none      -- the leg whose flits it forwards
  sent : Nat := 0          -- flits that have left
  asked : Bool := false    -- the next flit is being read
  air  : List (Nat × Bytes) := []  -- flits on the lane: the cycle in which each is written, and its bytes
  slots : Option (List Nat) := none   -- rack offsets of the ring-in slots that it is written to, once they are taken
  got  : Nat := 0          -- flit writes made at the receiver
  forwarded : Bool := false
  due  : Nat := 0          -- cycle from which its last flit is in the receiver's rack by R117
  late : Bool := false     -- it has missed its beat (R132)
  deriving DecidableEq, Repr, Inhabited

/-- A hurdle of a partition (R421). A participant is 10 x slot + 5 x core + engine. -/
structure Hurdle where
  sense    : Bool := false
  poisoned : Bool := false
  parts    : List Nat := []
  arrived  : List Nat := []
  released : Bool := false
  acked    : List Nat := []
  early    : List Nat := []
  moveAt   : Option Nat := none    -- cycle in which early arrivals move (R426)
  missing  : List Nat := []        -- arrivals left out of a recorded, released round (R833)
  counts   : List (Nat × Nat) := []  -- acknowledgements per participant by commands of committed steps (R832)
  ackLog   : List (Nat × Nat) := []  -- other acknowledgements: participant, step of the command
  deriving DecidableEq, Repr, Inhabited

structure Prog where
  image : Bytes := []
  fingerprint : Bytes := []
  compact : Bool := false       -- the image keeps the limits of R598
  deriving DecidableEq, Repr, Inhabited

structure Range where
  addr : Nat := 0
  len  : Nat := 0
  space : Nat := 0
  role : Nat := 0
  deriving DecidableEq, Repr, Inhabited

/-- What a core holds at the step's start (R608 item 4, R317 item 3). -/
structure CoreSnap where
  bench : Nat := 0
  core  : Nat := 0
  heads : List Nat := []
  ended : List Bool := []
  tallies : List (Nat × Nat) := []
  credits : List Nat := []
  slots : List Slot := []
  feeders : List (List (Bool × Bytes)) := []
  accepted : Nat × Nat := (0, 0)   -- BLAPs that the bench's ring port has accepted
  deriving DecidableEq, Repr, Inhabited

/-- The run started by one run packet (R397) with everything its record and completion need (R487, R677). -/
structure Task where
  id     : PktId := {}
  hostRef : Bytes := []
  ranges : List Range := []
  splitSpace : Nat := 0
  splitAddr  : Nat := 0
  startGate : Nat := 0
  startAt   : Nat := 0       -- cycle of cc 0 of the launch beat
  profile : Bytes := []      -- effective profile (R469)
  credit  : Bool := false
  mask    : Nat := 0         -- downgrade mask (R463)
  shift   : Nat := 0
  step    : Nat := 0         -- steps committed
  attempt : Nat := 1
  reruns  : Nat := 0
  stepReruns : Nat := 0
  takeovers : Nat := 0
  splits  : Nat := 0
  chain   : W64 := 0         -- digest of the last layer committed
  prev    : W64 := 0         -- prev of the next layer (R479)
  inDigest  : Bytes := []
  outDigest : Bytes := []
  firstIssue : Option Nat := none   -- period of the step's first issue (F of R318)
  nextIssue  : Option Nat := none   -- period of the first issue of a command of a later step
  idleAt   : Option Nat := none     -- period in which every engine was first seen idle after a stop (R318)
  pivot   : Bool := false
  cap     : Bool := false
  flags0 : Bool × Bool := (false, false)   -- pivot and cap at the step's start
  snaps   : List CoreSnap := []
  hurdleSnap : List Hurdle := []
  lastBeat : W64 := 0        -- BEAT_COUNT at the last commit
  preempt : Bool := false
  lateGate : Nat := 0        -- period of the gate that the late tiles landed so far need (R376)
  resumeAt : Nat := 0        -- no command issues before this cycle
  paused   : Bool := false   -- the buddy pause of the step has run (R589)
  hostOut  : Nat × List Bytes := (0, [])   -- cycle after the one of the last STEP_COMMIT, and what the host's output ranges held in it
  deriving DecidableEq, Repr, Inhabited

/-- How a task ends (R397, R403, R430). -/
structure Ending where
  torn   : Bool := false
  status : Nat := 0
  detail : Nat := 0
  r1     : W64 := 0
  deriving DecidableEq, Repr, Inhabited

/-- Why a partition issues nothing. -/
inductive Stop where
  | none
  | rerun (b : Nat)              -- bench whose activation store showed the error (R317)
  | late (b c slot : Nat) (decision : Nat)
  | abort (e : Ending)
  | takeover (fresh : Bool)
  | pause (endAt : Nat)          -- buddy pause before a commit or a packet's completion
  | clamp (endAt : Nat)          -- 0: legs in flight still complete (R562)
  | load (endAt kind : Nat)      -- buddy load: 0 takeover (R595), 1 shrink (R600), 2 after a BCH reset (R702)
  deriving DecidableEq, Repr, Inhabited

/-- 0 FREE, 1 IDLE, 2 LOADED, 3 RUNNING, 4 RECOVERING. -/
inductive PState where | free | idle | loaded | running | recovering
  deriving DecidableEq, Repr, Inhabited

structure LoadJob where
  id    : PktId := {}
  image : Bytes := []
  reply : Nat := 0
  copying : Bool := false     -- image written, buddy pause running
  deriving DecidableEq, Repr, Inhabited

/-- A drain of a generation (R573, R574). -/
structure Drain where
  gen    : Nat := 0
  todo   : List Nat := []          -- pending pages still to write
  stage  : Nat := 0                -- 0 pages, 1 extent table, 2 flush, 3 header, 4 flush
  inWork : List (Nat × Nat) := []  -- Writes in work: (first LBA, LBAs)
  allowance : Nat := 0
  beat   : W64 := 0                -- CLAMP_BEAT
  step   : Nat := 0
  gate   : Nat := 0
  fingerprint : Bytes := []
  deriving DecidableEq, Repr, Inhabited

structure Ckp where
  armed    : Bool := false
  buddyOn  : Bool := false
  nvme     : Nat := 0
  lastGen  : W64 := 0
  tornLba  : W64 := 0
  event    : W32 := 0
  skips    : W32 := 0
  session  : Nat := 0
  lba      : Nat := 0
  containerId : Nat := 0
  region   : Nat := 0
  regionPages : Nat := 0
  clampBase : Nat := 0
  interval : Nat := 1
  units    : Nat := 1
  dirty    : List Nat := []      -- clamp-dirty scope pages, rising
  pending  : List Nat := []
  buddyDirty : List Nat := []
  buddyBase : Nat := 0
  buddyN   : Nat := 0
  buddySlot1 : List Nat := []    -- pages whose current buddy slot is slot 1
  held     : List (Nat × Nat) := []   -- pages the last generation holds, with their container slot
  drain    : Option Drain := none
  clamped  : Option Drain := none     -- the drain that starts when the clamp's copies are made
  deriving DecidableEq, Repr, Inhabited

/-- The ledger stream of a partition (12). -/
structure Stream where
  id       : Nat := 0
  nextSeq  : Nat := 0
  lastHash : Bytes := []
  bundleFirst : Nat := 0
  bundleBeat  : Nat := 0       -- LDG time base: periods when the bundle's first entry was staged
  bundleOpen  : Bool := false
  decisions   : Nat := 0       -- in the bundle
  total    : Nat := 0
  durable  : W64 := 0
  closed   : Bool := true
  deriving DecidableEq, Repr, Inhabited

structure Part where
  state : PState := .free
  valid : Bool := false
  first : Nat := 0
  seats : Nat := 0
  hbmBase : Nat := 0
  hbmSize : Nat := 0
  credit : Bool := false         -- PART_EXEC.MODE
  balance : Bool := false
  shrink : Bool := false
  minActive : Nat := 0
  bw : List Nat := [0, 0, 0]
  tallyBlocks : Nat := 0
  hurdleCount : Nat := 0
  audit : Bool := false
  classBT : Bool := false
  mask  : Nat := 0
  shiftGates : Nat := 0
  hurdles : List Hurdle := []
  hrdFault : W32 := 0
  prog  : Option Prog := none
  load  : Option LoadJob := none
  dropProg : Bool := false      -- the program is unloaded when the task has ended (R593, R594)
  destroying : Option PktId := none   -- zeroing (R146)
  task  : Option Task := none
  launch : Option Task := none
  stop  : Stop := .none
  after : Stop := .none          -- the stop that follows a pause or clamp in work (R317, R375)
  legs  : List Leg := []
  nextLeg : Nat := 0
  circle : List Nat := []        -- benches of the run's arc that batons pass, clockwise
  ringStop : Bool := false       -- at a lap boundary for a splice change: no leg begins (R151)
  ckp   : Ckp := {}
  stream : Stream := {}
  await : Option (PktId × W64 × W64) := none      -- a BUDDY_SET, CKP_RESTORE or PART_DESTROY that waits for its end
  preempts : List PktId := []                     -- PART_PREEMPT packets waiting for the task's completion
  slotSeats : List Nat := []                      -- seats of the logical slots while a program is loaded (R208, R602)
  adopted : List (Nat × Nat) := []                -- (lost slot, adopter slot)
  deriving DecidableEq, Repr, Inhabited

/-! ## The ledger (12_nderil_ledger.md) -/

structure StageEnt where
  part : Nat := 0
  stream : Nat := 0
  seq  : Nat := 0
  audit : Bool := false
  decision : Bool := false
  bytes : Bytes := []
  inStripe : Option Nat := none
  at_ : Option Nat := none         -- cycle in which it was staged (R494)
  deriving DecidableEq, Repr, Inhabited

structure Sector where
  kind : Nat := 0
  lost : Bool := false
  reloc : Bool := false
  entries : List Bytes := []
  deriving DecidableEq, Repr, Inhabited

structure Stripe where
  num : Nat := 0
  row : Nat := 0
  page : Nat := 0
  aux : Option Nat := none
  sectors : List Sector := []      -- 32 data sectors, sector 4d + j
  lost : Bool := false
  fills : List (Nat × Nat) := []   -- member and slot of each LOST_FILL sector (R535)
  deriving DecidableEq, Repr, Inhabited

structure Anchor where
  gen : Nat := 0
  page : Nat := 0                                  -- where its row holds it (R531)
  nextStream : Nat := 1
  streams : List (Nat × Nat × Bool × W64) := []   -- stream, partition, closed, released SEQ
  lossMap : List Nat := []
  tailHint : Nat := 0
  age : W64 := 0
  retainDays : Nat := 0
  rows : List (Nat × Nat × W64) := []             -- row, first stripe, age
  retired : List Nat := []
  geometry : Geometry := { luns := 1, blocks := 0, pages := 0, pageBytes := 0 }
  deriving DecidableEq, Repr

/-- R532. -/
inductive MState where | online | failed | rebuilding | absent
  deriving DecidableEq, Repr, Inhabited

structure StripeProg where
  stripe : Stripe := {}
  issued : List Nat := []      -- members whose page is being programmed
  rest   : List Nat := []      -- parity members still to program, in order
  anchor : Option Nat := none  -- anchor row being written
  more   : List Stripe := []   -- further stripes of the anchor copy (R531)
  copy   : Option Anchor := none   -- what the anchor copy records
  id     : Option PktId := none   -- LDG_FORMAT that waits for this anchor copy
  moves : Option Nat := none       -- the stripe that it relocates (R540)
  since : Nat := 0             -- period in which the pages in work were issued (R532)
  deriving DecidableEq, Repr, Inhabited

inductive EraseWhy where
  | anchorRow (row : Nat)
  | reclaim (row : Nat)
  | format (id : PktId)
  | replace (id : PktId)
  deriving DecidableEq, Repr, Inhabited

structure EraseJob where
  why : EraseWhy
  members : List Nat
  since : Nat := 0             -- period in which it was issued (R532)
  deriving DecidableEq, Repr

structure Ledger where
  -- kept on NAND
  stripes : List Stripe := []
  anchors : List (Option Anchor) := [none, none]
  rows    : List (Nat × Nat × W64) := []     -- row table: row, first stripe, age (R512)
  retired : List Nat := []
  lossMap : List Nat := []
  dir     : List (Nat × Nat × Bool × W64) := []   -- stream directory: stream, partition, closed, released SEQ
  anchorPages : List Nat := [0, 0]           -- next free page of rows 0 and 1
  grownBad : List Nat := List.replicate 10 0
  geometry : Geometry := { luns := 1, blocks := 0, pages := 0, pageBytes := 0 }
  nextStripe : Nat := 0
  nextStream : Nat := 1
  -- kept by the device
  mounted : Bool := false
  sealed  : Bool := false
  members : List MState := List.replicate 10 .online
  disagree : List Nat := List.replicate 10 0
  stage   : List StageEnt := []
  reserved : Nat := 0
  curRow  : Option Nat := none
  curPage : Nat := 0
  prog    : Option StripeProg := none
  erase   : Option EraseJob := none
  abandoned : Option Nat := none           -- stripe the next stripe's AUX names (R519, R528)
  rebuild : Option (Nat × Nat × Nat) := none   -- member, next stripe, tail
  lastRebuild : Nat := 0
  anchorDue : Bool := false
  scrubNext : Nat := 0
  scrubIn   : Nat := 1024                  -- gates to the next scrub read
  scrubDue  : Nat := 0                     -- scrub reads that are due (R539)
  toRelocate : List (Nat × List Sector) := []   -- stripes to relocate, with the sectors that read (R540)
  tail    : Nat := 0
  lostNow : Nat := 0
  age     : W64 := 0
  event   : W32 := 0
  lossCount : W32 := 0
  dropCount : W32 := 0
  syncRetry : W32 := 0
  erasures  : W32 := 0
  relocates : W32 := 0
  scrubPass : W32 := 0
  scrubInterval : Nat := 1024
  deriving DecidableEq, Repr

/-! ## Store sessions (13_checkpoint_and_recovery.md) -/

inductive SState where | down | connecting | connected
  deriving DecidableEq, Repr, Inhabited

structure Session where
  state : SState := .down
  port  : Nat := 0
  owner : Nat := 0
  digestErrors : W32 := 0
  id    : Option PktId := none
  sizeLbas : Nat := 0
  keepAlive : Nat := 0            -- negotiated timeout in beats
  aliveAt : Nat := 0              -- period of the connection or of the last Keep Alive sent
  others : Nat := 0               -- commands in work that serve no running drain: a superblock Write, the rest of a failed drain
  rx    : List (Nat × Nat) := []  -- completion statuses received, with the period, not yet admitted at a gate (R79, R571)
  disagree : Nat := 0
  deriving DecidableEq, Repr, Inhabited

structure StorePort where
  family : Nat := 4
  prefixLen : Nat := 0
  mtu  : Nat := 1500
  vlan : Nat := 0
  ip   : Bytes := []
  gateway : Bytes := []
  mac  : BitVec 48 := 0
  deriving DecidableEq, Repr, Inhabited

/-! ## Glue, GPIO, management, package -/

/-- Who asked for a slot program (R724, R725). -/
inductive GlueWho where
  | packet (id : PktId)
  | spare (id : Option PktId)
  deriving DecidableEq, Repr, Inhabited

structure GlueJob where
  setting : Nat := 0
  value   : Nat := 0
  who     : GlueWho := .spare none
  deriving DecidableEq, Repr, Inhabited

structure Glue where
  values : List Nat := [100, 12, 0, 0, 0, 0, 0, 0x020000000000, 0x020000000001, 1600, 4, 0x4C, 0, 0, 500, 0]
  used   : List Nat := List.replicate 16 0
  jobs   : List GlueJob := []      -- the first is being programmed
  event  : W32 := 0
  lockOffset : Nat := 0
  lockFn : Nat := 0
  torn   : Bool := false           -- a slot program was cut (R726)
  smbusAddress : Nat := 0x4C       -- SMBUS_ADDRESS in force (R722)
  subsystemId  : Nat := 0          -- PCIE_SUBSYSTEM_ID in force
  maxRate      : Nat := 0          -- PCIE_MAX_RATE in force
  jtagDisable  : Bool := false     -- JTAG_DISABLE in force (R798)
  onfiRate     : Nat := 1600       -- ONFI_RATE_CAP in force
  deriving DecidableEq, Repr, Inhabited

structure Gpio where
  funcEn : List W32 := List.replicate 4 0
  outValue : W32 := 0
  inRaw  : W32 := 0
  filtered : W32 := 0
  intMode : W64 := 0
  intStatus : W32 := 0
  capPin : Nat := 0
  capRising : Bool := false
  intBeat : W64 := 0
  debounce : List Nat := List.replicate 32 0
  differing : List Nat := List.replicate 32 0
  launched : List Nat := []   -- partitions whose launch beat this is (R742)
  doneNext : List Nat := []   -- partitions whose DONE strobe is due in the next beat
  doneNow  : List Nat := []
  deriving DecidableEq, Repr, Inhabited

structure Mgmt where
  banks   : List (Option Bytes) := [none, none]   -- staged images; none: the image of manufacture (log entry 26)
  fwState : Nat := 1
  bank    : Nat := 0
  signer  : Nat := 0
  version : Nat := 0
  event   : W32 := 0
  hbmTemp : List (BitVec 16) := List.replicate 8 0x8000
  sampleIn : Nat := 16384
  deriving DecidableEq, Repr, Inhabited

structure CalJob where
  id : PktId := {}
  kind : Nat := 0
  deferred : Bool := false
  begun : Option (W64 × Nat) := none    -- beat at which it began, period at which it ends
  deriving DecidableEq, Repr, Inhabited

structure TestJob where
  id : PktId := {}
  left : Nat := 0       -- benches still to be tested
  deferred : Bool := false
  passed : Nat := 0
  last : W64 := 0
  deriving DecidableEq, Repr, Inhabited

structure Glb where
  ready : Bool := false
  lastStart : Nat := 0
  rcBench : Nat := 0
  rcCore : Nat := 0
  rcEngine : Nat := 0
  resetMark : Option (Nat × Nat) := none   -- cycle and rank of the last FLR (2) or BCH reset (1) that took effect (R706)
  sleep : Bool := false
  asleep : Bool := false
  sleepMove : Option Nat := none     -- period at which P3 entry ends
  waking : Bool := false             -- P3 exit: benches are being tested
  disStatus : W32 := 0
  disLatch : W64 := 0
  disCapture : W32 := 0
  disBeat : W64 := 0
  cal : Option CalJob := none
  tests : List TestJob := []
  deriving DecidableEq, Repr, Inhabited

/-- What the device sends to the outside, newest first. -/
inductive Output where
  | hostWrite (pasid : Option Nat) (iova : Nat) (data : Bytes)
  | translatedWrite (addr : Nat) (data : Bytes)
  | msix (f : Nat)
  | atsRequest (pasid : Option Nat) (iova : Nat)
  | pageRequest (pasid : Option Nat) (iova : Nat)
  | invalidateDone (f : Nat)
  | bar2Read (fn : Nat) (data : Bytes)
  | bar0Read (fn addr : Nat) (data : W32)
  | smbus (data : Bytes)
  | smbusNack
  | nvmeWrite (s : Nat) (lba : Nat) (data : Mem) (bytes : Nat)
  | nvmeFlush (s : Nat)
  | keepAlive (s : Nat)
  | connect (s : Nat)
  | disconnect (s : Nat)
  | thermtrip
  | nandProgram (member row page : Nat) (data : Bytes)
  | nandErase (member : Nat)
  deriving DecidableEq, Repr

/-- The machine. -/
structure State where
  pending : List Instr := []
  life  : Life := .awaitLock
  start : StartEnv := {}
  fuses : Fuses := {}
  beat  : Beat := {}
  irq   : Irq := {}
  fns   : List Aivia := List.replicate 7 {}
  hiLatch : List (List (Nat × W32)) := List.replicate 7 []   -- R18: per function, register offset and latched high half
  ring  : Ring := {}
  parts : List Part := List.replicate 6 {}
  benches : List Bench := List.replicate 13 {}
  hbm   : Mem := []
  bar2Wait : List (Nat × Nat × Bar2) := []
  doorbells : List (Nat × Nat × Nat × Nat × Nat × Nat) := []   -- capture cycle, fn, bench, core, queue, value
  ldg   : Ledger := {}
  sessions : List Session := List.replicate 8 {}
  ports : List StorePort := List.replicate 2 {}
  glue  : Glue := {}
  gpio  : Gpio := {}
  mgmt  : Mgmt := {}
  glb   : Glb := {}
  out   : List Output := []
  raised : List (Nat × W32) := []   -- R10: event bits set in the running cycle, by register
  invals : List (Nat × List (Nat × Nat × Nat)) := []   -- R393: function, and requests (bench, core, id) that used the entries
  freeCtr : Nat := 0
  deriving DecidableEq, Repr

/-- Why a command stops the machine. No command does: every fault of the manual ends a task, fences a unit or refuses a
packet, and the machine goes on; a device stopped by the thermal trip or by missing firmware is a state. -/
inductive Fault where
  /-- Raised by no meaning; safe. It keeps the type closed and inhabited. -/
  | neverRaised
  deriving DecidableEq, Repr

/-- Why the model refuses a command. -/
inductive Refusal where
  /-- The command's arm has no meaning yet; safe: nothing can be proved about what it would do. -/
  | notModelled (mnemonic : String)
  deriving DecidableEq, Repr

/-- The machine right after power-on reset is released and before the first lock (R696 steps 1 and 2 done): every register
field at its Reset value, every store zero. The values the manual does not state are named in log entries 10 to 13. -/
def State.reset : State := {}

end Sys2Proof.Machine
end

