-- ==== Sys2Proof/Machine/Ops.lean ====
section
/-! DEFINITION. The named operations over the sparse stores, byte strings and the parts of State: reads and writes of memory
(R16, R292, R644), accessors and updates of a bench, core, queue, slot, partition, function and session, time, and the
outputs and completions of the device. -/

namespace Sys2Proof.Machine

/-! ## Sparse stores: unlisted bytes read zero (R313, R696 step 4: stores are zero-filled) -/

/-- One byte of a store. -/
def Memory.get : Mem → Nat → Byte
  | [], _ => 0
  | c :: m, a => if c.1 = a then c.2 else Memory.get m a

/-- The canonical form: addresses strictly rising, no zero byte listed. -/
def Memory.wf : Mem → Bool
  | [] => true
  | [c] => c.2 != 0
  | c :: d :: m => c.2 != 0 && decide (c.1 < d.1) && Memory.wf (d :: m)

/-- The bytes of a string that are not zero, from an address on. -/
def Memory.ofBytes : Nat → Bytes → Mem
  | _, [] => []
  | a, b :: bs => if b = 0 then Memory.ofBytes (a + 1) bs else (a, b) :: Memory.ofBytes (a + 1) bs

/-- A store moved up by d. -/
def Memory.up (d : Nat) (m : Mem) : Mem := m.map fun c => (c.1 + d, c.2)

/-- Bytes a to a + n − 1 of a store, as a store from 0. -/
def Memory.slice (m : Mem) (a n : Nat) : Mem :=
  (m.filter fun c => decide (a ≤ c.1) && decide (c.1 < a + n)).map fun c => (c.1 - a, c.2)

/-- Bytes a to a + n − 1 replaced by bytes 0 to n − 1 of src: the one write of the model. -/
def Memory.splice (m : Mem) (a n : Nat) (src : Mem) : Mem :=
  (m.filter fun c => decide (c.1 < a)) ++ Memory.up a (src.filter fun c => decide (c.1 < n)) ++
    (m.filter fun c => decide (a + n ≤ c.1))

/-- A write of a byte string. -/
def Memory.write (m : Mem) (a : Nat) (bs : Bytes) : Mem := Memory.splice m a bs.length (Memory.ofBytes 0 bs)

/-- A zero-fill (R313). -/
def Memory.clear (m : Mem) (a n : Nat) : Mem := Memory.splice m a n []

/-- A read of n bytes. -/
def Memory.read (m : Mem) (a n : Nat) : Bytes := (List.range n).map fun i => Memory.get m (a + i)

/-! ## Byte strings (R16) -/

/-- The little-endian number of a byte string. -/
def leNat : Bytes → Nat
  | [] => 0
  | b :: bs => b.toNat + 256 * leNat bs

/-- The n low bytes of a number, little-endian. -/
def leBytes : Nat → Nat → Bytes
  | 0, _ => []
  | n + 1, v => BitVec.ofNat 8 v :: leBytes n (v / 256)

/-- A byte string as a number, first byte highest. -/
def beNat (bs : Bytes) : Nat := bs.foldl (fun v b => 256 * v + b.toNat) 0

/-- The n low bytes of a number, highest first. -/
def beBytes (n v : Nat) : Bytes := (leBytes n v).reverse

/-- n bytes of a string from an offset, zero beyond its end. -/
def Bytes.sub (bs : Bytes) (off n : Nat) : Bytes :=
  let t := (bs.drop off).take n
  t ++ List.replicate (n - t.length) 0

/-- The little-endian number of n bytes of a string from an offset. -/
def Bytes.nat (bs : Bytes) (off n : Nat) : Nat := leNat (Bytes.sub bs off n)

/-- Bits [hi:lo] of a number. -/
def bitsOf (v hi lo : Nat) : Nat := v / 2 ^ lo % 2 ^ (hi + 1 - lo)

/-- Bit n of a number. -/
def bitOf (v n : Nat) : Bool := v / 2 ^ n % 2 = 1

/-- A number from a bit. -/
def natOfBool (b : Bool) : Nat := if b then 1 else 0

/-- The signed value of the low n bits of v. -/
def signedOf (v n : Nat) : Int :=
  let w := v % 2 ^ n
  if w < 2 ^ (n - 1) then (w : Int) else (w : Int) - (2 ^ n : Nat)

/-- v raised to a multiple of k. -/
def roundUp (v k : Nat) : Nat := (v + (k - 1)) / k * k

/-- Quotient rounded up. -/
def ceilDiv (v k : Nat) : Nat := (v + (k - 1)) / k

/-- A 32-bit counter that saturates at 0xFFFF_FFFF. -/
def satAdd32 (v : W32) (n : Nat) : W32 := BitVec.ofNat 32 (min (v.toNat + n) 0xFFFFFFFF)

/-- A rising list without repeats, with one more element. -/
def insertSorted (x : Nat) : List Nat → List Nat
  | [] => [x]
  | y :: ys => if x < y then x :: y :: ys else if x = y then y :: ys else y :: insertSorted x ys

/-- The union of two lists of page numbers. -/
def insertAll (xs ys : List Nat) : List Nat := xs.foldl (fun acc x => insertSorted x acc) ys

/-- A sorted association list, zero entries left out (tallies). -/
def setNat (k v : Nat) : List (Nat × Nat) → List (Nat × Nat)
  | [] => if v = 0 then [] else [(k, v)]
  | c :: m =>
    if k < c.1 then (if v = 0 then c :: m else (k, v) :: c :: m)
    else if k = c.1 then (if v = 0 then m else (k, v) :: m)
    else c :: setNat k v m

/-- The value of a key, 0 where unlisted. -/
def getNat (m : List (Nat × Nat)) (k : Nat) : Nat := (m.lookup k).getD 0

/-! ## Reading the parts of State -/

abbrev State.part (s : State) (p : Nat) : Part := s.parts.getD p {}
abbrev State.bench (s : State) (b : Nat) : Bench := s.benches.getD b {}
abbrev Bench.core (x : Bench) (c : Nat) : Core := x.cores.getD c {}
abbrev State.core (s : State) (b c : Nat) : Core := (s.bench b).core c
abbrev Core.queue (k : Core) (q : Nat) : Queue := k.queues.getD q {}
abbrev State.queue (s : State) (b c q : Nat) : Queue := (s.core b c).queue q
abbrev State.fn (s : State) (f : Nat) : Aivia := s.fns.getD f {}
abbrev State.session (s : State) (i : Nat) : Session := s.sessions.getD i {}
abbrev Core.slot (k : Core) (i : Nat) : Slot := k.dma.slots.getD i {}
abbrev Core.array (k : Core) (a : Nat) : ArraySt := k.mx.arrays.getD a {}

/-! ## Changing the parts of State -/

def State.modPart (s : State) (p : Nat) (f : Part → Part) : State := { s with parts := s.parts.modify p f }
def State.modBench (s : State) (b : Nat) (f : Bench → Bench) : State := { s with benches := s.benches.modify b f }
def Bench.modCore (x : Bench) (c : Nat) (f : Core → Core) : Bench := { x with cores := x.cores.modify c f }
def State.modCore (s : State) (b c : Nat) (f : Core → Core) : State := s.modBench b fun x => x.modCore c f
def Core.modQueue (k : Core) (q : Nat) (f : Queue → Queue) : Core := { k with queues := k.queues.modify q f }
def State.modQueue (s : State) (b c q : Nat) (f : Queue → Queue) : State := s.modCore b c fun k => k.modQueue q f
def Core.modDma (k : Core) (f : Dma → Dma) : Core := { k with dma := f k.dma }
def Core.modSlot (k : Core) (i : Nat) (f : Slot → Slot) : Core := k.modDma fun d => { d with slots := d.slots.modify i f }
def State.modSlot (s : State) (b c i : Nat) (f : Slot → Slot) : State := s.modCore b c fun k => k.modSlot i f
def Core.modMx (k : Core) (f : Mx → Mx) : Core := { k with mx := f k.mx }
def Core.modArray (k : Core) (a : Nat) (f : ArraySt → ArraySt) : Core :=
  k.modMx fun m => { m with arrays := m.arrays.modify a f }
def State.modFn (s : State) (f : Nat) (g : Aivia → Aivia) : State := { s with fns := s.fns.modify f g }
def State.modSession (s : State) (i : Nat) (g : Session → Session) : State := { s with sessions := s.sessions.modify i g }
def State.modBeat (s : State) (f : Beat → Beat) : State := { s with beat := f s.beat }
def State.modIrq (s : State) (f : Irq → Irq) : State := { s with irq := f s.irq }
def State.modRing (s : State) (f : Ring → Ring) : State := { s with ring := f s.ring }
def State.modLdg (s : State) (f : Ledger → Ledger) : State := { s with ldg := f s.ldg }
def State.modGlue (s : State) (f : Glue → Glue) : State := { s with glue := f s.glue }
def State.modGpio (s : State) (f : Gpio → Gpio) : State := { s with gpio := f s.gpio }
def State.modMgmt (s : State) (f : Mgmt → Mgmt) : State := { s with mgmt := f s.mgmt }
def State.modGlb (s : State) (f : Glb → Glb) : State := { s with glb := f s.glb }

/-- The device sends something to the outside. -/
def State.emit (s : State) (o : Output) : State := { s with out := o :: s.out }

/-- The next free value (log entry 3) and the state with the counter moved on. -/
def State.fresh (s : State) : Nat × State := (Config.freeNat s.freeCtr, { s with freeCtr := s.freeCtr + 1 })

/-- The device is powered and its firmware runs: BAR0 is served (R766, R720, R802). -/
def State.running (s : State) : Bool := s.life != .off && s.life != .tripped && s.life != .noFirmware

/-! ## Grade (R2, R3, R99, R140) and time (R21) -/

def State.isC (s : State) : Bool := s.fuses.grade = .C
/-- Physical benches and seats of the grade. -/
def State.nSeats (s : State) : Nat := if s.isC then 9 else 13
/-- Partitions of the grade. -/
def State.nParts (s : State) : Nat := if s.isC then 4 else 6
/-- Installed HBM in GiB. -/
def State.hbmGiB (s : State) : Nat := if s.isC then 144 else 288
def gib : Nat := 2 ^ 30

/-- Core cycles per beat in force. -/
abbrev State.m (s : State) : Nat := s.beat.mActive
/-- The running core cycle: beat periods × M + cc. -/
def State.now (s : State) : Nat := s.beat.periods * s.beat.mActive + s.beat.cc

/-! ## Arcs (R134, R208) -/

/-- The seats of a partition's arc, clockwise. -/
def State.arcSeats (s : State) (p : Nat) : List Nat :=
  (List.range (s.part p).seats).map fun i => ((s.part p).first + i) % s.nSeats
/-- The bench in a seat. -/
def State.seatBench (s : State) (k : Nat) : Nat := s.ring.seatMap.getD k 0xF
/-- The benches of a partition's arc, clockwise from FIRST_SEAT. -/
def State.arcBenches (s : State) (p : Nat) : List Nat := (s.arcSeats p).map s.seatBench
/-- The ACTIVE benches of the arc: logical bench k is the k-th (R208). -/
def State.activeBenches (s : State) (p : Nat) : List Nat := (s.arcBenches p).filter fun b => (s.bench b).state = .active
/-- Bypassed seats b of the arc. -/
def State.bypassedCount (s : State) (p : Nat) : Nat := ((s.arcBenches p).filter fun b => (s.bench b).state = .bypassed).length
/-- Seats of the logical slots: while a program is loaded, those it was loaded on (R208, R587, R602). -/
def State.slotSeatsOf (s : State) (p : Nat) : List Nat :=
  if (s.part p).slotSeats = [] then (s.arcSeats p).filter fun k => (s.bench (s.seatBench k)).state = .active
  else (s.part p).slotSeats
/-- The slot that does a logical slot's work: its adopter, or itself (R599). -/
def Part.worker (x : Part) (k : Nat) : Nat := (x.adopted.lookup k).getD k
/-- The physical bench that holds a logical slot, its adopter's while it is adopted. -/
def State.slotBench (s : State) (p k : Nat) : Nat :=
  s.seatBench ((s.slotSeatsOf p).getD ((s.part p).worker k) 0xF)
/-- The seat of a bench. -/
def State.benchSeat (s : State) (b : Nat) : Nat := s.ring.seatMap.idxOf b
/-- The own logical slot of a bench. -/
def State.ownSlot (s : State) (p b : Nat) : Nat := (s.slotSeatsOf p).idxOf (s.benchSeat b)
/-- The logical slot for which a context of a bench works: the adopted slot for contexts 4 to 7 of an adopter (R599). -/
def State.slotOf (s : State) (p b ctx : Nat) : Nat :=
  let own := s.ownSlot p b
  if 4 ≤ ctx then (((s.part p).adopted.find? fun a => a.2 = own).map (·.1)).getD own else own
/-- The context works for an adopted slot. -/
def State.adoptedCtx (s : State) (p b ctx : Nat) : Bool :=
  decide (4 ≤ ctx) && (s.part p).adopted.any fun a => a.2 = s.ownSlot p b
/-- The partition whose arc holds a bench (R810). -/
def State.benchPart (s : State) (b : Nat) : Option Nat :=
  (List.range 6).find? fun p => (s.part p).valid && (s.arcBenches p).contains b

/-! ## Completions (R654, R661) -/

/-- A completion joins the function's completions that wait to be written; one of a packet admitted before a reset of the function
is discarded (R626, R642). -/
def State.post (s : State) (c : Compl) : State :=
  s.modFn c.id.f fun a => if a.epoch = c.id.epoch then { a with compl := a.compl ++ [c] } else a

/-- The completion of an admitted packet: status, detail and results (R661). -/
def State.finish (s : State) (id : PktId) (part status detail : Nat) (r0 r1 : Nat := 0) (r2 : Nat := 0) : State :=
  s.post { id := id, part := part, status := status, detail := detail, r0 := BitVec.ofNat 64 r0,
           r1 := BitVec.ofNat 64 r1, r2 := BitVec.ofNat 32 r2 }

/-! ## Runs -/

/-- A task is in progress; the clamp at the end of a run belongs to it (R817). -/
def Part.hasTask (x : Part) : Bool := x.task.isSome || (match x.stop with
  | .clamp _ => true
  | _ => false)
/-- A partition is at the copies of a clamp, or waits to be. -/
def Part.clamping (x : Part) : Bool := match x.stop with
  | .clamp _ => true
  | _ => false
/-- A start-count launch is pending. -/
def Part.hasLaunch (x : Part) : Bool := x.launch.isSome
/-- A scheduled run is in progress on the partition. -/
def Part.scheduledRun (x : Part) : Bool := match x.task with
  | some t => !t.credit
  | none => false

end Sys2Proof.Machine
end

