-- ==== Sys2Proof/Machine/Hash.lean ====
section
/-! DEFINITION. The digests the manual names: SHA-256 (R209, R480, R486), CRC-32C (R205, R506) and the split digest's CRC-64
(R478). SHA-256 and CRC-32C are the public algorithms of those names (PRESUMED, log entry 14). -/

namespace Sys2Proof.Machine

/-! ## SHA-256 -/

/-- The first n primes above those given, newest first. -/
def morePrimes : Nat → Nat → List Nat → List Nat
  | 0, _, ps => ps
  | n + 1, x, ps => morePrimes n (x + 1) (if ps.all fun p => x % p != 0 then x :: ps else ps)

/-- The 64 primes up to 311. -/
def primes64 : List Nat := (morePrimes 310 2 []).reverse

/-- The k-th root of v rounded down, below 2^40, bit by bit from the top. -/
def rootOf (k v : Nat) : Nat :=
  (List.range 40).foldl (fun r i => let y := r + 2 ^ (39 - i); if y ^ k ≤ v then y else r) 0

/-- The first 32 bits of the fraction of the k-th root of a prime. -/
def rootBits (k p : Nat) : W32 := BitVec.ofNat 32 (rootOf k (p * 2 ^ (32 * k)))

/-- The 64 round constants: from the cube roots of the first 64 primes. -/
def sha256K : List W32 := primes64.map (rootBits 3)

/-- The starting value: from the square roots of the first eight primes. -/
def sha256H0 : List W32 := (primes64.take 8).map (rootBits 2)

/-- A word added modulo 2 to itself rotated: at three places in a round, at two beside a shift in the message schedule. -/
def shaSpread (x : W32) (i j k : Nat) : W32 := x.rotateRight i ^^^ x.rotateRight j ^^^ x.rotateRight k
def shaSmear (x : W32) (i j k : Nat) : W32 := (x >>> k) ^^^ x.rotateRight i ^^^ x.rotateRight j

/-- The next word of the message schedule; the schedule is kept newest first. -/
def shaNextWord (w : List W32) : W32 :=
  shaSmear (w.getD 1 0) 17 19 10 + w.getD 6 0 + shaSmear (w.getD 14 0) 7 18 3 + w.getD 15 0

/-- n further words of the message schedule. -/
def shaExtend (n : Nat) (w : List W32) : List W32 := Nat.repeat (fun w => shaNextWord w :: w) n w

/-- One round on the eight working words: each moves one place on, the fourth takes the feed as it goes. -/
def shaRound (v : List W32) (kw : W32) : List W32 :=
  let r (i : Nat) := v.getD i 0
  let choice := r 6 ^^^ (r 4 &&& (r 5 ^^^ r 6))
  let majority := (r 0 &&& r 1) ||| (r 2 &&& (r 0 ||| r 1))
  let feed := choice + kw + shaSpread (r 4) 6 11 25 + r 7
  (majority + feed + shaSpread (r 0) 2 13 22) :: (v.take 7).modify 3 (· + feed)

/-- A big-endian word of four bytes. -/
def beWord (bs : Bytes) : W32 := BitVec.ofNat 32 (leNat bs.reverse)

/-- Up to n chunks of k bytes. -/
def chunks (k : Nat) : Nat → Bytes → List Bytes
  | 0, _ => []
  | n + 1, bs => if bs.isEmpty then [] else bs.take k :: chunks k n (bs.drop k)

/-- One 64-byte block. -/
def shaBlock (h : List W32) (blk : Bytes) : List W32 :=
  let w := (shaExtend 48 ((chunks 4 16 blk).map beWord).reverse).reverse
  let v := (List.zipWith (· + ·) sha256K w).foldl shaRound h
  List.zipWith (· + ·) h v

/-- The padded message. -/
def shaPad (bs : Bytes) : Bytes :=
  let n := bs.length
  let z := (119 - n % 64) % 64
  bs ++ [0x80#8] ++ List.replicate z 0 ++ (leBytes 8 (8 * n)).reverse

/-- SHA-256, 32 bytes. -/
def sha256 (bs : Bytes) : Bytes :=
  let p := shaPad bs
  ((chunks 64 (p.length / 64) p).foldl shaBlock sha256H0).flatMap fun w => (leBytes 4 w.toNat).reverse

/-! ## CRC-32C -/

/-- One bit of the reflected CRC. -/
def crc32cBit (c : W32) : W32 := if c.getLsbD 0 then (c >>> 1) ^^^ 0x82F63B78#32 else c >>> 1

/-- A byte. -/
def crc32cByte (c : W32) (b : Byte) : W32 := Nat.repeat crc32cBit 8 (c ^^^ b.zeroExtend 32)

/-- CRC-32C of a byte string. -/
def crc32c (bs : Bytes) : W32 := ~~~(bs.foldl crc32cByte 0xFFFFFFFF#32)

/-! ## CRC-64 (R478) -/

/-- One bit, most significant first. -/
def crc64Bit (c : W64) : W64 := if c.getLsbD 63 then (c <<< 1) ^^^ 0x42F0E1EBA9EA3693#64 else c <<< 1

/-- A byte. -/
def crc64Byte (c : W64) (b : Byte) : W64 := Nat.repeat crc64Bit 8 (c ^^^ (b.zeroExtend 64 <<< 56))

/-- The CRC of further bytes. -/
def crc64 (c : W64) (bs : Bytes) : W64 := bs.foldl crc64Byte c

end Sys2Proof.Machine
end

