-- ==== Sys2Proof/Machine/Flags.lean ====
section
/-! DEFINITION. Event and fault registers and the interrupt tree (16_interrupts.md): leaves, causes, the pending condition, and
the messages that follow a change of it. -/

namespace Sys2Proof.Machine

/-- A bit set in a 32-bit event register. -/
def setBit (w : W32) (n : Nat) : W32 := w ||| (1#32 <<< n)
/-- A bit cleared in a 32-bit register. -/
def clrBit (w : W32) (n : Nat) : W32 := w &&& ~~~(1#32 <<< n)
/-- A bit set under a condition. -/
def setBitIf (c : Bool) (w : W32) (n : Nat) : W32 := if c then setBit w n else w
/-- W1C: written ones clear the bits of the mask (R8), but for those that hardware has set in the running cycle (R10). -/
def w1c (w mask v hw : W32) : W32 := w &&& ~~~(v &&& mask &&& ~~~hw)
/-- A field of n bits at position lo. -/
def field (v lo n : Nat) : Nat := v % 2 ^ n * 2 ^ lo

/-! ## Event bits -/

/-- Numbers of the registers with W1C bits: the leaves have their numbers of R678, and others lie above them. -/
def benchKey (b j : Nat) : Nat := 16 + 16 * b + j
def queueKey (b c q : Nat) : Nat := 256 + 80 * b + 40 * c + q
def aiviaKey (f : Nat) : Nat := 2048 + f
def hurdleKey (p : Nat) : Nat := 2064 + p

/-- Bits of a register that hardware has set in the running core cycle (R10). -/
def State.raisedIn (s : State) (key : Nat) : W32 := (s.raised.lookup key).getD 0
/-- Hardware sets bit n of a register in the running cycle. No cycle runs before the first lock. -/
def State.raise (s : State) (key n : Nat) : State :=
  if s.beat.started then { s with raised := (key, setBit (s.raisedIn key) n) :: s.raised.filter fun e => e.1 != key } else s

def State.beatEvent (s : State) (n : Nat) : State := (s.modBeat fun b => { b with events := setBit b.events n }).raise 0 n
def State.ringEvent (s : State) (n : Nat) : State := (s.modRing fun r => { r with event := setBit r.event n }).raise 1 n
def State.ldgEvent (s : State) (n : Nat) : State := (s.modLdg fun l => { l with event := setBit l.event n }).raise 6 n
def State.ckpEvent (s : State) (p n : Nat) : State :=
  (s.modPart p fun x => { x with ckp := { x.ckp with event := setBit x.ckp.event n } }).raise (7 + p) n
def State.glueEvent (s : State) (n : Nat) : State := (s.modGlue fun g => { g with event := setBit g.event n }).raise 3 n
def State.mgmtEvent (s : State) (n : Nat) : State := (s.modMgmt fun m => { m with event := setBit m.event n }).raise 5 n
def State.spdEvent (s : State) (b n : Nat) : State :=
  (s.modBench b fun x => { x with spd := { x.spd with status := setBit x.spd.status n } }).raise (benchKey b 0) n

/-- GLUE_EVENT.WRITE_LOCKED, and the capture at the first since it was last clear (R727). -/
def State.writeLocked (s : State) (off fn : Nat) : State :=
  (s.modGlue fun g => if g.event.getLsbD 0 then g else { g with lockOffset := off, lockFn := fn }).glueEvent 0

/-! ## Leaves (R678, R680) -/

/-- IRQ_VF_AIVIA_FAULT (R692). -/
def State.vfFaults (s : State) : W32 :=
  BitVec.ofNat 32 ((List.range 6).foldl (fun acc p =>
    acc + (if (s.fn (p + 1)).badDoorbell || (s.fn (p + 1)).fetchFault then 2 ^ p else 0)) 0)

/-- Global leaf i, its listed bits. -/
def State.globalLeaf (s : State) (i : Nat) : W32 :=
  if i = 0 then s.beat.events &&& 0xF00#32
  else if i = 1 then s.ring.event &&& 0x3F#32
  else if i = 2 then s.glb.disStatus &&& 0x3#32
  else if i = 3 then s.glue.event &&& 0x7#32
  else if i = 4 then s.gpio.intStatus
  else if i = 5 then s.mgmt.event &&& 0x7#32
  else if i = 6 then s.ldg.event &&& 0x7F#32
  else if i < 13 then (s.part (i - 7)).ckp.event &&& 0x3F#32
  else if i = 13 then BitVec.ofNat 32 (natOfBool s.irq.pfCompletion)
  else if i = 14 then BitVec.ofNat 32 (2 * natOfBool (s.fn 0).badDoorbell + 8 * natOfBool (s.fn 0).fetchFault)
  else if i = 15 then s.vfFaults
  else 0

/-- HRD_FAULT as the window of a bench shows it (R678). -/
def State.hrdFaultOf (s : State) (b : Nat) : W32 :=
  match s.benchPart b with
  | some p => (s.part p).hrdFault
  | none => 0

/-- Leaf j of bench b, its listed bits; never set for a bench that the grade lacks. -/
def State.benchLeaf (s : State) (b j : Nat) : W32 :=
  if s.nSeats ≤ b then 0
  else if j = 0 then (s.bench b).spd.status &&& 0x3F#32
  else if j < 3 then (s.core b (j - 1)).dma.fault &&& 0x3#32
  else if j < 5 then (s.core b (j - 3)).tlyFault &&& 0x1#32
  else if j = 5 then s.hrdFaultOf b &&& 0x3#32
  else if j < 8 then (s.core b (j - 6)).plb.fault &&& 0x1#32
  else if j < 10 then (s.core b (j - 8)).arithFault &&& 0x7#32
  else if j < 12 then (s.core b (j - 10)).mx.fault &&& 0x1#32
  else 0

/-- IRQ_LEAF_ENABLE_LEAFi. -/
def State.leafEnableOf (s : State) (i : Nat) : W32 := (s.irq.leafEnable.lookup i).getD 0xFFFFFFFF#32

/-- A leaf is active (R680). -/
def State.leafActive (s : State) (i : Nat) (leaf : W32) : Bool := leaf &&& s.leafEnableOf i != 0

/-- IRQ_BENCH_CAUSE_BENCHk (R681). -/
def State.benchCause (s : State) (b : Nat) : W32 :=
  BitVec.ofNat 32 ((List.range 12).foldl (fun acc j =>
    acc + (if s.leafActive (16 + 16 * b + j) (s.benchLeaf b j) then 2 ^ j else 0)) 0)

/-- IRQ_SUMMARY (R681). -/
def State.summary (s : State) : W32 :=
  BitVec.ofNat 32 ((List.range 16).foldl (fun acc i =>
      acc + (if s.leafActive i (s.globalLeaf i) then 2 ^ i else 0)) 0 +
    (List.range 13).foldl (fun acc b =>
      acc + (if s.benchCause b &&& s.irq.benchEnable.getD b 0 != 0 then 2 ^ (16 + b) else 0)) 0)

/-- The package interrupt is pending (R682). -/
def State.irqPending (s : State) : Bool := s.summary &&& s.irq.summaryEnable != 0

/-! ## Messages -/

/-- The physical function's vector sends a message, or sets its Pending Bit (R686, R687). -/
def State.pfMessage (s : State) : State :=
  if s.irq.msixEnabled then s.emit (.msix 0) else s.modIrq fun i => { i with msixPending := true }

/-- Virtual functions whose BAD_DOORBELL or FETCH_FAULT rose (R691). -/
def vfRaised (before after : State) : List Nat :=
  (List.range 6).filterMap fun p =>
    let a := before.fn (p + 1)
    let b := after.fn (p + 1)
    if (!a.badDoorbell && b.badDoorbell) || (!a.fetchFault && b.fetchFault) then some (p + 1) else none

/-- What every command does last: the messages that its causes require (R684, R686, R688, R691). -/
def settle (before after : State) : State :=
  let s := (vfRaised before after).foldl (fun s f => s.emit (.msix f)) after
  if after.irqPending && !before.irqPending then s.pfMessage else s

/-- The outcome of a command whose effect is f: the next state. -/
def done (s : State) (f : State → State) : Host.Outcome State Fault Refusal := .next (settle s (f s))

end Sys2Proof.Machine
end

