-- ==== Sys2Proof/Machine/Lx16.lean ====
section
/-! DEFINITION. LX16 arithmetic (05_lx16_arithmetic.md R215 to R241): mantissas, the exact accumulator, the one rounding point,
function tables and the lane results of the vector engine. -/

namespace Sys2Proof.Machine

/-- The signed 16-bit mantissas of a byte string (R215, R216). -/
def lx16 : Bytes → List Int
  | a :: b :: bs => signedOf (a.toNat + 256 * b.toNat) 16 :: lx16 bs
  | _ => []

/-- The bytes of LX16 mantissas. -/
def lx16Bytes (vs : List Int) : Bytes := vs.flatMap fun v => leBytes 2 (v % 65536).toNat

/-- The accumulator words of LA64 bytes, as two's complement (R224). -/
def la64 : Nat → Bytes → List Int
  | 0, _ => []
  | n + 1, bs => signedOf (leNat (bs.take 8)) 64 :: la64 n (bs.drop 8)

/-- The accumulator of an exact sum: modulo 2^64, two's complement (R222). -/
def accOf (v : Int) : Int := signedOf (v % 18446744073709551616).toNat 64

/-- LA64 words as bytes (R224). -/
def la64Bytes (vs : List Int) : Bytes := vs.flatMap fun v => leBytes 8 (v % 18446744073709551616).toNat

/-- An exponent field is in range (R217, R218). -/
def expOk (e : Int) : Bool := decide (-64 ≤ e) && decide (e ≤ 63)

/-- The signed 8-bit exponent of a field. -/
def expOf (v : Nat) : Int := signedOf v 8

/-- Rounding half to even of acc / 2^s (R226). -/
def roundShift (acc s : Int) : Int :=
  if s ≤ 0 then acc * (2 ^ (-s).toNat : Nat)
  else
    let d : Int := (2 ^ s.toNat : Nat)
    let q := acc / d
    let r := acc - q * d
    let half : Int := (2 ^ (s.toNat - 1) : Nat)
    if r > half || (r = half && q % 2 = 1) then q + 1 else q

/-- Requantisation, with the count of saturated elements (R226, R229). -/
def requantise (acc s : Int) : Int × Nat :=
  let v := roundShift acc s
  if v > 32767 then (32767, 1) else if v < -32768 then (-32768, 1) else (v, 0)

/-- Requantised elements and their saturations. -/
def requantAll (accs : List Int) (s : Int) : List Int × Nat :=
  let rs := accs.map fun a => requantise a s
  (rs.map (·.1), (rs.map (·.2)).sum)

/-! ## Function tables (R233 to R237) -/

/-- A table slot holds a well-formed table (R237). -/
def tableOk (t : Bytes) : Bool :=
  Bytes.nat t 0 2 = 0x4654 && Bytes.nat t 6 2 = 257 && expOk (expOf (Bytes.nat t 3 1)) && expOk (expOf (Bytes.nat t 4 1))

/-- E_IN and E_TAB. -/
def tableEIn (t : Bytes) : Int := expOf (Bytes.nat t 3 1)
def tableETab (t : Bytes) : Int := expOf (Bytes.nat t 4 1)

/-- Knot i. -/
def knot (t : Bytes) (i : Nat) : Int := signedOf (Bytes.nat t (0x10 + 4 * i) 4) 32

/-- table_eval of R236. -/
def tableEval (x : Int) (t : Bytes) (eOut : Int) : Int × Nat :=
  let u := (x + 32768).toNat
  let i := u / 256
  let f := u % 256
  let acc := knot t i * (256 - f : Int) + knot t (i + 1) * f
  requantise acc (eOut - (tableETab t - 8))

/-! ## Lanes of the vector engine (R240) -/

/-- The aligned operands of VADD, VSUB, VMAX and VMIN. -/
def alignTo (e em : Int) (v : Int) : Int := v * (2 ^ (e - em).toNat : Nat)

/-- The exact value of one lane of a two-operand opcode, and its exponent. -/
def laneAcc (op : Nat) (e1 e2 a b : Int) : Int :=
  let em := min e1 e2
  let x := alignTo e1 em a
  let y := alignTo e2 em b
  if op = 0x40 then x + y
  else if op = 0x41 then x - y
  else if op = 0x42 then a * b
  else if op = 0x43 then max x y
  else min x y

/-- The accumulator exponent of a two-operand opcode. -/
def laneExp (op : Nat) (e1 e2 : Int) : Int := if op = 0x42 then e1 + e2 else min e1 e2

/-- One row of a two-operand opcode. -/
def rowBinary (op : Nat) (e1 e2 eo : Int) (a b : List Int) : List Int × Nat :=
  requantAll (List.zipWith (laneAcc op e1 e2) a b) (eo - laneExp op e1 e2)

/-- The dot product of weights and inputs, exact (R219, R222). -/
def dot (ws xs : List Int) : Int := (List.zipWith (· * ·) ws xs).foldl (· + ·) 0

end Sys2Proof.Machine
end

