-- ==== Sys2Proof/Machine/Operands.lean ====
section
/-! DEFINITION. The command entry and its queue: the layout of R174, the opcodes of R175 (with R240, R284, R359, R455), the list
in the HBM share (R196, R201) and the head entry of a queue. -/

namespace Sys2Proof.Machine

/-- The 32 bytes of an entry as fields (R174). -/
def Cmd.ofBytes (e : Bytes) : Cmd :=
  let w0 := Bytes.nat e 0 4
  let w2 := Bytes.nat e 8 4
  let w3 := Bytes.nat e 12 4
  let w4 := Bytes.nat e 16 4
  { opcode := bitsOf w0 7 0, engine := bitsOf w0 10 8, stepEnd := bitOf w0 11, stealOk := bitOf w0 12
    issueCc := bitsOf w0 22 16, issueBeat := Bytes.nat e 4 4
    waitTally := bitsOf w2 12 0, waitEn := bitOf w2 13, waitValue := bitsOf w2 31 16
    sigTally := bitsOf w3 12 0, sigEn := bitOf w3 13, sigDelta := bitsOf w3 31 16
    hurdle := bitsOf w4 7 0, hurdleEn := bitOf w4 8, creditLink := bitsOf w4 11 9, creditCount := bitsOf w4 31 16
    reserved := bitsOf w0 15 13 != 0 || bitsOf w0 31 23 != 0 || bitsOf w2 15 14 != 0 || bitsOf w3 15 14 != 0 ||
      bitsOf w4 15 12 != 0
    opA := BitVec.ofNat 32 (Bytes.nat e 20 4), opB := BitVec.ofNat 64 (Bytes.nat e 24 8) }

/-- Opcodes that an engine has (R175, R240, R284, R359, R455). -/
def opcodeValid (engine op : Nat) : Bool :=
  op ≤ 2 || match engine with
    | 0 => 0x10 ≤ op && op ≤ 0x13
    | 1 => 0x40 ≤ op && op ≤ 0x47
    | 2 => 0x80 ≤ op && op ≤ 0x82
    | 3 => 0xA0 ≤ op && op ≤ 0xA4
    | 4 => 0xC0 ≤ op && op ≤ 0xC2
    | _ => false

/-- The entry may be executed by the queue's engine (R204). -/
def Cmd.valid (c : Cmd) (q : Nat) : Bool := c.engine = q % 5 && opcodeValid c.engine c.opcode

/-- Bits [hi:lo] of OPERAND_A or OPERAND_B. -/
def Cmd.a (c : Cmd) (hi lo : Nat) : Nat := bitsOf c.opA.toNat hi lo
def Cmd.b (c : Cmd) (hi lo : Nat) : Nat := bitsOf c.opB.toNat hi lo

/-! ## Operand fields of the vector and rail engines (R239) -/

def Cmd.eSrc1 (c : Cmd) : Int := expOf (c.a 7 0)
def Cmd.eSrc2 (c : Cmd) : Int := expOf (c.a 15 8)
def Cmd.eOut (c : Cmd) : Int := expOf (c.a 23 16)
def Cmd.table (c : Cmd) : Nat := c.a 28 24
def Cmd.src1 (c : Cmd) : Nat := c.b 13 0
def Cmd.src2 (c : Cmd) : Nat := c.b 27 14
def Cmd.dst (c : Cmd) : Nat := c.b 41 28
def Cmd.vlen (c : Cmd) : Nat := c.b 57 42
def Cmd.weights (c : Cmd) : Nat := c.b 63 58 * 1048576

/-- Input elements of a rail product (log entry 7). -/
def Cmd.railIn (c : Cmd) : Nat := Config.railInputLength c.opA.toNat c.opB.toNat

/-- Rows of a store range that the opcode reads at SRC1 and SRC2 and writes at DST (R238, R240, R824). -/
def Cmd.vecRows (c : Cmd) : Nat × Nat × Nat :=
  let n := c.vlen
  if c.opcode ≤ 0x44 then (n, n, n)
  else if c.opcode = 0x45 then (n, 0, n)
  else if c.opcode = 0x46 then (n, 0, 4)
  else if c.opcode = 0x47 then (4 * n, 0, n)
  else
    let i := ceilDiv (2 * c.railIn) 4096
    if c.opcode = 0x80 then (i, n, n) else if c.opcode = 0x81 then (i, n, 4 * n) else (i, 0, 4 * n)

/-- Exponent fields that the opcode uses (R240). -/
def Cmd.vecExps (c : Cmd) : List Int :=
  if c.opcode ≤ 0x44 || c.opcode = 0x80 then [c.eSrc1, c.eSrc2, c.eOut]
  else if c.opcode = 0x45 || c.opcode = 0x47 then [c.eSrc1, c.eOut]
  else if c.opcode = 0x81 then [c.eSrc1, c.eSrc2]
  else [c.eSrc1]

/-- A rail command. -/
def Cmd.isRail (c : Cmd) : Bool := 0x80 ≤ c.opcode

/-! ## Operand fields of the matrix arrays (R285) -/

def Cmd.eW (c : Cmd) : Int := expOf (c.a 7 0)
def Cmd.eB (c : Cmd) : Int := expOf (c.a 15 8)
def Cmd.array (c : Cmd) : Nat := c.a 17 16
def Cmd.transpose (c : Cmd) : Bool := c.a 18 18 = 1
def Cmd.biasLoad (c : Cmd) : Bool := c.a 19 19 = 1
def Cmd.tile (c : Cmd) : Nat := c.b 10 0
def Cmd.biasSrc (c : Cmd) : Nat := c.b 28 11
def Cmd.kValid (c : Cmd) : Nat := c.b 36 29
def Cmd.nValid (c : Cmd) : Nat := c.b 44 37
def Cmd.eX (c : Cmd) : Int := expOf (c.a 7 0)
def Cmd.eOutM (c : Cmd) : Int := expOf (c.a 15 8)
def Cmd.mask (c : Cmd) : Nat := c.a 19 16
def Cmd.accMode (c : Cmd) : Nat := c.a 21 20
def Cmd.outLa64 (c : Cmd) : Bool := c.a 22 22 = 1
def Cmd.biasEn (c : Cmd) : Bool := c.a 23 23 = 1
def Cmd.feed (c : Cmd) : Nat := c.a 25 24
def Cmd.conv (c : Cmd) : Bool := c.opcode = 0x12
def Cmd.srcM (c : Cmd) : Nat := c.b 17 0
def Cmd.dstM (c : Cmd) : Nat := if c.conv then c.b 17 0 else c.b 35 18
def Cmd.rowsM (c : Cmd) : Nat := if c.conv then c.b 27 18 else c.b 45 36
def Cmd.accBase (c : Cmd) : Nat := if c.conv then c.b 63 55 else c.b 54 46
def Cmd.kpos (c : Cmd) : Nat := c.b 34 28
def Cmd.startPos (c : Cmd) : Nat := c.b 54 37
def Cmd.desc (c : Cmd) : Nat := c.b 17 0
/-- Arrays that a matrix command names. -/
def Cmd.arrays (c : Cmd) : List Nat :=
  if c.opcode = 0x10 then [c.a 17 16]
  else if c.opcode = 0x11 || c.opcode = 0x12 then (List.range 4).filter fun i => bitOf (c.a 19 16) i
  else []

/-- The generator slot of an MCONV or MGEN. -/
def Cmd.genSlot (c : Cmd) : Nat := if c.opcode = 0x12 then c.b 36 35 else c.a 1 0
/-- Fed from the feeder queue. -/
def Cmd.queueFed (c : Cmd) : Bool := c.opcode = 0x11 && c.feed = 1
/-- Units of the activation store (R285). -/
def actUnits : Nat := 196608

/-! ## Generators (R280, R281) -/

structure Gen where
  base : Nat
  inH : Nat
  inW : Nat
  outH : Nat
  outW : Nat
  pitch : Nat
  strideH : Nat
  strideW : Nat
  dilH : Nat
  dilW : Nat
  padTop : Nat
  padLeft : Nat
  kerH : Nat
  kerW : Nat
  deriving DecidableEq, Repr

/-- The fields of a generator descriptor. -/
def genOf (d : Bytes) : Gen :=
  { base := Bytes.nat d 0 4 % 2 ^ 18, inH := Bytes.nat d 4 2, inW := Bytes.nat d 6 2, outH := Bytes.nat d 8 2
    outW := Bytes.nat d 10 2, pitch := Bytes.nat d 12 2, strideH := Bytes.nat d 14 1, strideW := Bytes.nat d 15 1
    dilH := Bytes.nat d 16 1, dilW := Bytes.nat d 17 1, padTop := Bytes.nat d 18 1, padLeft := Bytes.nat d 19 1
    kerH := Bytes.nat d 20 1, kerW := Bytes.nat d 21 1 }

/-- Every field is in its range. -/
def Gen.ok (g : Gen) : Bool :=
  [g.inH, g.inW, g.outH, g.outW, g.pitch, g.strideH, g.strideW, g.dilH, g.dilW].all (fun v => decide (1 ≤ v)) &&
    decide (1 ≤ g.kerH * g.kerW) && decide (g.kerH * g.kerW ≤ 128)

/-- The unit that gather_row reads, or none for a zero row. -/
def Gen.unitAt (g : Gen) (pos kpos : Nat) : Option Nat :=
  let oh := pos / g.outW
  let ow := pos - oh * g.outW
  let kh := kpos / g.kerW
  let kw := kpos - kh * g.kerW
  let ih : Int := (oh * g.strideH + kh * g.dilH : Nat) - (g.padTop : Int)
  let iw : Int := (ow * g.strideW + kw * g.dilW : Nat) - (g.padLeft : Int)
  if ih < 0 || (g.inH : Int) ≤ ih || iw < 0 || (g.inW : Int) ≤ iw then none
  else some (g.base + (ih.toNat * g.inW + iw.toNat) * g.pitch)

/-- The units of an MCONV's rows. -/
def Gen.rows (g : Gen) (cmd : Cmd) : List (Option Nat) :=
  (List.range cmd.rowsM).map fun j => g.unitAt (cmd.startPos + j) cmd.kpos

/-! ## Queues (R201) -/

/-- Entries of the list. -/
def Queue.size (x : Queue) : Nat := 2 ^ x.log2
/-- Entries between HEAD and TAIL. -/
def Queue.occupancy (x : Queue) : Nat := (x.tail + 2 * x.size - x.head % (2 * x.size)) % (2 * x.size)
/-- An index moved on by n. -/
def Queue.after (x : Queue) (i n : Nat) : Nat := (i + n) % (2 * x.size)
/-- The queue holds commands that it may still fetch (R175: END stops the fetch until the next run). -/
def Queue.holds (x : Queue) : Bool := !x.ended && x.occupancy != 0
/-- Byte offset in the share of the entry at an index. -/
def Queue.entryOff (x : Queue) (i : Nat) : Nat := x.base.toNat + 32 * (i % x.size)

/-- First HBM byte of a partition's share. -/
def Part.hbmStart (x : Part) : Nat := x.hbmBase * gib
/-- Bytes of the share. -/
def Part.hbmBytes (x : Part) : Nat := x.hbmSize * gib

/-- Bytes of a partition's share; beyond the share they read zero. -/
def State.shareRead (s : State) (p off n : Nat) : Bytes :=
  (List.range n).map fun i =>
    if off + i < (s.part p).hbmBytes then Memory.get s.hbm ((s.part p).hbmStart + off + i) else 0
/-- Bytes written in a partition's share; what lies beyond the share is not written. -/
def State.shareWrite (s : State) (p off : Nat) (bs : Bytes) : State :=
  { s with hbm := Memory.write s.hbm ((s.part p).hbmStart + off) (bs.take ((s.part p).hbmBytes - off)) }

/-- The entry of queue q of core c of bench b at an index. -/
def State.entryAt (s : State) (p b c q i : Nat) : Cmd := Cmd.ofBytes (s.shareRead p ((s.queue b c q).entryOff i) 32)

/-- The partition that runs on a bench, and the queue's head entry where it holds one. -/
def State.headCmd (s : State) (b c q : Nat) : Option (Nat × Cmd) :=
  match s.benchPart b with
  | some p => if (s.queue b c q).holds then some (p, s.entryAt p b c q (s.queue b c q).head) else none
  | none => none

/-- Context and engine of a queue (R168). -/
def ctxOf (q : Nat) : Nat := q / 5
def engineOf (q : Nat) : Nat := q % 5

/-! ## Descriptors read from a store -/

/-- Size of the rack and of the activation store of a bench (R292). -/
def rackBytes : Nat := 67108864
def actBytes : Nat := 50331648

/-- Bytes of a bench's activation store. -/
def State.actRead (s : State) (b a n : Nat) : Bytes := Memory.read (s.bench b).act a n
/-- Bytes of a bench's rack. -/
def State.rackRead (s : State) (b a n : Nat) : Bytes := Memory.read (s.bench b).rack a n

/-- The downgrade bit of an event of a run (R463). -/
def Task.mark (t : Task) (bit : Nat) : Task := { t with mask := if bitOf t.mask bit then t.mask else t.mask + 2 ^ bit }

/-- A downgrade bit set in the partition's run, shown in PART_RUN_CLASS. -/
def State.mark (s : State) (p bit : Nat) : State :=
  s.modPart p fun x => match x.task with
    | some t => { x with task := some (t.mark bit), classBT := false, mask := (t.mark bit).mask }
    | none => x

end Sys2Proof.Machine
end

