-- ==== Sys2Proof/Machine/Stage.lean ====
section
/-! DEFINITION. The ledger's state, its stage and its entries (12_nderil_ledger.md R484 to R502, R511, R536, R544): what is staged,
discarded or held, and the bytes of every entry. -/

namespace Sys2Proof.Machine

/-! ## Ledger state (R536) -/

/-- The anchor in force: the copy with the higher generation. -/
def Ledger.anchor (l : Ledger) : Option Anchor :=
  match l.anchors with
  | [some a, some b] => if a.gen < b.gen then some b else some a
  | [some a, _] => some a
  | [_, some b] => some b
  | _ => none

/-- Members that are not ONLINE. -/
def Ledger.down (l : Ledger) : List Nat := (List.range 10).filter fun m => l.members.getD m .online != .online

/-- Block rows other than the anchor's that hold no stripe and are not retired (R511, R512, R519). -/
def Ledger.freeRows (l : Ledger) : List Nat :=
  (List.range (l.geometry.luns * l.geometry.blocks)).filter fun r =>
    decide (2 ≤ r) && !l.retired.contains r && !l.rows.any (fun x => x.1 = r)

/-- The open row has a free page. -/
def Ledger.rowOpen (l : Ledger) : Bool := match l.curRow with
  | some r => decide (l.curPage < l.geometry.pages) && !l.retired.contains r
  | none => false

/-- The conditions of SEALED_DEGRADED. -/
def Ledger.mustSeal (l : Ledger) : Bool := decide (3 ≤ l.down.length) || decide (8192 < l.lossMap.length)

/-- LDG_STATUS.STATE (R536). -/
def Ledger.status (l : Ledger) : Nat :=
  if l.anchor.isNone then 0
  else if l.sealed then 3
  else if decide (l.freeRows.length ≤ 2) && !l.rowOpen then 4
  else if l.down.isEmpty then 1 else 2

/-- Entries are appended in NORMAL and DEGRADED. -/
def Ledger.appends (l : Ledger) : Bool := l.status = 1 || l.status = 2

/-! ## The stage (R492, R493) -/

/-- The partition has an open stream. -/
def Stream.isOpen (x : Stream) : Bool := x.id != 0 && !x.closed

/-- Entries reserved: two for each open stream and one for each admitted run. -/
def State.reservedEntries (s : State) : Nat :=
  s.ldg.reserved + 2 * (s.parts.filter fun x => x.stream.isOpen).length

/-- A run can reserve a stage entry. -/
def State.stageFree (s : State) : Bool := decide (s.ldg.stage.length + s.reservedEntries < 1024)

/-! ## Entries (R484, R486) -/

/-- An entry of 256 bytes: the common header, then the body. -/
def entryBytes (ty p stream seq : Nat) (prev body : Bytes) : Bytes :=
  Bytes.sub (leBytes 1 ty ++ leBytes 1 1 ++ leBytes 1 p ++ leBytes 1 0 ++ leBytes 4 stream ++ leBytes 8 seq ++
    Bytes.sub prev 0 32 ++ body) 0 256

/-- Grade and stepping as records code them (R487). -/
def Fuses.gradeCode (f : Fuses) : Nat := if f.grade = .A then 1 else 2
def Fuses.steppingCode (f : Fuses) : Nat := if f.stepping = .a0 then 0 else 1

/-- The stage with one more entry: behind all others, but before what a higher partition staged in the same cycle (R494). -/
def stageInsert (e : StageEnt) (xs : List StageEnt) : List StageEnt :=
  let after (y : StageEnt) : Bool := y.at_ = e.at_ && decide (e.part < y.part)
  xs.filter (fun y => !after y) ++ e :: xs.filter after

/-- An entry joins the stage: SEQ and PREV_HASH are assigned, and the stream and its bundle go on (R486, R488, R494). -/
def State.stageRaw (s : State) (p ty : Nat) (body : Bytes) : State :=
  let x := (s.part p).stream
  let e := entryBytes ty p x.id x.nextSeq (if x.nextSeq = 0 then [] else x.lastHash) body
  let ent : StageEnt :=
    { part := p, stream := x.id, seq := x.nextSeq, audit := (s.part p).audit, decision := ty = 2, bytes := e, at_ := some s.now }
  let x := if x.bundleOpen then x else
    { x with bundleOpen := true, bundleFirst := x.nextSeq, bundleBeat := s.beat.periods, decisions := 0 }
  let x := { x with nextSeq := x.nextSeq + 1, lastHash := sha256 e,
                    decisions := if ty = 2 then x.decisions + 1 else x.decisions,
                    total := if ty = 2 then x.total + 1 else x.total }
  (s.modLdg fun l => { l with stage := stageInsert ent l.stage }).modPart p fun y => { y with stream := x }

/-- A SIGNATURE entry ends the bundle (R489 to R491). -/
def State.stageSignature (s : State) (p : Nat) : State :=
  let x := (s.part p).stream
  let head := leBytes 8 x.bundleFirst ++ leBytes 8 (x.nextSeq - 1) ++ leBytes 2 x.decisions ++ List.replicate 6 0 ++
    leBytes 8 s.beat.count.toNat ++ Bytes.sub (Config.keyId s.fuses.serial) 0 8 ++ List.replicate 40 0
  let signed := (entryBytes 3 p x.id x.nextSeq x.lastHash head).take 0x80
  let sig := Config.ecdsaSign s.fuses.serial signed
  (s.stageRaw p 3 (head ++ Bytes.sub sig.1 0 32 ++ Bytes.sub sig.2 0 32)).modPart p fun y =>
    { y with stream := { y.stream with bundleOpen := false, decisions := 0 } }

/-- An entry is lost because its partition is not audit-mode and the ledger appends none (R502, R670). -/
def State.dropEntry (s : State) : State :=
  (s.modLdg fun l => { l with dropCount := satAdd32 l.dropCount 1 }).ldgEvent 6

/-- The partition's entry would be discarded. -/
def State.discards (s : State) (p : Nat) : Bool := !s.ldg.appends && !(s.part p).audit

/-- OPEN (R485, R486). -/
def State.stageOpen (s : State) (p : Nat) : State :=
  let x := s.part p
  let body := leBytes 8 s.beat.count.toNat ++ leBytes 1 x.first ++ leBytes 1 x.seats ++ leBytes 1 s.fuses.gradeCode ++
    leBytes 1 s.fuses.steppingCode ++ leBytes 1 (natOfBool x.audit) ++ List.replicate 3 0 ++
    Bytes.sub (Config.keyId s.fuses.serial) 0 8
  if s.discards p then s.dropEntry else s.stageRaw p 1 body

/-- CLOSE, the bundle's SIGNATURE after it, and the closed stream (R485, R486, R489, R492). -/
def State.stageClose (s : State) (p : Nat) : State :=
  let body := leBytes 8 s.beat.count.toNat ++ leBytes 8 (s.part p).stream.total
  let s := if s.discards p then s.dropEntry else (s.stageRaw p 4 body).stageSignature p
  s.modPart p fun x => { x with stream := { x.stream with closed := true } }

/-- The run carries BT at its end (R462). -/
def Task.classBT (t : Task) : Bool :=
  !t.credit && Bytes.nat t.profile 3 1 = 1 && t.mask = 0

/-- The body of a DECISION entry (R487). -/
def State.decisionBody (s : State) (p : Nat) (t : Task) (outcome status : Nat) : Bytes :=
  let x := s.part p
  let fp := match x.prog with
    | some g => g.fingerprint
    | none => []
  Bytes.sub t.inDigest 0 32 ++ Bytes.sub fp 0 32 ++ sha256 t.profile ++
    (if t.step = 0 then List.replicate 32 0 else Bytes.sub t.outDigest 0 32) ++
    leBytes 8 t.startGate ++ leBytes 8 t.lastBeat.toNat ++ leBytes 8 t.chain.toNat ++ leBytes 4 (min t.shift 0xFFFFFFFF) ++
    leBytes 1 (natOfBool t.classBT) ++ leBytes 1 t.mask ++ leBytes 1 outcome ++ leBytes 1 0 ++
    leBytes 2 (min t.reruns 0xFFFF) ++ leBytes 2 t.takeovers ++ leBytes 2 t.splits ++ leBytes 2 status ++
    leBytes 1 s.fuses.gradeCode ++ leBytes 1 s.fuses.steppingCode ++ leBytes 1 (natOfBool x.audit) ++ List.replicate 5 0 ++
    Bytes.sub t.hostRef 0 16

/-- A run's reserved entry is given back (R493). -/
def State.unreserve (s : State) : State := s.modLdg fun l => { l with reserved := l.reserved - 1 }

/-- A task's record and completion, at its end (R494, R496, R501, R502, R676, R677). outcome: 0 COMPLETE, 1 ABORTED, 2 TORN. -/
def State.endTask (s : State) (p : Nat) (t : Task) (outcome status detail : Nat) (r1 : Nat) (postIt : Bool) : State :=
  let s := s.unreserve
  let sealed := !s.ldg.appends && (s.part p).audit
  let status := if status = 0 && sealed then 0x10
    else if status = 0 then (if t.pivot then 0x12 else if t.cap then 0x13 else 0) else status
  let seq := (s.part p).stream.nextSeq
  let stream := (s.part p).stream.id
  let drop := s.discards p
  let s' := if drop then s.dropEntry else
    let u := s.stageRaw p 2 (s.decisionBody p t outcome status)
    if (u.part p).stream.decisions = 256 then u.stageSignature p else u
  let c : Compl :=
    { id := t.id, part := p, status := status, detail := detail
      r0 := if drop then 0xFFFFFFFFFFFFFFFF#64 else BitVec.ofNat 64 seq
      r1 := BitVec.ofNat 64 (if outcome = 0 then t.lastBeat.toNat else r1)
      r2 := BitVec.ofNat 32 (t.mask + 256 * natOfBool t.classBT + 65536 * (t.splits % 65536))
      cond := if drop || sealed then .ready else .durable stream seq
      ofTask := true, ends := outcome != 0 }
  if postIt then s'.post c else s'

end Sys2Proof.Machine
end

