-- ==== Sys2Proof/Machine/Task.lean ====
section
/-! DEFINITION. What stops a run and what an end of a run leaves: idleness (R317, R397), errors of a context, the abort of a task
(R397), torn bursts (R400 to R403), the unloading of a program, and the reset of a bench's execution state. -/

namespace Sys2Proof.Machine

/-! ## All benches of an arc -/

/-- A change of every bench of a partition's arc. -/
def State.modArc (s : State) (p : Nat) (f : Bench → Bench) : State :=
  (s.arcBenches p).foldl (fun s b => s.modBench b f) s

/-- A change of both cores of every bench of the arc. -/
def State.modArcCores (s : State) (p : Nat) (f : Core → Core) : State :=
  s.modArc p fun x => { x with cores := x.cores.map f }

/-! ## Idle -/

/-- Nothing of the core is outstanding and every issued command of a known length has ended. -/
def Core.idleAt (k : Core) (now : Nat) : Bool :=
  k.dma.reads.isEmpty && k.dma.writes.isEmpty &&
  (match k.plb.job with
    | some j => !j.running && decide (j.endAt + j.wait ≤ now)
    | none => true) &&
  k.queues.all fun q => q.inflight.all fun i => i.on != .time || decide (i.doneAt ≤ now)

/-- A job waits for a row that no push brings: it can go on only with a later command, and its engine counts as idle. -/
def State.starved (s : State) (j : Job) : Bool :=
  let x := (s.core j.eb j.ec).array (j.cmd.arrays.headD 0)
  j.kind = .queue && !j.ended && x.pushes.isEmpty && !x.feeder.any fun r => !r.1

/-- A request of a store row whose end nothing of a run waits for. -/
def Who.background : Who → Bool
  | .writeBack _ _ _ => true
  | .flit _ _ => true
  | .lone => true
  | _ => false

/-- Every engine of the partition is idle and nothing is outstanding. -/
def State.partIdle (s : State) (p : Nat) : Bool :=
  (s.activeBenches p).all fun b =>
    let x := s.bench b
    x.cores.all (fun k => k.idleAt s.now) && x.jobs.all s.starved && x.reqs.all fun r => r.who.background

/-! ## Contexts and aborts -/

/-- A context goes to ERROR (R173). -/
def State.ctxError (s : State) (b c ctx : Nat) : State :=
  s.modCore b c fun k => { k with ctxState := k.ctxState.set ctx 4 }

/-- The task of a partition is to end; the first cause stands (R397). The clamp of a committed step is completed first (R609). -/
def State.abort (s : State) (p : Nat) (e : Ending) : State :=
  s.modPart p fun x => match x.task, x.stop, x.after with
    | none, _, _ => x
    | some _, .abort _, _ => x
    | some _, .clamp _, .abort _ => x
    | some _, .clamp _, _ => { x with after := .abort e }
    | some _, _, _ => { x with stop := .abort e, after := .none }

/-- The numeric status codes a task ends with (R663). -/
def stOK : Nat := 0
def stTORN : Nat := 0x0D
def stABORTED : Nat := 0x0E
def stOVERRUN : Nat := 0x0B
def stDEFERRED : Nat := 1

/-- A fault of a command: its context goes to ERROR and the task is aborted with the fault's detail (R397, R665, R677). -/
def State.faultAbort (s : State) (b c q detail cause : Nat) : State :=
  match s.benchPart b with
  | some p => (s.ctxError b c (ctxOf q)).abort p
      { status := stABORTED, detail := detail, r1 := BitVec.ofNat 64 (cause % 256 + 256 * (q % 64)) }
  | none => s

/-! ## Torn bursts (R400 to R403) -/

/-- A slot's descriptor names a far destination. -/
def Slot.outbound (x : Slot) : Bool :=
  let d := Bytes.nat x.raw 2 1
  2 ≤ d && d ≤ 5

/-- The first unwritten offset of a slot's outbound burst in the arming in force, where it is one: some of the arming's requests are
issued, and some are not (R400, R402). -/
def Slot.torn (x : Slot) : Option Nat :=
  let bytes := Bytes.nat x.raw 0x20 4
  let open_ := x.tiles.find? fun t => decide (x.armBase ≤ t.num) && (t.index.isSome || !t.toIssue.isEmpty)
  if x.busy && x.outbound && decide (0 < x.issued) then
    match open_ with
    | some t => some ((t.num - x.armBase) * bytes + (match t.toIssue with
        | r :: _ => r.off
        | [] => 0))
    | none => if x.started < x.armBase + x.count then some ((x.started - x.armBase) * bytes) else none
  else none

/-- The torn transfers of a core, by slot, dowel transfers as slot 64. -/
def Core.torn (k : Core) : List (Nat × Nat) :=
  (List.range 64).filterMap (fun i => (k.slot i).torn.map fun o => (i, o)) ++
  k.dma.dowels.filterMap fun d => match d.parts with
    | r :: _ => if r.write && decide (d.parts.length < d.total) then some (64, r.off) else none
    | [] => none

/-- The torn transfer with the lowest bench, core and slot (R403), among the given cores. -/
def State.tornOf (s : State) (cores : List (Nat × Nat)) : Option (Nat × Nat × Nat × Nat) :=
  (cores.flatMap fun bc => (s.core bc.1 bc.2).torn.map fun t => (bc.1, bc.2, t.1, t.2)).head?

/-- RESULT1 of a TORN completion (R677). -/
def tornResult (x : Nat × Nat × Nat × Nat) : Nat :=
  x.2.2.2 % 2 ^ 48 + 2 ^ 48 * x.2.2.1 + 2 ^ 55 * x.2.1 + 2 ^ 56 * x.1

/-- Both cores of every bench of the arc, in ascending bench order. -/
def State.arcCores (s : State) (p : Nat) : List (Nat × Nat) :=
  (List.range 13).flatMap fun b => if (s.arcBenches p).contains b then [(b, 0), (b, 1)] else []

/-- How a task ends that is cut at the given cores: TORN with the lowest torn transfer, or as named (R403, R404, R621). -/
def State.cutEnding (s : State) (cores : List (Nat × Nat)) (detail : Nat) (e : Ending) : Ending :=
  match s.tornOf cores with
  | some x => { torn := true, status := stTORN, detail := detail, r1 := BitVec.ofNat 64 (tornResult x) }
  | none => e

/-! ## What the end of a run leaves -/

/-- PART_STATE.STATE: a task whose partition waits for a lost bench's state is RECOVERING (R596, R702). -/
def Part.shownState (x : Part) : PState := match x.stop with
  | .takeover _ => if x.task.isSome then .recovering else x.state
  | .load _ k => if x.task.isSome || k = 2 then .recovering else x.state
  | _ => x.state

/-- A queue after a run: nothing in flight. -/
def Queue.quiet (x : Queue) : Queue := { x with inflight := [], arrival := none, since := none }

/-- A slot after a run or a drain: idle. -/
def Slot.quiet (x : Slot) : Slot := { raw := x.raw }

/-- An array after a run: nothing on its bus, no row left in its feeder queue or before it (R261). -/
def ArraySt.quiet (x : ArraySt) : ArraySt := { x with bus := .free, carried := false, conv := false, feeder := [], pushes := [] }

/-- A core's engines after the end of a run (R397). -/
def Core.quiet (k : Core) : Core :=
  { k with queues := k.queues.map Queue.quiet, signals := [], returns := [], busyUntil := List.replicate 5 0,
           dma := { k.dma with slots := k.dma.slots.map Slot.quiet, dowels := [], reads := [], writes := [], trans := [] },
           plb := { k.plb with job := none }, mx := { k.mx with arrays := k.mx.arrays.map ArraySt.quiet } }

/-- A bench after the end of a run: no job, request, lap or baton. Write-backs of corrected words stay. -/
def Bench.quiet (x : Bench) : Bench :=
  { x with cores := x.cores.map Core.quiet, port := {}, jobs := [], reqs := x.reqs.filter fun r => match r.who with
      | .writeBack _ _ _ => true
      | _ => false }

/-- The partition's engines stop: the run has ended. -/
def State.quietRun (s : State) (p : Nat) : State :=
  (s.modArc p Bench.quiet).modPart p fun x => { x with legs := [], nextLeg := 0, circle := [], ringStop := false, after := .none }

/-- A load in work that can no longer take effect completes DEFERRED (log entry 23). -/
def State.dropLoad (s : State) (p : Nat) : State := match (s.part p).load with
  | some j => (s.finish j.id p stDEFERRED 0).modPart p fun x => { x with load := none }
  | none => s

/-- A partition's program is unloaded: the partition is IDLE, adoption ends (R145, R602). -/
def State.unload (s : State) (p : Nat) : State :=
  (s.dropLoad p).modPart p fun x => { x with prog := none, dropProg := false, adopted := [], slotSeats := [],
                                             state := if x.state = .free then .free else .idle }

/-- The partition's task ends: record, completion, and the partition back to a state (R397, R403). -/
def State.closeTask (s : State) (p outcome status detail r1 : Nat) (postIt : Bool) (final : PState) : State :=
  match (s.part p).task with
  | none => s
  | some t =>
    let t := { t with lastBeat := if outcome = 0 then t.lastBeat else s.beat.count }
    let s := if s.discards p then s else s.modGpio fun g => { g with doneNext := g.doneNext ++ [p] }
    let s := s.endTask p t outcome status detail r1 postIt
    let s := (s.part p).preempts.foldl (fun s pr =>
      s.post { id := pr, part := p, r0 := 1, cond := .posted p }) s
    let s := (s.quietRun p).modPart p fun x =>
      { x with task := none, stop := .none, state := final, preempts := [], classBT := t.classBT, mask := t.mask
               shiftGates := min (t.shift / 16) 0xFFFF }
    if (s.part p).dropProg then s.unload p else s

/-! ## Zero-fill -/

/-- A bench's scratchpad is written as zero (R313): nothing of it is left, the function tables and the resident structure neither. -/
def Bench.zeroFill (x : Bench) : Bench :=
  { x with rack := [], act := [], upsets := [], toWriteBack := [],
           cores := x.cores.map fun k => { k with tables := List.replicate 32 [], plb := { k.plb with resident := none } } }

/-- A bench's configuration, counters and engine progress as after a BCH reset (R702, R721): registers at their Reset values,
stores zero. Bench state, power, test and supply views are not the bench's own blocks. -/
def Bench.resetAll (x : Bench) : Bench :=
  { x with cores := List.replicate 2 {}, rack := [], act := [], spd := {}, reqs := [], jobs := [], upsets := [], toWriteBack := [], port := {} }

/-- A hurdle at run start (R421). -/
def Hurdle.runStart (h : Hurdle) : Hurdle := { parts := h.parts }

/-- The partition's hurdles return to their run-start state. -/
def State.resetHurdles (s : State) (p : Nat) : State :=
  s.modPart p fun x => { x with hurdles := x.hurdles.map Hurdle.runStart }

end Sys2Proof.Machine
end

