-- ==== Sys2Proof/Machine/Fence.lean ====
section
/-! DEFINITION. Fencing a bench (R613 to R616) and the recovery it starts: bypass (R156, R158, R598), takeover (R161, R593 to
R597, R734) or abort; drain failure (R576). -/

namespace Sys2Proof.Machine

/-! ## Drain failure (R576) -/

/-- Every pending page is clamp-dirty again, and DRAIN_FAILED is set; the NVMe status is recorded. The drain's other commands in work
answer no later drain. -/
def State.failDrain (s : State) (p status : Nat) : State :=
  let k := (s.part p).ckp
  let left := ((k.drain.map (·.inWork)).getD []).length - natOfBool (status != 0)
  let u := s.modSession k.session fun e => { e with others := e.others + left }
  (u.modPart p fun x =>
    { x with ckp := { x.ckp with drain := none, nvme := status, dirty := insertAll x.ckp.pending x.ckp.dirty, pending := [] } }).ckpEvent p 2

/-- A session becomes DOWN, and any drain on it fails (R570, R576). A STORE_CONNECT that waits fails (0x6D). -/
def State.sessionDown (s : State) (i status : Nat) : State :=
  let x := s.session i
  let s := s.modSession i fun y => { y with state := .down, id := none, rx := [], keepAlive := 0, disagree := 0 }
  let s := match x.id with
    | some id => s.finish id 0xFF stABORTED 0x6D
    | none => s
  ((List.range 6).foldl (fun s p =>
    if (s.part p).ckp.session = i && (s.part p).ckp.drain.isSome then s.failDrain p status else s) s).modSession i fun y =>
    { y with others := 0 }

/-! ## The spare (R159, R734) -/

/-- Changes that are requested or in the open window. -/
def Ring.requests (r : Ring) : List SpliceReq := r.waiting ++ (match r.window with
  | some w => w.reqs
  | none => [])

/-- Takeovers requested and not in force claim the spare. -/
def Ring.takeovers (r : Ring) : List SpliceReq := r.requests.filter fun q => match q.change with
  | .takeover _ => true
  | _ => false

/-- RING_SPARE.SPARE_READY: the spare passed its last test, is not TESTING and is in P0 or P1 (R159). -/
def State.spareReady (s : State) : Bool :=
  let x := s.bench s.ring.spareLive
  s.ring.spareLive != 0xF && x.testPass && x.state = .spare && x.power != 2

/-- The spare may be taken: ready, or TESTING after a passed test (R734), and not claimed. -/
def State.spareUsable (s : State) : Bool :=
  let x := s.bench s.ring.spareLive
  s.ring.takeovers.isEmpty && (s.spareReady ||
    (s.ring.spareLive != 0xF && x.testPass && x.state = .testing && (match x.test with
      | some t => t.former = .spare && t.why = .selfTest
      | none => false)))

/-- One bench is tested for every packet that names it. -/
def TestJob.tested (j : TestJob) (b : Nat) (pass : Bool) (beat : W64) : TestJob :=
  if bitOf j.left b then { j with left := j.left - 2 ^ b, passed := j.passed + (if pass then 2 ^ b else 0), last := beat } else j

/-- Completes every SELF_TEST whose benches are all tested (R732). -/
def State.endTests (s : State) : State :=
  let ended := s.glb.tests.filter fun j => j.left = 0
  ended.foldl (fun s j => s.finish j.id 0xFF (if j.deferred then stDEFERRED else stOK) 0 j.passed j.last.toNat)
    (s.modGlb fun g => { g with tests := g.tests.filter fun j => j.left != 0 })

/-- A self-test of the spare is abandoned: its bit reads 0 in RESULT0, it is treated as ready, and the window waits for its
zero-fill, at most 2,048 beats (R732, R734). The length is a free value (log entry 3). -/
def State.abandonTest (s : State) : State × Nat :=
  let b := s.ring.spareLive
  if (s.bench b).state = .testing then
    let (v, s) := s.fresh
    let beat := s.beat.count
    let s := (s.modBench b fun x => { x.zeroFill with state := .spare, test := none }).modGlb fun g =>
      { g with tests := g.tests.map (·.tested b false beat) }
    (s.endTests, s.beat.periods + v % 2049)
  else (s, 0)

/-! ## Fence -/

/-- A splice change is requested (R151). Its window opens at a later gate (03, splice windows; log entry 55). -/
def State.requestSplice (s : State) (q : SpliceReq) : State :=
  s.modRing fun r => { r with waiting := r.waiting ++ [{ q with notBefore := max q.notBefore (s.beat.periods + 1) }] }

/-- The partition stops for a replacement; a load in work goes on, and the partition stops behind it. -/
def Part.stopFor (x : Part) (fresh : Bool) : Part := match x.task, x.stop with
  | none, _ => x
  | some _, .abort _ => x
  | some _, .load _ _ => { x with after := .takeover fresh }
  | some _, _ => { x with stop := .takeover fresh, after := .none }

/-- A takeover of bench b of partition p is requested; a run with buddy copies stops for it, one without is aborted with 0x6A
and its program unloaded (R161, R593, R595). Without a task, a partition without buddy copies loses its program at once (R594). -/
def State.startTakeover (s : State) (p b : Nat) : State :=
  let (s, t) := s.abandonTest
  let s := s.requestSplice { part := p, change := .takeover b, notBefore := t }
  if (s.part p).hasTask then
    if (s.part p).ckp.buddyOn then s.modPart p fun x => x.stopFor true
    else (s.abort p { status := stABORTED, detail := 0x6A }).modPart p fun x => { x with dropProg := true }
  else if (s.part p).ckp.buddyOn && (s.part p).prog.isSome then s
  else s.unload p

/-- The run is aborted and its program is unloaded; without a task the program is unloaded at once (R594, R598). -/
def State.abortAndDrop (s : State) (p detail : Nat) : State :=
  if (s.part p).hasTask then
    (s.abort p { status := stABORTED, detail := detail }).modPart p fun x => { x with dropProg := true }
  else s.unload p

/-- The adopter of a lost slot: the slot of the first ACTIVE bench clockwise from the lost seat that hosts one slot (R598). -/
def State.adopterOf (s : State) (p : Nat) (adopted : List (Nat × Nat)) (lost : Nat) : Option Nat :=
  let seats := s.slotSeatsOf p
  let n := seats.length
  ((List.range n).map fun i => (lost + 1 + i) % n).find? fun k =>
    k != lost && decide ((s.bench (s.seatBench (seats.getD k 0xF))).state = .active) &&
      !adopted.any (fun a => a.2 = k) && (adopted.lookup k).isNone

/-- Slots of the partition whose bypass is pending. -/
def State.lostSlots (s : State) (p : Nat) : List Nat := s.ring.requests.filterMap fun r =>
  match r.change with
  | .bypass b => if r.part = p then some (s.ownSlot p b) else none
  | _ => none

/-- Every slot of a list has an adopter, each its own. -/
def State.adoptable (s : State) (p : Nat) : List (Nat × Nat) → List Nat → Bool
  | _, [] => true
  | ad, k :: ks => match s.adopterOf p ad k with
    | some a => s.adoptable p (ad ++ [(k, a)]) ks
    | none => false

/-- The conditions of a bypass of bench b (R158, R598): it is already counted out of the ACTIVE benches; it hosts its own slot alone,
and it and every other lost slot has an adopter. -/
def State.bypassOk (s : State) (p b : Nat) : Bool :=
  let x := s.part p
  let n := (s.activeBenches p).length
  let k := s.ownSlot p b
  x.ckp.buddyOn && decide (max 2 x.minActive ≤ n) && (match x.prog with
    | some g => g.compact
    | none => false) && !(x.adopted.any fun a => a.2 = k) && s.adoptable p x.adopted (s.lostSlots p ++ [k])

/-- The program of the partition is compiled as shrinkable, for credit mode (R156). -/
def Part.shrinks (x : Part) : Bool := x.prog.isSome && x.credit && x.shrink

/-- Whether the partition already waits for a lost bench's state (R597). -/
def Part.recovering (x : Part) : Bool := match x.stop with
  | .takeover _ => true
  | .load _ _ => true
  | _ => false

/-- A clamp copy in progress is abandoned (13, corner cases). -/
def State.dropClamp (s : State) (p : Nat) : State := match (s.part p).stop with
  | .clamp _ => (s.failDrain p 0).modPart p fun x => { x with stop := x.after, after := .none, state := if x.task.isSome then x.state else .loaded }
  | _ => s

/-- Recovery from the loss of a bench of partition p (R156, R158, R161, R593 to R598). A bench that is lost while the partition's run
recovers from the loss of another one ends the run where R156 does not cover it (R597). -/
def State.recover (s : State) (p b : Nat) : State :=
  let s := s.dropClamp p
  let x := s.part p
  if x.shrinks then
    if s.bypassOk p b then (s.requestSplice { part := p, change := .bypass b }).modPart p fun x => x.stopFor false
    else s.abortAndDrop p 0x6B
  else
    let s := if x.recovering && x.hasTask then s.abortAndDrop p 0x6A else s
    if s.spareUsable then s.startTakeover p b else (s.ringEvent 4).abortAndDrop p 0x6A

/-- A takeover whose spare is lost before its window is withdrawn: no ready spare (R161). -/
def State.loseSpare (s : State) : State :=
  let lost := s.ring.takeovers
  let keep (q : SpliceReq) : Bool := !lost.contains q
  let s := s.modRing fun r => { r with spareLive := 0xF, waiting := r.waiting.filter keep
                                       window := r.window.map fun w => { w with reqs := w.reqs.filter keep } }
  lost.foldl (fun s q => (s.ringEvent 4).abortAndDrop q.part 0x6A) s

/-- Bench b is fenced (R613): it is out of service, and recovery of its partition starts. -/
def State.fence (s : State) (b : Nat) : State :=
  if (s.bench b).state = .fenced then s
  else
    let owner := s.benchPart b
    let s := s.modBench b fun x => { x with state := .fenced, test := x.test.map fun t => { t with former := .fenced } }
    let s := if s.ring.spareLive = b then s.loseSpare else s
    match owner with
    | some p => if (s.part p).destroying.isSome then s else s.recover p b
    | none => s

end Sys2Proof.Machine
end

