-- ==== Sys2Proof/Machine/Image.lean ====
section
/-! DEFINITION. The program image: header, segments, context table, lease table and the tally and hurdle map (R205 to R207, R298,
R417), as functions of the loaded image's bytes. -/

namespace Sys2Proof.Machine

/-! ## Header (R205) -/

def Img.u (img : Bytes) (off n : Nat) : Nat := Bytes.nat img off n
def Img.mode (img : Bytes) : Nat := Img.u img 7 1
def Img.n (img : Bytes) : Nat := Img.u img 8 1
def Img.minActive (img : Bytes) : Nat := Img.u img 9 1
def Img.bypass (img : Bytes) : Nat := Img.u img 10 1
def Img.shrinkable (img : Bytes) : Bool := bitOf (Img.u img 11 1) 0
def Img.balance (img : Bytes) : Bool := bitOf (Img.u img 11 1) 1
def Img.m (img : Bytes) : Nat := Img.u img 12 1
def Img.contexts (img : Bytes) : Nat := Img.u img 13 1
def Img.hurdles (img : Bytes) : Nat := Img.u img 14 2
def Img.rackNeed (img : Bytes) : Nat := Img.u img 0x10 4
def Img.actNeed (img : Bytes) : Nat := Img.u img 0x14 4
def Img.hbmNeed (img : Bytes) : Nat := Img.u img 0x18 8
def Img.tallyBlocks (img : Bytes) : Nat := Img.u img 0x20 1
def Img.streams (img : Bytes) : Nat := Img.u img 0x21 1
def Img.maxParts (img : Bytes) : Nat := Img.u img 0x22 1
def Img.segCount (img : Bytes) : Nat := Img.u img 0x24 2
def Img.length (img : Bytes) : Nat := Img.u img 0x28 8
def Img.profile (img : Bytes) : Bytes := Bytes.sub img 0x30 64
def Img.scheduled (img : Bytes) : Bool := Img.mode img = 0

/-! ## Segments (R206) -/

structure Seg where
  ty : Nat := 0
  slot : Nat := 0
  core : Nat := 0
  queue : Nat := 0
  src : Nat := 0
  len : Nat := 0
  dest : Nat := 0
  deriving DecidableEq, Repr, Inhabited

/-- Entry i of the segment table. -/
def Img.seg (img : Bytes) (i : Nat) : Seg :=
  let o := 0x100 + 32 * i
  { ty := Img.u img o 2, slot := Img.u img (o + 2) 1, core := Img.u img (o + 3) 1, queue := Img.u img (o + 4) 1
    src := Img.u img (o + 8) 8, len := Img.u img (o + 16) 8, dest := Img.u img (o + 24) 8 }

/-- The segment table. -/
def Img.segs (img : Bytes) : List Seg := (List.range (Img.segCount img)).map (Img.seg img)

/-- The segment applies to a slot, or to a core of it. -/
def Seg.onSlot (g : Seg) (k : Nat) : Bool := g.slot = k || g.slot = 0xFF
def Seg.onCore (g : Seg) (k c : Nat) : Bool := g.onSlot k && (g.core = c || g.core = 0xFF)
/-- The bytes of a segment. -/
def Seg.data (g : Seg) (img : Bytes) : Bytes := Bytes.sub img g.src g.len

/-- Segments of a type that apply to a slot. -/
def Img.ofSlot (img : Bytes) (ty k : Nat) : List Seg := (Img.segs img).filter fun g => g.ty = ty && g.onSlot k

/-! ## Context table (R207) -/

/-- The context table of a core of a slot, where the image has one. -/
def Img.ctxTable (img : Bytes) (k c : Nat) : Option Bytes :=
  (((Img.segs img).find? fun g => g.ty = 10 && g.onCore k c).map fun g => g.data img)

/-- Token weight of a context for an engine: 1 without a table (R189, R207). -/
def Img.token (img : Bytes) (k c ctx e : Nat) : Nat := match Img.ctxTable img k c with
  | some t => Bytes.nat t (0x10 + 32 * ctx + e) 1
  | none => 1

/-- Starting credits of a context on a link: 0 without a table (R186, R207). -/
def Img.startCredit (img : Bytes) (k c ctx link : Nat) : Nat := match Img.ctxTable img k c with
  | some t => if link = 0 || 5 < link then 0 else Bytes.nat t (0x16 + 32 * ctx + 2 * (link - 1)) 2
  | none => 0

/-! ## Lease table (R298 to R300) -/

/-- The lease table of a slot. -/
def Img.lease (img : Bytes) (k : Nat) : Option Bytes := ((Img.ofSlot img 4 k).head?).map fun g => g.data img

/-- The phase of a step. -/
def leasePhase (t : Bytes) (step : Nat) : Nat := step % (max 1 (Bytes.nat t 2 1))

/-- Bank mask of an owner in a phase. -/
def leaseMask (t : Bytes) (phase owner : Nat) : Nat := Bytes.nat t (0x10 + 32 * phase + 4 * owner) 4 % 2 ^ 20

/-- The owner of a bank in a phase, where a mask names it. -/
def leaseOwner (t : Bytes) (phase bank : Nat) : Option Nat :=
  (List.range 7).find? fun o => bitOf (leaseMask t phase o) bank

/-! ## Batons -/

/-- The largest baton of the program. -/
def Img.maxBaton (img : Bytes) : Nat := (((Img.segs img).filter fun g => g.ty = 2).map (·.len)).foldl max 0

/-! ## Tally and hurdle map (R417) -/

/-- The map of a slot. -/
def Img.map (img : Bytes) (k : Nat) : Bytes := match (Img.ofSlot img 9 k).head? with
  | some g => g.data img
  | none => []

def Map.inits (m : Bytes) : Nat := Bytes.nat m 2 2
def Map.rings (m : Bytes) : Nat := Bytes.nat m 4 2
def Map.hurdles (m : Bytes) : Nat := Bytes.nat m 6 2
/-- INIT entries: tally, core, value. -/
def Map.init (m : Bytes) : List (Nat × Nat × Nat) := (List.range (Map.inits m)).map fun i =>
  let w := Bytes.nat m (0x10 + 4 * i) 4
  (bitsOf w 12 0, bitsOf w 13 13, bitsOf w 31 16)
/-- RING entries: tally, core, direction. -/
def Map.ring (m : Bytes) : List (Nat × Nat × Nat) := (List.range (Map.rings m)).map fun i =>
  let w := Bytes.nat m (0x10 + 4 * (Map.inits m + i)) 4
  (bitsOf w 12 0, bitsOf w 13 13, bitsOf w 15 14)
/-- HURDLE entries: hurdle, participant mask of this slot. -/
def Map.hurdle (m : Bytes) : List (Nat × Nat) := (List.range (Map.hurdles m)).map fun i =>
  let w := Bytes.nat m (0x10 + 4 * (Map.inits m + Map.rings m + i)) 4
  (bitsOf w 7 0, bitsOf w 25 16)

/-- Participants of hurdle h: 10 × slot + 5 × core + engine for each bit of the slots' masks (R417, R420). -/
def Img.participants (img : Bytes) (h : Nat) : List Nat :=
  (List.range (Img.n img)).flatMap fun k =>
    (List.range 10).filterMap fun i =>
      if (Map.hurdle (Img.map img k)).any fun e => e.1 = h && bitOf e.2 i then some (10 * k + i) else none

/-- The loaded image of a partition, empty without a program. -/
def Part.img (x : Part) : Bytes := match x.prog with
  | some g => g.image
  | none => []

end Sys2Proof.Machine
end

