-- ==== Sys2Proof/Machine/Bank.lean ====
section
/-! DEFINITION. The scratchpad's banks, leases, clashes and check bits (07_scratchpad.md R292 to R321, R822, R823, R828), and the
writes of a bench's stores with their dirty bits (R554). -/

namespace Sys2Proof.Machine

/-- Bank and row of a rack byte offset, and of an activation byte offset (R292). -/
def rackBank (o : Nat) : Nat × Nat := (o / 2 ^ 23, o / 2 ^ 12 % 2 ^ 11)
def actBank (o : Nat) : Nat × Nat := (8 + o / 2 ^ 22, o / 2 ^ 12 % 2 ^ 10)

/-! ## Leases (R298, R299, R822) -/

/-- The lease table in force on a bench, with its phase. -/
def State.leaseInForce (s : State) (b : Nat) : Option (Bytes × Nat) :=
  match s.benchPart b with
  | none => none
  | some p => match (s.part p).task with
    | none => none
    | some t => (Img.lease (s.part p).img (s.ownSlot p b)).map fun l => (l, leasePhase l t.step)

/-- Banks of an adopted slot on its adopter (R599). -/
def adoptedBank (k : Nat) : Nat := if 4 ≤ k && k < 8 then k - 4 else if 14 ≤ k then k - 6 else 20

/-- The owner of a bank of a bench, with an adopted slot's leases on its relocated banks. -/
def State.bankOwner (s : State) (b bank : Nat) : Option Nat :=
  match s.leaseInForce b with
  | none => none
  | some (l, ph) => match leaseOwner l ph bank with
    | some o => some o
    | none => match s.benchPart b with
      | none => none
      | some p => match (s.part p).adopted.find? fun a => a.2 = s.ownSlot p b with
        | none => none
        | some a => match Img.lease (s.part p).img a.1 with
          | some l2 => leaseOwner l2 ph (adoptedBank bank)
          | none => none

/-- Rank of a port on a bank: its owner first, then ascending owner code (R301). -/
def portRank (owner : Option Nat) (port : Nat) : Nat := if owner = some port then 0 else port + 1

/-! ## Requests -/

/-- Bank of a request, and the row in it (R292). -/
def MemReq.bank (r : MemReq) : Nat := if r.rack then r.row / 2048 else 8 + r.row / 1024
def MemReq.inBank (r : MemReq) : Nat := if r.rack then r.row % 2048 else r.row % 1024

/-- The rows that n bytes from a store offset on lie in, with the part of each. -/
def rowParts (a n : Nat) : List (Nat × Nat × Nat) :=
  if n = 0 then [] else
  (List.range ((a + n - 1) / 4096 - a / 4096 + 1)).map fun i =>
    let row := a / 4096 + i
    let lo := max a (4096 * row)
    (row, lo, min (a + n) (4096 * row + 4096) - lo)

/-- The read requests of n bytes, and the write requests of a byte string, made as the given one. -/
def MemReq.reads (r : MemReq) (a n : Nat) : List MemReq :=
  (rowParts a n).map fun x => { r with row := x.1, spans := [(x.2.1, x.2.2)] }
def MemReq.writes (r : MemReq) (a : Nat) (bs : Bytes) : List MemReq :=
  (rowParts a bs.length).map fun x => { r with row := x.1, write := true, data := [(x.2.1, (bs.drop (x.2.1 - a)).take x.2.2)] }

/-- Requests join those of a bench. -/
def State.ask (s : State) (b : Nat) (rs : List MemReq) : State := s.modBench b fun x => { x with reqs := x.reqs ++ rs }

/-- A request of the given kind of holder is outstanding on the bench. -/
def Bench.awaits (x : Bench) (w : Who) : Bool := x.reqs.any fun r => r.who = w

/-- The first request goes before the second on their bank: by R301, then by array or engine (R294). -/
def State.goesBefore (s : State) (b : Nat) (r x : MemReq) : Bool :=
  let o := s.bankOwner b r.bank
  decide (portRank o r.port < portRank o x.port) || (portRank o r.port = portRank o x.port && decide (r.unit < x.unit))

/-- The request that has a bank's read or write slot, among those that are due. -/
def State.winner (s : State) (b : Nat) (due : List MemReq) (bank : Nat) (write : Bool) : Option MemReq :=
  (due.filter fun r => r.bank = bank && r.write = write).foldl (fun best r => match best with
    | none => some r
    | some x => if s.goesBefore b r x then some r else some x) none

/-- Requests of one port to one row are one access (R294). -/
def MemReq.merges (r x : MemReq) : Bool := r.port = x.port && r.rack = x.rack && r.row = x.row && r.write = x.write

/-- A due request is served in this cycle (R293, R294, R301). -/
def State.served (s : State) (b : Nat) (due : List MemReq) (r : MemReq) : Bool :=
  match s.winner b due r.bank r.write with
  | some x => r.merges x
  | none => false

/-- LEASE_BREACH and its capture (R302). -/
def State.leaseBreach (s : State) (b bank port : Nat) : State :=
  match s.leaseInForce b with
  | none => s
  | some (_, ph) =>
    if s.bankOwner b bank = some port then s
    else (s.modBench b fun x =>
      { x with spd := { x.spd with
          breachCap := if x.spd.status.getLsbD 4 then x.spd.breachCap
            else BitVec.ofNat 32 (bank + 32 * port + 256 * ph) } }).spdEvent b 4

/-- PORT_CLASH and its capture (R304, R305). -/
def State.portClash (s : State) (b bank row first second : Nat) (ww : Bool) : State :=
  (s.modBench b fun x =>
    if x.spd.status.getLsbD 3 then x else
    { x with spd := { x.spd with
        clashCap := BitVec.ofNat 32 (bank + 32 * row + 2 ^ 16 * first + 2 ^ 19 * second + 2 ^ 22 * natOfBool ww + 2 ^ 24 * b)
        clashBeat := s.beat.count } }).spdEvent b 3

/-- A write-back is no port's access: it breaches, clashes and waits for nothing (R308). -/
def MemReq.isPort (r : MemReq) : Bool := match r.who with
  | .writeBack _ _ _ => false
  | _ => true

/-- Clashes of a served request: a read with another port's served write of its row, a write with another port's write of its row
that waits. -/
def State.clashes (s : State) (b : Nat) (served denied : List MemReq) (r : MemReq) : State :=
  let other (x : MemReq) : Bool := x.isPort && x.write && x.rack = r.rack && x.row = r.row && x.port != r.port
  match (if r.write then denied else served).find? other with
  | some x => s.portClash b r.bank r.inBank r.port x.port r.write
  | none => s

/-! ## Check bits (R307 to R311, R317, R320) -/

/-- SPD_ERROR_CAPTURE of the first error since bits [2:0] were clear. -/
def Spd.capture (x : Spd) (bank row word port : Nat) (fatal : Bool) : Spd :=
  if x.status &&& 7#32 = 0 then
    { x with errCap := BitVec.ofNat 32 (bank + 32 * row + 2 ^ 16 * word + 2 ^ 25 * port + 2 ^ 28 * natOfBool fatal) }
  else x

/-- A step's rerun is prepared, or at its fourth attempt the bench is fenced (R317, R320). A buddy pause is given up for it; a clamp
is made first. -/
def State.parityRerun (s : State) (b : Nat) : State :=
  match s.benchPart b with
  | none => s
  | some p => match (s.part p).task with
    | none => s
    | some t =>
      if 4 ≤ t.attempt then
        (s.spdEvent b 5).fence b
      else s.modPart p fun x => match x.stop with
        | .none => { x with stop := .rerun b }
        | .late _ _ _ _ => { x with stop := .rerun b }
        | .pause _ => { x with stop := .rerun b, after := .none }
        | .clamp _ => match x.after with
          | .abort _ => x
          | _ => { x with after := .rerun b }
        | _ => x

/-- A rack word read with one or two wrong bits: corrected, and to be written back (R308). -/
def State.rackCorrected (s : State) (b port bank row word : Nat) : State :=
  (s.modBench b fun x =>
    let d := x.spd.capture bank row word port false
    { x with spd := { d with corrected := satAdd32 d.corrected 1 }
             toWriteBack := if x.toWriteBack.contains (bank, row, word) then x.toWriteBack
               else x.toWriteBack ++ [(bank, row, word)] }).spdEvent b 0

/-- A rack word read with an uncorrectable error: the bench is fenced (R310). -/
def State.rackBroken (s : State) (b port bank row word : Nat) : State :=
  ((s.modBench b fun x => { x with spd := x.spd.capture bank row word port true }).spdEvent b 1).fence b

/-- An activation word whose parity fails (R317). -/
def State.parityError (s : State) (b port bank row word : Nat) : State :=
  ((s.modBench b fun x =>
    let d := x.spd.capture bank row word port true
    { x with spd := { d with parity := satAdd32 d.parity 1 } }).spdEvent b 2).parityRerun b

/-- Store offset of the word of a flipped bit, and the bytes of a word of that store. -/
def wordBytes (u : Upset) : Nat := if u.bank < 8 then 32 else 8
def wordOffset (u : Upset) : Nat :=
  (if u.bank < 8 then 2048 * u.bank + u.row else 1024 * (u.bank - 8) + u.row) * 4096 + wordBytes u * u.word
/-- The word lies, in part, in n bytes from an offset of the store. -/
def wordIn (u : Upset) (rack : Bool) (a n : Nat) : Bool :=
  decide (u.bank < 8) = rack && decide (wordOffset u < a + n) && decide (a < wordOffset u + wordBytes u)

/-- A bit flips, or flips back. -/
def Bench.strike (x : Bench) (u : Upset) : Bench :=
  { x with upsets := if x.upsets.contains u then x.upsets.erase u else x.upsets ++ [u] }
/-- The flips that the environment brings before a command. -/
def State.strike (s : State) (us : List Upset) : State := us.foldl (fun s u => s.modBench u.bench fun x => x.strike u) s

/-- The flips of a list are laid over bytes read from an offset. -/
def flipBits (a : Nat) (bs : Bytes) (us : List Upset) : Bytes :=
  us.foldl (fun bs u =>
    if u.bit < 8 * wordBytes u && decide (a ≤ wordOffset u + u.bit / 8) then
      bs.modify (wordOffset u + u.bit / 8 - a) fun x => x ^^^ (1#8 <<< (u.bit % 8))
    else bs) bs

/-- Bytes of another word laid over bytes read from an offset. -/
def overlay (a : Nat) (bs : Bytes) (at_ : Nat) (ws : Bytes) : Bytes :=
  bs.zipIdx.map fun x => if at_ ≤ a + x.2 && a + x.2 < at_ + ws.length then ws.getD (a + x.2 - at_) 0 else x.1

/-- What the check bits of one word with the flips us do to a read of it (R307 to R311, R317, R823). Four or more wrong bits of a
rack word are beyond what the code promises: what the read shows and brings is a free value (log entry 3). -/
def State.readWord (s : State) (b port a : Nat) (bs : Bytes) (us : List Upset) : Bytes × State :=
  match us with
  | [] => (bs, s)
  | u :: _ =>
    if u.bank < 8 then
      if us.length ≤ 2 then (bs, s.rackCorrected b port u.bank u.row u.word)
      else if us.length = 3 then (flipBits a bs us, s.rackBroken b port u.bank u.row u.word)
      else
        let (v, s) := s.fresh
        let (d, s) := s.fresh
        if v % 3 = 0 then (flipBits a bs us, s.rackBroken b port u.bank u.row u.word)
        else (overlay a bs (wordOffset u) (leBytes 32 d), if v % 3 = 1 then s.rackCorrected b port u.bank u.row u.word else s)
    else
      let odd (lo par : Nat) : Bool := (us.filter fun x => (decide (lo ≤ x.bit) && decide (x.bit < lo + 32)) || x.bit = par).length % 2 = 1
      (flipBits a bs us, if odd 0 64 || odd 32 65 then s.parityError b port u.bank u.row u.word else s)

/-- A read of n bytes of a store through a port: the bytes that its words' check bits let through, and what they bring. -/
def State.readSpan (s : State) (b port : Nat) (rack : Bool) (a n : Nat) : Bytes × State :=
  let x := s.bench b
  let bs := Memory.read (if rack then x.rack else x.act) a n
  let us := x.upsets.filter fun u => wordIn u rack a n
  if us.isEmpty then (bs, s)
  else
    let s := s.modBench b fun y => { y with upsets := y.upsets.filter fun u => u.stored || !us.contains u }
    (us.map wordOffset).eraseDups.foldl (fun acc o => acc.2.readWord b port a acc.1 (us.filter fun u => wordOffset u = o)) (bs, s)

/-! ## Writes of the stores, with clamp-dirty and buddy-dirty bits (R553 to R555, R566) -/

/-- 64 KiB pages that bytes a to a + n − 1 touch. -/
def pagesOf (a n : Nat) : List Nat := if n = 0 then [] else (List.range ((a + n - 1) / 65536 - a / 65536 + 1)).map (· + a / 65536)

/-- Scope page numbers of rack or activation pages of a bench: pages of its adopted slot lie in the upper half (R553, R599,
R602). -/
def State.scopePage (s : State) (p b : Nat) (rack : Bool) (i : Nat) : Nat :=
  let own := s.ownSlot p b
  let half := if rack then 512 else 384
  match (s.part p).adopted.find? fun a => a.2 = own with
  | some a => if half ≤ i then a.1 * 1792 + (if rack then i - half else 1024 + (i - half))
    else own * 1792 + (if rack then i else 1024 + i)
  | none => own * 1792 + (if rack then i else 1024 + i)

/-- Pages of a partition's scope are written. -/
def Ckp.touch (k : Ckp) (scope buddy : List Nat) : Ckp :=
  { k with dirty := if k.armed then insertAll scope k.dirty else k.dirty
           buddyDirty := if k.buddyOn then insertAll buddy k.buddyDirty else k.buddyDirty }

/-- The dirty bits of a write to a bench's store. -/
def State.touchStore (s : State) (b : Nat) (rack : Bool) (a n : Nat) : State :=
  match s.benchPart b with
  | none => s
  | some p =>
    let pg := (pagesOf a n).map (s.scopePage p b rack)
    s.modPart p fun x => { x with ckp := x.ckp.touch pg pg }

/-- The dirty bits of a write to a partition's share: pages of the HBM region (R553). -/
def State.touchShare (s : State) (p a n : Nat) : State :=
  s.modPart p fun x =>
    let k := x.ckp
    let first := k.region / 65536
    let pg := (pagesOf a n).filterMap fun g =>
      if first ≤ g && g < first + k.regionPages then some ((s.slotSeatsOf p).length * 1792 + (g - first)) else none
    { x with ckp := k.touch pg [] }

/-- The flips that a write of n bytes leaves: a written word has new check bits (R823). -/
def Bench.mended (x : Bench) (rack : Bool) (a n : Nat) : List Upset := x.upsets.filter fun u => !wordIn u rack a n

/-- A write of bytes to the activation store, or to the rack, of a bench (R309, R312). A baton arrival sets no dirty bit (R554). -/
def State.actWrite (s : State) (b a : Nat) (bs : Bytes) : State :=
  (s.modBench b fun x => { x with act := Memory.write x.act a (bs.take (actBytes - a)), upsets := x.mended false a bs.length }).touchStore
    b false a bs.length
def State.rackStore (s : State) (b a : Nat) (bs : Bytes) : State :=
  s.modBench b fun x => { x with rack := Memory.write x.rack a (bs.take (rackBytes - a)), upsets := x.mended true a bs.length }
def State.rackWrite (s : State) (b a : Nat) (bs : Bytes) : State := (s.rackStore b a bs).touchStore b true a bs.length
/-- A write of bytes to a partition's share by the device or through BAR2. -/
def State.hbmWrite (s : State) (p off : Nat) (bs : Bytes) : State := (s.shareWrite p off bs).touchShare p off bs.length

/-! ## One cycle of a bench's banks (R293 to R306) -/

/-- What a served read brought: the request and its bytes, span by span; a served write brings none. -/
abbrev Served := MemReq × List Bytes

/-- The spans of a served read. -/
def State.readReq (s : State) (b : Nat) (r : MemReq) : List Bytes × State :=
  r.spans.foldl (fun acc x =>
    let y := acc.2.readSpan b r.port r.rack x.1 x.2
    (acc.1 ++ [y.1], y.2)) ([], s)

/-- The bytes of a served write. -/
def State.writeReq (s : State) (b : Nat) (r : MemReq) : State :=
  r.data.foldl (fun s x => match r.who with
    | .flit _ _ => s.rackStore b x.1 x.2
    | _ => if r.rack then s.rackWrite b x.1 x.2 else s.actWrite b x.1 x.2) s

/-- A corrected word that is not written over in the meantime is written back (R308). -/
def State.writeBackDone (s : State) (b : Nat) (r : MemReq) : State := match r.who with
  | .writeBack bank row word =>
    s.modBench b fun x => { x with
      upsets := x.upsets.filter fun u => !(u.stored && u.bank = bank && u.row = row && u.word = word) }
  | _ => s

/-- A command that waits for a bank falls behind; in scheduled mode it is delayed past its schedule (R303). -/
def State.markWaits (s : State) (b : Nat) (denied : List MemReq) : State :=
  let engine (r : MemReq) : Bool := match r.who with
    | .job _ _ => true
    | .plumb _ => true
    | _ => false
  let holds (id : Nat) (r : MemReq) : Bool := match r.who with
    | .job k _ => k = id
    | _ => false
  let s := s.modBench b fun x => { x with jobs := x.jobs.map fun j => if denied.any (holds j.id) then { j with late := true } else j }
  match s.benchPart b with
  | some p => if (s.part p).scheduledRun && denied.any engine then s.mark p 7 else s
  | none => s

/-- Plumb engines of which a request waits: their phase takes a cycle longer (R834). -/
def plumbWaits (denied : List MemReq) : List Nat := [0, 1].filter fun c => denied.any fun r => r.who = .plumb c

/-- A request that is not served: it is due again in the next cycle, and later ones of a plumb engine that waits move with it. -/
def MemReq.later (r : MemReq) (now : Nat) (cs : List Nat) : MemReq :=
  if r.due ≤ now then { r with due := now + 1 }
  else match r.who with
    | .plumb c => if cs.contains c then { r with due := r.due + 1 } else r
    | _ => r

/-- The banks of a bench serve the requests that are due: every read sees the rows as they were before the cycle's writes (R304,
R306). It answers what the served requests brought. -/
def State.serveBench (s : State) (b : Nat) : State × List Served :=
  let now := s.now
  let all := (s.bench b).reqs
  let due := all.filter fun r => decide (r.due ≤ now)
  if due.isEmpty then (s, [])
  else
    let ok := due.filter (s.served b due)
    let denied := (due.filter fun r => !s.served b due r).filter MemReq.isPort
    let cs := plumbWaits denied
    let left := (all.filter fun r => decide (now < r.due) || !s.served b due r).map fun r => r.later now cs
    let s := (s.modBench b fun x =>
      { x with reqs := left, spd := { x.spd with waits := satAdd32 x.spd.waits denied.length } }).markWaits b denied
    let s := cs.foldl (fun s c => s.modCore b c fun k =>
      { k with plb := { k.plb with job := k.plb.job.map fun j => { j with wait := j.wait + 1 } } }) s
    let s := (ok.filter MemReq.isPort).foldl (fun s r => (s.leaseBreach b r.bank r.port).clashes b ok denied r) s
    let reads := (ok.filter fun r => !r.write).foldl (fun (acc : State × List Served) r =>
      let y := acc.1.readReq b r
      (y.2, acc.2 ++ [(r, y.1)])) (s, [])
    let writes := ok.filter fun r => r.write
    let s := writes.foldl (fun s r => (s.writeReq b r).writeBackDone b r) reads.1
    (s, reads.2 ++ writes.map fun r => (r, []))

end Sys2Proof.Machine
end

