-- ==== Sys2Proof/Machine/Sync.lean ====
section
/-! DEFINITION. Tallies, credits and hurdles (09_tallies_and_hurdles.md R406 to R433; 04 R185 to R188). -/

namespace Sys2Proof.Machine

/-! ## Tallies (R410 to R414) -/

/-- A tally of a core. -/
def Core.tally (k : Core) (i : Nat) : Nat := getNat k.tallies i
/-- What waits took from a tally in this cycle (R414 step 2). -/
def Core.takenNow (k : Core) (now i : Nat) : Nat := if k.takenAt = now then getNat k.taken i else 0
/-- A consuming wait takes n (R411). -/
def Core.take (k : Core) (now i n : Nat) : Core :=
  { k with tallies := setNat i (k.tally i - n) k.tallies
           taken := setNat i (k.takenNow now i + n) (if k.takenAt = now then k.taken else [])
           takenAt := now }

/-- The index of a tally for a context's work: an adopted slot's tallies lie in the upper half (R599). -/
def State.tallyOf (s : State) (p b ctx i : Nat) : Nat :=
  if s.adoptedCtx p b ctx then i + 64 * ((s.part p).tallyBlocks / 2) else i

/-- N and PEEK of a WAIT_VALUE (R411). -/
def waitN (v : Nat) : Nat := v % 32768
def waitPeek (v : Nat) : Bool := bitOf v 15

/-- A signal joins those of the next cycle (R178). -/
def State.signal (s : State) (b c key tally delta ctx : Nat) : State :=
  s.modCore b c fun k => { k with signals := k.signals ++ [{ key := key, tally := tally, delta := delta, ctx := ctx }] }

/-- Signals in the order of R412: command queues, stream slots, the ring port. -/
def insertSignal (x : Signal) : List Signal → List Signal
  | [] => [x]
  | y :: ys => if x.key < y.key then x :: y :: ys else y :: insertSignal x ys
def sortSignals (xs : List Signal) : List Signal := xs.foldl (fun acc x => insertSignal x acc) []

/-- The first signal at which the running sum passes 0xFFFF (R412). -/
def faultingSignal : Nat → List Signal → Option Signal
  | _, [] => none
  | v, x :: xs => if 0xFFFF < v + x.delta then some x else faultingSignal (v + x.delta) xs

/-- TALLY_FAULT, its tally and queue (R412). -/
def Core.tallyFault (k : Core) (x : Signal) : Core :=
  { k with tlyFault := if k.tlyFault.getLsbD 0 then k.tlyFault
      else BitVec.ofNat 32 (1 + field x.tally 8 13 + field (if x.key < 40 then x.key else 63) 22 6) }

/-- The signals of a cycle on one tally: applied together or not at all (R412, R414 step 1). -/
def State.applyTally (s : State) (b c i : Nat) (xs : List Signal) : State :=
  let k := s.core b c
  match faultingSignal (k.tally i) (sortSignals xs) with
  | none => s.modCore b c fun k => { k with tallies := setNat i (k.tally i + (xs.map (·.delta)).sum) k.tallies }
  | some x =>
    let s := ((s.modCore b c fun k => k.tallyFault x).raise (benchKey b (3 + c)) 0).ctxError b c x.ctx
    match s.benchPart b with
    | some p => s.abort p { status := stABORTED, detail := 0x65
                            r1 := BitVec.ofNat 64 (256 * (if x.key < 40 then x.key else 63)) }
    | none => s

/-- Every signal of the cycle of a core. -/
def State.applySignals (s : State) (b c : Nat) : State :=
  let xs := (s.core b c).signals
  let tallies := (xs.map (·.tally)).eraseDups
  tallies.foldl (fun s i => s.applyTally b c i (xs.filter fun x => x.tally = i))
    (s.modCore b c fun k => { k with signals := [] })

/-! ## Credits (R185 to R188) -/

/-- Credits of a context on a link. -/
def Core.credit (k : Core) (ctx link : Nat) : Nat := k.credits.getD (6 * ctx + link) 0
def Core.creditMax (k : Core) (ctx link : Nat) : Nat := k.creditStart.getD (6 * ctx + link) 0
/-- The list of credits with one entry changed. -/
def Core.setCredit (k : Core) (ctx link v : Nat) : Core :=
  { k with credits := ((k.credits ++ List.replicate (48 - k.credits.length) 0).set (6 * ctx + link) v) }

/-- A consuming engine has used n buffer units of a context's link: their credits return at the start of the next cycle, before that
cycle's deductions (R186, R187). -/
def State.creditReturn (s : State) (b c ctx link n : Nat) : State :=
  if n = 0 then s else s.modCore b c fun k => { k with returns := k.returns ++ [(ctx, link, n)] }

/-- A return of credits is applied; above the starting count the context goes to ERROR and the run is aborted, detail 0x68 (R188).
Nothing happens outside credit mode (R182). -/
def State.applyReturn (s : State) (b c ctx link n : Nat) : State :=
  match s.benchPart b with
  | none => s
  | some p => match (s.part p).task with
    | none => s
    | some t =>
      let k := s.core b c
      if !t.credit then s
      else if k.creditMax ctx link < k.credit ctx link + n then
        (s.ctxError b c ctx).abort p { status := stABORTED, detail := 0x68 }
      else s.modCore b c fun k => k.setCredit ctx link (k.credit ctx link + n)

/-- The returns of the cycle before. -/
def State.applyReturns (s : State) (b c : Nat) : State :=
  (s.core b c).returns.foldl (fun s r => s.applyReturn b c r.1 r.2.1 r.2.2) (s.modCore b c fun k => { k with returns := [] })

/-! ## Hurdles (R421 to R433) -/

/-- The participant of a queue: 10 × slot + 5 × core + engine (R420). -/
def participant (slot c q : Nat) : Nat := 10 * slot + 5 * c + engineOf q

/-- The cycle from which a released command may issue, relative to an arrival counted in cycle r (R424). -/
def releaseCycle (r a mine : Nat) : Nat :=
  if a / 5 = mine / 5 then r + 1 else if a / 10 = mine / 10 then r + 2 else r + 4

/-- The earliest over the arrivals counted in cycle r. -/
def releaseAt (r : Nat) (last : List Nat) (mine : Nat) : Nat :=
  last.foldl (fun acc a => min acc (releaseCycle r a mine)) (r + 4)

/-- Queues of a partition that wait at hurdle h: bench, core, queue, arrival. -/
def State.waiters (s : State) (p h : Nat) : List (Nat × Nat × Nat × Arrival) :=
  (s.activeBenches p).flatMap fun b => [0, 1].flatMap fun c => (List.range 40).filterMap fun q =>
    match (s.queue b c q).arrival with
    | some a => if a.hurdle = h then some (b, c, q, a) else none
    | none => none

/-- The participant of a waiting queue. -/
def State.waiterPart (s : State) (p : Nat) (x : Nat × Nat × Nat × Arrival) : Nat :=
  participant (s.slotOf p x.1 (ctxOf x.2.2.1)) x.2.1 x.2.2.1

/-- Hurdle h of a partition. -/
def Part.hurdle (x : Part) (h : Nat) : Hurdle := x.hurdles.getD h {}
def State.modHurdle (s : State) (p h : Nat) (f : Hurdle → Hurdle) : State :=
  s.modPart p fun x => { x with hurdles := x.hurdles.modify h f }

/-- Every participant has arrived. -/
def Hurdle.full (x : Hurdle) : Bool := x.parts.all fun a => x.arrived.contains a || x.missing.contains a

/-- The round releases in the cycle of its last arrivals: the sense bit flips, and each counted command learns its cycle (R424). -/
def State.releaseRound (s : State) (p h : Nat) (last : List Nat) : State :=
  let s := s.modHurdle p h fun x => { x with released := true, sense := !x.sense }
  (s.waiters p h).foldl (fun s w =>
    if w.2.2.2.held then s
    else s.modQueue w.1 w.2.1 w.2.2.1 fun q =>
      { q with arrival := some { w.2.2.2 with freeAt := some (releaseAt s.now last (s.waiterPart p w)) } }) s

/-- The arrivals counted in this cycle at hurdle h, of the current round. -/
def State.countedNow (s : State) (p h : Nat) : List Nat :=
  ((s.waiters p h).filter fun w => !w.2.2.2.held && decide (w.2.2.2.at_ = s.now)).map (s.waiterPart p)

/-- HRD_FAULT: the bit, and the capture of the first event (R428, R429). -/
def State.hurdleFault (s : State) (p bit h slot c q : Nat) : State :=
  (s.modPart p fun x =>
    { x with hrdFault := if x.hrdFault &&& 3#32 = 0 then
        BitVec.ofNat 32 (2 ^ bit + field h 2 8 + field slot 10 4 + field c 14 1 + field (engineOf q) 15 3 + field (ctxOf q) 18 3)
      else setBit x.hrdFault bit }).raise (hurdleKey p) bit

/-- The hurdle is poisoned: contexts with a command waiting at it go to ERROR, and the task is aborted with HURDLE_OVERRUN (R428,
R430). -/
def State.poison (s : State) (p h b c q : Nat) : State :=
  let slot := s.slotOf p b (ctxOf q)
  let s := (s.hurdleFault p 0 h slot c q).modHurdle p h fun x => { x with poisoned := true }
  let s := (s.waiters p h).foldl (fun s w => s.ctxError w.1 w.2.1 (ctxOf w.2.2.1)) (s.ctxError b c (ctxOf q))
  s.abort p { status := stOVERRUN }

/-- The queue's arrival is recorded. -/
def State.setArrival (s : State) (b c q h : Nat) (held : Bool) (freeAt : Option Nat) : State :=
  s.modQueue b c q fun x => { x with arrival := some { hurdle := h, held := held, freeAt := freeAt, at_ := s.now } }

/-- A queue arrives at a hurdle (R422, R423, R428, R429, R431, R833). -/
def State.arrive (s : State) (p b c q h : Nat) : State :=
  let slot := s.slotOf p b (ctxOf q)
  let a := participant slot c q
  let x := (s.part p).hurdle h
  if (s.part p).hurdleCount ≤ h || !x.parts.contains a then
    (s.hurdleFault p 1 h slot c q).faultAbort b c q 0x66 0
  else if x.poisoned then s
  else if x.released && x.missing.contains a then
    (s.setArrival b c q h false (some (s.now + 1))).modHurdle p h fun x =>
      { x with arrived := a :: x.arrived, missing := x.missing.filter (· != a) }
  else if !x.arrived.contains a then
    let s := (s.setArrival b c q h false none).modHurdle p h fun x => { x with arrived := a :: x.arrived }
    if ((s.part p).hurdle h).full then s.releaseRound p h (s.countedNow p h) else s
  else if !x.early.contains a then
    (s.setArrival b c q h true none).modHurdle p h fun x => { x with early := a :: x.early }
  else s.poison p h b c q

/-- Every participant of the released round has acknowledged (R426, R833). -/
def Hurdle.allAcked (x : Hurdle) : Bool := x.released && x.missing.isEmpty && x.parts.all fun a => x.acked.contains a

/-- A released command issues: its participant acknowledges, and the round may be complete (R425, R426). -/
def State.acknowledge (s : State) (p b c q h : Nat) : State :=
  let a := participant (s.slotOf p b (ctxOf q)) c q
  let step := (s.queue b c q).stepHeads.length
  let s := (s.modQueue b c q fun x => { x with arrival := none }).modHurdle p h fun x =>
    { x with acked := a :: x.acked, ackLog := (a, step) :: x.ackLog }
  if ((s.part p).hurdle h).allAcked then s.modHurdle p h fun x => { x with moveAt := some (s.now + 1) } else s

/-- The cycle after a round is complete: a new round opens, and the early arrivals are counted into it (R426). -/
def State.moveEarly (s : State) (p h : Nat) : State :=
  let early := ((s.part p).hurdle h).early
  let s := s.modHurdle p h fun x =>
    { x with released := false, arrived := early, acked := [], early := [], moveAt := none }
  let s := (s.waiters p h).foldl (fun s w =>
    if w.2.2.2.held then s.modQueue w.1 w.2.1 w.2.2.1 fun q =>
      { q with arrival := some { w.2.2.2 with held := false, at_ := s.now } } else s) s
  if ((s.part p).hurdle h).full && !early.isEmpty then s.releaseRound p h early else s

/-- Acknowledgements by commands of steps up to k are counted as committed. -/
def Hurdle.settleAcks (x : Hurdle) (k : Nat) : Hurdle :=
  { x with counts := (x.ackLog.filter fun e => decide (e.2 ≤ k)).foldl (fun m e => setNat e.1 (getNat m e.1 + 1) m) x.counts
           ackLog := x.ackLog.filter fun e => decide (k < e.2) }

/-- The hurdle state a commit records: only what commands of committed steps did. A participant has acknowledged as many rounds
as its commands of committed steps; the round some have acknowledged and others not has released, and the others' arrivals are
left out (R832, R833). -/
def Hurdle.snapshot (x : Hurdle) : Hurdle :=
  let n := x.parts.foldl (fun m a => max m (getNat x.counts a)) 0
  let behind := x.parts.filter fun a => getNat x.counts a < n
  let ahead := if behind.isEmpty then [] else x.parts.filter fun a => getNat x.counts a = n
  { parts := x.parts, counts := x.counts, sense := n % 2 = 1, released := !behind.isEmpty
    arrived := ahead, acked := ahead, missing := behind }

end Sys2Proof.Machine
end

