-- ==== Sys2Proof/Machine/Issue.lean ====
section
/-! DEFINITION. When the head command of a queue may issue, and what every issue does (04 R169 to R189; 06 R265, R282; 08 R360,
R363, R367; 09 R411, R414; 03 R125; 10 R434). -/

namespace Sys2Proof.Machine

/-! ## Resources of an adopted slot (R599) -/

/-- Relocated slot, table, generator slot and store offsets of a context's work. -/
def State.reloc (s : State) (p b ctx : Nat) (own add : Nat) : Nat := if s.adoptedCtx p b ctx then own + add else own
def State.rackOff (s : State) (p b ctx o : Nat) : Nat := s.reloc p b ctx o 33554432
def State.actOff (s : State) (p b ctx o : Nat) : Nat := s.reloc p b ctx o 25165824
def State.slotIdx (s : State) (p b ctx i : Nat) : Nat := s.reloc p b ctx i 32
def State.tableIdx (s : State) (p b ctx i : Nat) : Nat := s.reloc p b ctx i 16
def State.genIdx (s : State) (p b ctx i : Nat) : Nat := s.reloc p b ctx i 2
/-- A 256-byte unit, and a row, of the activation store. -/
def State.unit (s : State) (p b ctx u : Nat) : Nat := s.reloc p b ctx u 98304
def State.actRow (s : State) (p b ctx row : Nat) : Nat := s.reloc p b ctx row 6144

/-! ## Data that a scheduled command waits for (R132, R181) -/

/-- A range of a bench's rack (true) or activation store: offset and bytes. -/
abbrev Span := Bool × Nat × Nat

/-- Two ranges share a byte. -/
def meets (x y : Span) : Bool := x.1 = y.1 && decide (x.2.1 < y.2.1 + y.2.2) && decide (y.2.1 < x.2.1 + x.2.2)

/-- The descriptor of a command's generator slot, where it is valid. -/
def State.genAt (s : State) (p b c q : Nat) (cmd : Cmd) : Option Gen :=
  let x := (s.core b c).mx.gens.getD (s.genIdx p b (ctxOf q) cmd.genSlot) {}
  if x.valid then some (genOf x.desc) else none

/-- Units that a streaming command writes. -/
def Cmd.unitsOut (c : Cmd) : Nat :=
  if c.accMode = 0 || c.accMode = 3 then c.arrays.length * c.rowsM * (if c.outLa64 then 4 else 1) else 0

/-- What a matrix, vector or rail command reads of its bench's stores. -/
def State.inputs (s : State) (p b c q : Nat) (cmd : Cmd) : List Span :=
  let ctx := ctxOf q
  let units (u n : Nat) : Span := (false, 256 * s.unit p b ctx u, 256 * n)
  let rows (r n : Nat) : Span := (false, 4096 * s.actRow p b ctx r, 4096 * n)
  if engineOf q = 0 then
    if cmd.opcode = 0x10 then
      (true, s.rackOff p b ctx (32768 * cmd.tile), 32768) :: (if cmd.biasLoad then [units cmd.biasSrc 1] else [])
    else if cmd.opcode = 0x11 then (if cmd.queueFed || cmd.rowsM = 0 then [] else [units cmd.srcM (cmd.rowsM + 127)])
    else if cmd.opcode = 0x12 then (match s.genAt p b c q cmd with
      | some g => (g.rows cmd).filterMap fun u => u.map fun x => units x 1
      | none => [])
    else if cmd.opcode = 0x13 then [units cmd.desc 1] else []
  else if engineOf q = 1 || engineOf q = 2 then
    if cmd.opcode < 0x40 then []
    else
      let n := cmd.vecRows
      [rows cmd.src1 n.1, rows cmd.src2 n.2.1] ++ (if cmd.opcode = 0x82 then [rows cmd.dst n.2.2] else []) ++
        (if cmd.isRail then [(true, s.rackOff p b ctx cmd.weights, 2 * cmd.railIn * (2048 * cmd.vlen))] else [])
  else []

/-- What a command in work still writes, as one range. -/
def State.outputs (s : State) (b : Nat) (j : Job) : Span :=
  let ctx := ctxOf j.q
  match j.kind with
  | .load => (false, 0, 0)
  | .vec => (false, 4096 * s.actRow j.p b ctx j.cmd.dst, 4096 * j.cmd.vecRows.2.2)
  | .rail => (false, 4096 * s.actRow j.p b ctx j.cmd.dst, 4096 * j.cmd.vecRows.2.2)
  | _ => (false, 256 * s.unit j.p b ctx j.cmd.dstM, 256 * j.cmd.unitsOut)

/-- In a scheduled run, the input data of a command are ready: no command behind its schedule has still to write them, no overdue
baton has still to arrive in them, and no dowel transfer to them is outstanding (DESIGN CHOICE, log entry 58). -/
def State.dataReady (s : State) (p b c q : Nat) (cmd : Cmd) : Bool :=
  let x := s.bench b
  let late := ((x.jobs.filter (·.late)).map (s.outputs b)) ++ (x.port.overdue.map fun r => (true, r.1, r.2)) ++
    x.cores.flatMap (fun k => (k.dma.reads.filter fun r => r.slot = 64 && decide (r.dstSpace < 2)).map fun r =>
      (decide (r.dstSpace = 1), r.dst, r.len))
  late.isEmpty || (s.inputs p b c q cmd).all fun i => !late.any (meets i)

/-! ## When a run issues -/

/-- Cycle at which a scheduled command issues (R180), moved by the cumulative shift (R318, R376, R464). -/
def State.scheduledAt (s : State) (t : Task) (c : Cmd) : Nat := t.startAt + (c.issueBeat + t.shift) * s.m + c.issueCc

/-- The engines of a run work on: nothing stops it, or, in credit mode, only a replacement does, in whose splice window the engines
continue on resident data (R152). -/
def Part.enginesRun (x : Part) (t : Task) : Bool := match x.stop with
  | .none => true
  | .takeover _ => t.credit
  | _ => false

/-- The partition issues commands: a run is launched and its engines run. -/
def State.issuing (s : State) (p : Nat) : Option Task :=
  match (s.part p).task with
  | some t => if (s.part p).enginesRun t && decide (t.startAt ≤ s.now) && decide (t.resumeAt ≤ s.now) then some t else none
  | none => none

/-- The bench computes: ACTIVE, in P0, and no BCH sequence running. -/
def Bench.computes (x : Bench) : Bool := x.state = .active && x.power = 0 && x.resetUntil.isNone

/-! ## Units of the engines -/

/-- The array takes a command of queue q: west bus free, not held by another queue (R264, R265, R287). -/
def ArraySt.takes (x : ArraySt) (q : Nat) : Bool :=
  x.bus = .free && (match x.held with
    | some h => h = q
    | none => true)

/-- A slot's descriptor is persistent. -/
def Slot.persistent (x : Slot) : Bool := bitOf (Bytes.nat x.raw 3 1) 1
/-- The arming has started its last tile (R362). -/
def Slot.exhausted (x : Slot) : Bool := decide (x.armBase + x.count ≤ x.started)

/-- A plumb command occupies the engine (R434). -/
def Plb.busy (x : Plb) (now : Nat) : Bool := match x.job with
  | some j => if j.kind = .delta then decide (now < j.endAt + j.wait) else true
  | none => false

/-- A lap lacks the part of a slot. -/
def Lap.lacks (l : Lap) (adopted : Bool) : Bool := !l.started && !l.parts.any fun x => x.adopted = adopted

/-- The ring port has a place for a part of a lap: one that lacks it, or a free one (R125, R599). -/
def RingPort.takes (x : RingPort) (adopted : Bool) : Bool :=
  match x.lap, x.next with
  | some l, some n => l.lacks adopted || n.lacks adopted
  | _, _ => true

/-- The unit of the command can take it now. -/
def State.unitReady (s : State) (p b c q : Nat) (cmd : Cmd) : Bool :=
  let k := s.core b c
  let ctx := ctxOf q
  if engineOf q = 4 then !k.plb.busy s.now
  else if cmd.opcode = 0x10 || cmd.opcode = 0x11 then cmd.arrays.all fun a => (k.array a).takes q
  else if cmd.opcode = 0x12 then
    cmd.arrays.all (fun a => (k.array a).takes q) &&
      decide ((k.mx.gens.getD (s.genIdx p b ctx cmd.genSlot) {}).readyAt ≤ s.now)
  else if cmd.opcode = 0x13 then
    !(s.bench b).jobs.any fun j => j.c = c && j.kind = .conv && !j.gens.isEmpty && j.gen = s.genIdx p b ctx cmd.genSlot
  else if cmd.opcode = 0xA0 then
    let x := k.slot (s.slotIdx p b ctx (cmd.a 5 0))
    !x.busy || x.persistent
  else if cmd.opcode = 0xA2 then
    let x := k.slot (s.slotIdx p b ctx (cmd.a 5 0))
    !(x.busy && x.persistent) || x.exhausted
  else if cmd.opcode = 0xA3 then decide (k.dma.dowels.length < 64)
  else if cmd.opcode = 0xA4 then (s.bench b).port.takes (s.adoptedCtx p b ctx)
  else true

/-! ## Conditions of one queue -/

/-- Every condition of the head command but its tally wait and the choice among contexts. -/
def State.preReady (s : State) (b c q : Nat) : Option (Nat × Task × Cmd) :=
  match s.headCmd b c q with
  | none => none
  | some (p, cmd) => match s.issuing p with
    | none => none
    | some t =>
      let k := s.core b c
      let e := engineOf q
      let hurdle := !cmd.hurdleEn || (match (k.queue q).arrival with
        | some a => (match a.freeAt with
          | some f => !a.held && decide (f ≤ s.now)
          | none => false)
        | none => false)
      let mode := if t.credit then cmd.creditLink = 0 || decide (cmd.creditCount ≤ k.credit (ctxOf q) cmd.creditLink)
        else decide (s.scheduledAt t cmd ≤ s.now) && s.dataReady p b c q cmd
      if (s.bench b).computes && k.ctxState.getD (ctxOf q) 0 != 4 && cmd.valid q && decide (k.lastIssue.getD e 0 ≤ s.now) &&
          decide (k.busyUntil.getD e 0 ≤ s.now) && hurdle && mode && s.unitReady p b c q cmd
      then some (p, t, cmd) else none

/-- What is left of a tally for the consuming wait of queue q, after the waits of lower queues (R414 step 3). -/
def State.tallyLeft (s : State) (b c q i : Nat) : Nat :=
  (List.range q).foldl (fun v q' =>
    match s.preReady b c q' with
    | some (p, t, cmd) =>
      if t.credit && cmd.waitEn && !waitPeek cmd.waitValue && s.tallyOf p b (ctxOf q') cmd.waitTally = i &&
          decide (waitN cmd.waitValue ≤ v) then v - waitN cmd.waitValue else v
    | none => v) ((s.core b c).tally i)

/-- The tally wait of a command holds (R411, R414). -/
def State.waitHolds (s : State) (p b c q : Nat) (cmd : Cmd) : Bool :=
  let i := s.tallyOf p b (ctxOf q) cmd.waitTally
  !cmd.waitEn || waitN cmd.waitValue = 0 ||
    (if waitPeek cmd.waitValue then decide (waitN cmd.waitValue ≤ (s.core b c).tally i + (s.core b c).takenNow s.now i)
     else decide (waitN cmd.waitValue ≤ s.tallyLeft b c q i))

/-- The head command may issue but for the choice among contexts. -/
def State.ready (s : State) (b c q : Nat) : Option (Nat × Task × Cmd) :=
  match s.preReady b c q with
  | some (p, t, cmd) => if !t.credit || s.waitHolds p b c q cmd then some (p, t, cmd) else none
  | none => none

/-- The head command of a queue meets the issue conditions of credit mode (R184), whatever its engine does. -/
def State.issuable (s : State) (b c q : Nat) : Option (Nat × Task × Cmd) :=
  match s.headCmd b c q with
  | none => none
  | some (p, cmd) => match s.issuing p with
    | none => none
    | some t =>
      let k := s.core b c
      let hurdle := !cmd.hurdleEn || (match (k.queue q).arrival with
        | some a => (match a.freeAt with
          | some f => !a.held && decide (f ≤ s.now)
          | none => false)
        | none => false)
      let tally := !cmd.waitEn || decide (waitN cmd.waitValue ≤ k.tally (s.tallyOf p b (ctxOf q) cmd.waitTally))
      let credit := cmd.creditLink = 0 || decide (cmd.creditCount ≤ k.credit (ctxOf q) cmd.creditLink)
      if t.credit && (s.bench b).computes && k.ctxState.getD (ctxOf q) 0 != 4 && cmd.valid q && hurdle && tally && credit
      then some (p, t, cmd) else none

/-! ## The choice among contexts (R189; scheduled mode R181) -/

/-- Token weight of a context for an engine. -/
def Core.token (k : Core) (ctx e : Nat) : Nat := if k.tokens = [] then 1 else k.tokens.getD (5 * ctx + e) 1

/-- Weighted round robin over the ready contexts. -/
def wrrPick (weight : Nat → Nat) (turn used : Nat) (ready : List Nat) : Option Nat :=
  if ready.contains turn && decide (used < weight turn) then some turn
  else match ready.find? fun c => decide (turn < c) with
    | some c => some c
    | none => ready.head?

/-- Contexts whose head command of engine e may issue, ascending. -/
def State.readyCtxs (s : State) (b c e : Nat) : List Nat := (List.range 8).filter fun x => (s.ready b c (5 * x + e)).isSome

/-- In scheduled mode the earlier scheduled cycle goes first, then the lower queue. -/
def State.earliest (s : State) (b c e : Nat) : Option Nat :=
  (s.readyCtxs b c e).foldl (fun best x =>
    match s.ready b c (5 * x + e), best with
    | some _, none => some x
    | some (_, t, cmd), some y => (match s.ready b c (5 * y + e) with
      | some (_, t', cmd') => if s.scheduledAt t cmd < s.scheduledAt t' cmd' then some x else some y
      | none => some x)
    | none, y => y) none

/-- The context that the engine takes. -/
def State.pick (s : State) (b c e : Nat) (credit : Bool) : Option Nat :=
  let k := s.core b c
  let w := k.wrr.getD e (0, 0)
  if credit then wrrPick (fun x => k.token x e) w.1 w.2 (s.readyCtxs b c e) else s.earliest b c e

/-- The head command of the queue is the named opcode and issues now: partition, run, command. -/
def State.mayIssue (s : State) (b c q op : Nat) : Option (Nat × Task × Cmd) :=
  match s.ready b c q with
  | some (p, t, cmd) =>
    if cmd.opcode = op && s.pick b c (engineOf q) t.credit = some (ctxOf q) then some (p, t, cmd) else none
  | none => none

/-! ## What every issue does -/

/-- The round-robin record after an issue by a context. -/
def wrrAfter (weight : Nat → Nat) (w : Nat × Nat) (ctx : Nat) : Nat × Nat :=
  if w.1 = ctx && decide (w.2 < weight ctx) then (ctx, w.2 + 1) else (ctx, 1)

/-- Core-side record of an issue: one command per engine and cycle (R171), the turn, tokens, credits. -/
def Core.issued (k : Core) (now q : Nat) (t : Task) (cmd : Cmd) : Core :=
  let e := engineOf q
  let ctx := ctxOf q
  let k := { k with lastIssue := k.lastIssue.set e (now + 1)
                    wrr := k.wrr.set e (wrrAfter (fun x => k.token x e) (k.wrr.getD e (0, 0)) ctx)
                    idleSince := k.idleSince.set e (now + 1) }
  if t.credit && cmd.creditLink != 0 then k.setCredit ctx cmd.creditLink (k.credit ctx cmd.creditLink - cmd.creditCount) else k

/-- Queue-side record of an issue: HEAD moves on and the command is in flight. -/
def Queue.issued (x : Queue) (cmd : Cmd) (now doneAt : Nat) (on : Until) : Queue :=
  { x with head := x.after x.head 1, since := none
           inflight := x.inflight ++ [{ cmd := cmd, issued := now, doneAt := doneAt, on := on, step := x.stepHeads.length }]
           stepHeads := if cmd.stepEnd then x.after x.head 1 :: x.stepHeads else x.stepHeads
           ended := x.ended || cmd.opcode = 0x02 }

/-- The first issue of the step, or of a later one, is noted. -/
def Task.noteIssue (t : Task) (step period : Nat) : Task :=
  if step ≤ t.step then { t with firstIssue := some (t.firstIssue.getD period) }
  else { t with nextIssue := some (t.nextIssue.getD period) }

/-- A command issues. It has the unit's answer doneAt; until then, or until its condition, it is in flight. -/
def State.issue (s : State) (p : Nat) (t : Task) (b c q : Nat) (cmd : Cmd) (doneAt : Nat) (on : Until) : State :=
  let late := !t.credit && decide (s.scheduledAt t cmd < s.now)
  let s := s.modPart p fun x =>
    { x with task := some (t.noteIssue (s.queue b c q).stepHeads.length s.beat.periods) }
  let s := if late then s.mark p 7 else s
  let i := s.tallyOf p b (ctxOf q) cmd.waitTally
  let s := s.modCore b c fun k =>
    let k := if t.credit && cmd.waitEn && !waitPeek cmd.waitValue then k.take s.now i (waitN cmd.waitValue) else k
    k.issued s.now q t cmd
  let s := if cmd.hurdleEn then s.acknowledge p b c q cmd.hurdle else s
  s.modQueue b c q fun x => x.issued cmd s.now doneAt on

/-- What commands of a queue waited for has come about: they complete from this cycle on. -/
def Queue.settle (x : Queue) (u : Until) (now : Nat) : Queue :=
  { x with inflight := x.inflight.map fun i => if i.on = u then { i with on := .time, doneAt := now } else i }
def State.settleOn (s : State) (b c : Nat) (u : Until) (at_ : Nat) : State :=
  s.modCore b c fun k => { k with queues := k.queues.map fun x => x.settle u at_ }

/-- The engine takes no further command before a cycle. -/
def State.busy (s : State) (b c e until_ : Nat) : State :=
  s.modCore b c fun k => { k with busyUntil := k.busyUntil.set e until_ }

/-! ## Bench windows -/

/-- The function may reach the bench window, and the window is served (R810, R815, R816, R718). -/
def State.windowOpen (s : State) (fn b : Nat) : Bool :=
  s.running && decide (b < s.nSeats) && (fn = 0 || (match s.benchPart b with
    | some p => fn = p + 1
    | none => false)) && (s.bench b).power != 2 && (s.bench b).resetUntil.isNone && !s.glb.asleep

end Sys2Proof.Machine
end

