-- ==== Sys2Proof/Machine/Queue.lean ====
section
/-! DEFINITION. Commands of every engine and of the queues: NOP, JOG, END, BAD_ENTRY, COMMAND_COMPLETE, QUEUE_DOORBELL,
HURDLE_ARRIVAL, EARLY_ARRIVAL_MOVE (04_engines_queues_programs.md, 09_tallies_and_hurdles.md). -/

namespace Sys2Proof.Machine

/-- An engine command with no effect issues (R175). It is complete in its cycle of issue (DEDUCED, log entry 15). -/
def nopEffect (b c q : Nat) (s : State) : State :=
  match s.mayIssue b c q 0x00 with
  | some (p, t, cmd) => s.issue p t b c q cmd s.now .time
  | none => s
def execNop (b c q : Nat) (s : State) : Host.Outcome State Fault Refusal := done s (nopEffect b c q)

/-- A JOG occupies its engine for OPERAND_A[15:0] cc (R175, R271). -/
def jogEffect (b c q : Nat) (s : State) : State :=
  match s.mayIssue b c q 0x01 with
  | some (p, t, cmd) =>
    let e := s.now + cmd.a 15 0
    let s := (s.issue p t b c q cmd e .time).busy b c (engineOf q) e
    if engineOf q = 0 then s.modCore b c fun k => k.modMx fun m => { m with jogCmdEnd := e } else s
  | none => s
def execJog (b c q : Nat) (s : State) : Host.Outcome State Fault Refusal := done s (jogEffect b c q)

/-- END stops the queue's fetch until the next run (R175). -/
def endEffect (b c q : Nat) (s : State) : State :=
  match s.mayIssue b c q 0x02 with
  | some (p, t, cmd) => s.issue p t b c q cmd s.now .time
  | none => s
def execEndQueue (b c q : Nat) (s : State) : Host.Outcome State Fault Refusal := done s (endEffect b c q)

/-- A reserved opcode or a wrong ENGINE at the head: BAD_ENTRY, context ERROR, abort with detail 0x67 (R204). -/
def badEntryEffect (b c q : Nat) (s : State) : State :=
  match s.headCmd b c q with
  | some (p, cmd) =>
    if (s.issuing p).isSome && !cmd.valid q && (s.bench b).computes then
      ((s.modQueue b c q fun x => { x with status := setBit x.status 1 }).raise (queueKey b c q) 1).faultAbort b c q 0x67 0
    else s
  | none => s
def execBadEntry (b c q : Nat) (s : State) : Host.Outcome State Fault Refusal := done s (badEntryEffect b c q)

/-! ## Completion (R169, R178) -/

/-- The oldest command of a queue has completed: its time has come, and what it waited for is done. -/
def InFlight.ended (i : InFlight) (now : Nat) : Bool := i.on = .time && decide (i.doneAt ≤ now)

/-- A queue's oldest command completes: its signal applies in the next cycle (R178). -/
def completeEffect (b c q : Nat) (s : State) : State :=
  match (s.queue b c q).inflight with
  | [] => s
  | i :: rest =>
    if i.ended s.now then
      let s := s.modQueue b c q fun x => { x with inflight := rest, lastDone := s.now,
                                                  stepsDone := if i.cmd.stepEnd then x.stepsDone + 1 else x.stepsDone
                                                  stepAt := if i.cmd.stepEnd then s.now else x.stepAt }
      match s.benchPart b with
      | some p => match (s.part p).task with
        | some t =>
          if t.credit && i.cmd.sigEn then
            s.signal b c q (s.tallyOf p b (ctxOf q) i.cmd.sigTally) i.cmd.sigDelta (ctxOf q)
          else s
        | none => s
      | none => s
    else s
def execCommandComplete (b c q : Nat) (s : State) : Host.Outcome State Fault Refusal := done s (completeEffect b c q)

/-! ## Hurdles -/

/-- The queue arrives at its head command's hurdle in this cycle: every earlier command has completed, in an earlier cycle (R176,
R422). -/
def State.arrivesNow (s : State) (b c q : Nat) : Option (Nat × Cmd) :=
  match s.headCmd b c q with
  | some (p, cmd) =>
    let x := s.queue b c q
    if (s.issuing p).isSome && cmd.hurdleEn && cmd.valid q && x.inflight.isEmpty && x.arrival.isNone &&
        (x.lastDone = 0 || decide (x.lastDone < s.now)) && (s.bench b).computes then some (p, cmd) else none
  | none => none

/-- In the cycle after a round is complete, early arrivals are counted (R426). -/
def earlyArrivalMoveEffect (p h : Nat) (s : State) : State :=
  match ((s.part p).hurdle h).moveAt with
  | some t => if t ≤ s.now then s.moveEarly p h else s
  | none => s
def execEarlyArrivalMove (p h : Nat) (s : State) : Host.Outcome State Fault Refusal := done s (earlyArrivalMoveEffect p h)

/-- One queue's arrival, behind the early arrivals that move in its cycle (R423). -/
def State.arriveNow (s : State) (b c q : Nat) : State := match s.arrivesNow b c q with
  | some (p, cmd) => (earlyArrivalMoveEffect p cmd.hurdle s).arrive p b c q cmd.hurdle
  | none => s

/-- HURDLE_ARRIVAL: arrivals of one engine in one cycle come in ascending context order, so those of lower contexts come first (R423). -/
def hurdleArrivalEffect (b c q : Nat) (s : State) : State := match s.arrivesNow b c q with
  | some _ => (List.range (ctxOf q + 1)).foldl (fun s x => s.arriveNow b c (5 * x + engineOf q)) s
  | none => s
def execHurdleArrival (b c q : Nat) (s : State) : Host.Outcome State Fault Refusal := done s (hurdleArrivalEffect b c q)

/-! ## Doorbells (R200 to R203) -/

/-- BAR0 offset of a queue's register. -/
def queueRegister (b c q off : Nat) : Nat := 0x1000000 + 0x100000 * b + 0x40000 + 0x10000 * c + 0x20 * q + off

/-- Queue registers take writes: LOADED or RUNNING in credit mode (R203). -/
def State.queueWritable (s : State) (b : Nat) : Bool :=
  match s.benchPart b with
  | some p => (s.part p).credit && ((s.part p).shownState = .loaded || (s.part p).shownState = .running) && !(s.part p).scheduledRun
  | none => false

/-- A write of BCH_CORE_QUEUE_TAIL is captured; it takes effect at a gate (R200). -/
def queueDoorbellEffect (fn b c q : Nat) (word : W32) (s : State) : State :=
  if !s.windowOpen fn b then s
  else if !s.queueWritable b then s.writeLocked (queueRegister b c q 0x10) fn
  else { s with doorbells := s.doorbells ++ [(s.beat.periods, fn, b, c, q, word.toNat % 2 ^ 17)] }
def execQueueDoorbell (fn b c q : Nat) (word : W32) (s : State) : Host.Outcome State Fault Refusal :=
  done s (queueDoorbellEffect fn b c q word)

/-- A doorbell takes effect: the new TAIL, or QUEUE_OVERFLOW (R201, R202). -/
def State.admitDoorbell (s : State) (d : Nat × Nat × Nat × Nat × Nat × Nat) : State :=
  let (_, fn, b, c, q, v) := d
  if !s.queueWritable b then s.writeLocked (queueRegister b c q 0x10) fn
  else
    let x := s.queue b c q
    let y := { x with tail := v % (2 * x.size) }
    if x.size < y.occupancy then (s.modQueue b c q fun x => { x with status := setBit x.status 0 }).raise (queueKey b c q) 0
    else s.modQueue b c q fun _ => y

end Sys2Proof.Machine
end

