-- ==== Sys2Proof/Machine/Vector.lean ====
section
/-! DEFINITION. The vector and rail engines (05_lx16_arithmetic.md R218, R221, R229 to R243, R824) and SAT_CLEAR (R232). -/

namespace Sys2Proof.Machine

/-- A range of rows lies in the activation store; an empty range names no row. -/
def rowsFit (base n : Nat) : Bool := n = 0 || decide (base + n ≤ 12288)

/-- The first fault of a vector or rail command at issue, as its bit of BCH_CORE_ARITH_FAULT (R237, R824). -/
def State.vecFault (s : State) (p b c q : Nat) (cmd : Cmd) : Option Nat :=
  let ctx := ctxOf q
  let n := cmd.vecRows
  let t := (s.core b c).tables.getD (s.tableIdx p b ctx cmd.table) []
  if !cmd.vecExps.all expOk then some 0
  else if cmd.vlen = 0 || decide (12288 < cmd.vlen) || !rowsFit (s.actRow p b ctx cmd.src1) n.1 ||
      !rowsFit (s.actRow p b ctx cmd.src2) n.2.1 || !rowsFit (s.actRow p b ctx cmd.dst) n.2.2 ||
      (cmd.isRail && decide (rackBytes < s.rackOff p b ctx cmd.weights + 2 * cmd.railIn * (2048 * cmd.vlen))) then some 2
  else if cmd.opcode = 0x45 && !tableOk t then some 1
  else if cmd.opcode = 0x45 && cmd.eSrc1 != tableEIn t then some 0
  else if cmd.opcode ≤ 0x44 && cmd.opcode != 0x42 && decide (46 < (cmd.eSrc1 - cmd.eSrc2).natAbs) then some 0
  else if (cmd.opcode = 0x80 || cmd.opcode = 0x81) &&
      !(decide (0 ≤ cmd.eSrc2 - cmd.eSrc1) && decide (cmd.eSrc2 - cmd.eSrc1 ≤ 30)) then some 0
  else none

/-- BCH_CORE_ARITH_FAULT: the flag, and the queue and opcode of the first fault. -/
def Core.latchArith (k : Core) (bit q op : Nat) : Core :=
  { k with arithFault := if k.arithFault &&& 7#32 = 0 then BitVec.ofNat 32 (2 ^ bit + 256 * q + 65536 * op)
      else setBit k.arithFault bit }

/-- The flag's code in a completion (R665). -/
def arithDetail (bit : Nat) : Nat := if bit = 0 then 0x60 else if bit = 1 then 0x61 else 0x6E

/-- A fault of a vector or rail command, or an exponent fault of a matrix command. -/
def State.arithAbort (s : State) (b c q bit op : Nat) : State :=
  ((s.modCore b c fun k => k.latchArith bit q op).raise (benchKey b (8 + c)) bit).faultAbort b c q (arithDetail bit) 0

/-- Saturations of a step, by engine kind: 0 matrix, 1 vector, 2 rail, 3 plumb (R229, R230); plumb counts follow as 4 to 7 (R450). -/
def State.saturate (s : State) (b c step kind n : Nat) : State :=
  if n = 0 then s else s.modCore b c fun k => { k with satShadow := k.satShadow ++ [(step, kind, n)] }

/-! ## Jobs: commands in work, row by row -/

/-- A job of a bench changes, or ends. -/
def Bench.modJob (x : Bench) (id : Nat) (f : Job → Job) : Bench := { x with jobs := x.jobs.map fun j => if j.id = id then f j else j }
def State.modJob (s : State) (b id : Nat) (f : Job → Job) : State := s.modBench b fun x => x.modJob id f
/-- A job of a bench, under the next number. -/
def State.addJob (s : State) (b : Nat) (j : Job) : State :=
  s.modBench b fun x => { x with jobs := x.jobs ++ [{ j with id := x.nextJob }], nextJob := x.nextJob + 1 }

/-- Port of a job, and its place in R294's order: the array, or the engine. -/
def Job.port (j : Job) : Nat := match j.kind with
  | .vec => 4 + j.c
  | .rail => 4 + j.c
  | _ => 2 + j.c
def Job.unit (j : Job) : Nat := match j.kind with
  | .vec => 1
  | .rail => 2
  | _ => j.cmd.arrays.headD 0

/-- Requests of a job: n bytes read as an operand, and a byte string written, from a cycle on. -/
def Job.reads (j : Job) (now tag : Nat) (rack : Bool) (a n : Nat) : List MemReq :=
  MemReq.reads { due := now, port := j.port, unit := j.unit, rack := rack, who := .job j.id tag } a n
def Job.writes (j : Job) (due a : Nat) (bs : Bytes) : List MemReq :=
  MemReq.writes { due := due, port := j.port, unit := j.unit, who := .job j.id 0 } a bs

/-- Bytes of an operand as they were read. -/
def Job.operand (j : Job) (tag : Nat) : Mem :=
  (j.got.filter fun g => g.1 = tag).foldl (fun m g => Memory.write m g.2.1 g.2.2) []
def Job.read (j : Job) (tag a n : Nat) : Bytes := Memory.read (j.operand tag) a n

/-- Operands of the running step are still awaited; results of the job are still to be written. -/
def Bench.reading (x : Bench) (j : Job) : Bool := x.reqs.any fun r => !r.write && (match r.who with
  | .job id _ => id = j.id
  | _ => false)
def Bench.writing (x : Bench) (j : Job) : Bool := x.reqs.any fun r => r.write && (match r.who with
  | .job id _ => id = j.id
  | _ => false)

/-- A served read of a job: its bytes are kept. -/
def Job.take (j : Job) (tag : Nat) (r : MemReq) (bs : List Bytes) : Job :=
  { j with got := j.got ++ (r.spans.zip bs).map fun x => (tag, x.1.1, x.2) }

/-! ## Steps of a vector command (R238, R240) -/

/-- Steps of a vector or rail command: a vector command works on a row a cycle, a VREQ on a row of LA64 words a cycle; a rail
product multiplies two inputs into 2,048 outputs each a cycle, 4,096 MACs (R242, log entry 16). -/
def Cmd.railUnits (c : Cmd) : Nat := max 1 c.railIn
def Cmd.vecSteps (c : Cmd) : Nat :=
  if c.isRail then ceilDiv (c.vlen * c.railUnits) 2 else if c.opcode = 0x47 then 4 * c.vlen else c.vlen

/-- First bytes of the rows at SRC1, SRC2 and DST. -/
def State.src1At (s : State) (b : Nat) (j : Job) (row : Nat) : Nat := 4096 * (s.actRow j.p b (ctxOf j.q) j.cmd.src1 + row)
def State.src2At (s : State) (b : Nat) (j : Job) (row : Nat) : Nat := 4096 * (s.actRow j.p b (ctxOf j.q) j.cmd.src2 + row)
def State.dstAt (s : State) (b : Nat) (j : Job) (row : Nat) : Nat := 4096 * (s.actRow j.p b (ctxOf j.q) j.cmd.dst + row)

/-- Reads of step j.row of a vector command. -/
def State.vecReads (s : State) (b : Nat) (j : Job) : List MemReq :=
  j.reads s.now 0 false (s.src1At b j j.row) 4096 ++
    (if j.cmd.opcode ≤ 0x44 then j.reads s.now 1 false (s.src2At b j j.row) 4096 else [])

/-- Four rows of LA64 words, written in successive cycles that end at a given one. -/
def Job.la64Writes (j : Job) (first a : Nat) (vs : List Int) : List MemReq :=
  (List.range 4).flatMap fun i => j.writes (first + i) (a + 4096 * i) (la64Bytes ((vs.drop (512 * i)).take 512))

/-- Results of a step of a vector command: the job with its sums, its write requests, and the saturations. -/
def State.vecStep (s : State) (b : Nat) (j : Job) : Job × List MemReq × Nat :=
  let c := j.cmd
  let i := j.row
  let due := s.now + 1 + Config.vectorLatency
  let xs := lx16 (j.read 0 (s.src1At b j i) 4096)
  if c.opcode ≤ 0x44 then
    let v := rowBinary c.opcode c.eSrc1 c.eSrc2 c.eOut xs (lx16 (j.read 1 (s.src2At b j i) 4096))
    (j, j.writes due (s.dstAt b j i) (lx16Bytes v.1), v.2)
  else if c.opcode = 0x45 then
    let t := (s.core b j.c).tables.getD (s.tableIdx j.p b (ctxOf j.q) c.table) []
    let v := xs.map fun x => tableEval x t c.eOut
    (j, j.writes due (s.dstAt b j i) (lx16Bytes (v.map (·.1))), (v.map (·.2)).sum)
  else if c.opcode = 0x46 then
    let acc := if i = 0 then xs else List.zipWith (· + ·) j.acc xs
    ({ j with acc := acc }, if i + 1 = c.vecSteps then j.la64Writes due (s.dstAt b j 0) acc else [], 0)
  else
    let v := requantAll (la64 512 (j.read 0 (s.src1At b j i) 4096)) (c.eOut - c.eSrc1)
    (j, j.writes due (s.dstAt b j 0 + 1024 * i) (lx16Bytes v.1), v.2)

/-! ## Steps of a rail command (R221, R222, R242) -/

/-- The products of a step: a row of 2,048 outputs and an input each. -/
def Job.railProducts (j : Job) : List (Nat × Nat) :=
  let n := j.cmd.railUnits
  ([2 * j.row, 2 * j.row + 1].filter fun u => decide (u < j.cmd.vlen * n)).map fun u => (u / n, u % n)

/-- Rows of the restored accumulators that are read for an input's product: the first four inputs' products take one each, the last
input's what is left. -/
def Cmd.contRows (c : Cmd) (i : Nat) : List Nat := (List.range 4).filter fun r => min r (c.railUnits - 1) = i

/-- Rack rows of the weights of a product, with the two bytes of each weight. -/
def State.railWeights (s : State) (b : Nat) (j : Job) (block i : Nat) : List MemReq :=
  let base := s.rackOff j.p b (ctxOf j.q) j.cmd.weights
  let at_ := (List.range 2048).map fun r => base + Config.railWeightOffset (2048 * block + r) i j.cmd.vlen
  let rows := (at_.map fun a => a / 4096).eraseDups
  rows.map fun row => { due := s.now, port := j.port, unit := j.unit, rack := true, row := row
                        spans := (at_.filter fun a => a / 4096 = row).map fun a => (a, 2), who := .job j.id 2 }

/-- Reads of a product: the row of inputs at the first use of its first element, bias or accumulators, weights. -/
def State.railReads (s : State) (b : Nat) (j : Job) (x : Nat × Nat) : List MemReq :=
  let (block, i) := x
  (if block = 0 && i % 2048 = 0 && decide (i < j.cmd.railIn) then j.reads s.now 0 false (s.src1At b j (i / 2048)) 4096 else []) ++
  (if j.cmd.opcode = 0x82 then
      (j.cmd.contRows i).flatMap fun r => j.reads s.now 1 false (s.dstAt b j (4 * block + r)) 4096
    else if i = 0 then j.reads s.now 1 false (s.src2At b j block) 4096 else []) ++
  (if i < j.cmd.railIn then s.railWeights b j block i else [])

/-- Input rows that a step of a rail or vector command consumes (R243). -/
def Job.consumed (j : Job) : Nat :=
  if j.cmd.isRail then (j.railProducts.map fun x =>
    natOfBool (x.1 = 0 && x.2 % 2048 = 0 && decide (x.2 < j.cmd.railIn)) + natOfBool (j.cmd.opcode != 0x82 && x.2 = 0)).sum
  else if j.cmd.opcode ≤ 0x44 then 2 else 1

/-- One product is added to the sums of its row of outputs; the last of a row gives its results. -/
def State.railProduct (s : State) (b : Nat) (x : Nat × Nat) (acc : Job × List MemReq × Nat) : Job × List MemReq × Nat :=
  let (block, i) := x
  let (j, ws, sat) := acc
  let c := j.cmd
  let j := if block = 0 && i % 2048 = 0 && decide (i < c.railIn) then
    { j with window := j.window ++ [j.read 0 (s.src1At b j (i / 2048)) 4096] } else j
  let sums := if i = 0 then List.replicate 2048 0 else j.acc
  let starts : List Int :=
    if c.opcode = 0x82 then (List.range 4).flatMap fun r =>
      if (c.contRows i).contains r then la64 512 (j.read 1 (s.dstAt b j (4 * block + r)) 4096) else List.replicate 512 0
    else if i = 0 then (lx16 (j.read 1 (s.src2At b j block) 4096)).map fun v => v * (2 ^ (c.eSrc2 - c.eSrc1).toNat : Nat)
    else List.replicate 2048 0
  let w := j.operand 2
  let base := s.rackOff j.p b (ctxOf j.q) c.weights
  let input := (lx16 (Bytes.sub (j.window.getD (i / 2048) []) (2 * (i % 2048)) 2)).headD 0
  let products : List Int := if i < c.railIn then (List.range 2048).map fun r =>
      signedOf (leNat (Memory.read w (base + Config.railWeightOffset (2048 * block + r) i c.vlen) 2)) 16 * input
    else List.replicate 2048 0
  let sums := List.zipWith (· + ·) (List.zipWith (· + ·) sums starts) products
  let j := { j with acc := sums }
  if i + 1 < c.railUnits then (j, ws, sat)
  else
    let accs := sums.map accOf
    if c.opcode = 0x80 then
      let v := requantAll accs (c.eOut - c.eSrc1)
      (j, ws ++ j.writes (s.now + 25) (s.dstAt b j block) (lx16Bytes v.1), sat + v.2)
    else (j, ws ++ j.la64Writes (s.now + 22) (s.dstAt b j (4 * block)) accs, sat)

/-! ## The vector and rail engines in a cycle -/

/-- The operands of a job's step are asked for, once. -/
def State.vecAsk (s : State) (b : Nat) (j : Job) : State :=
  if j.asked || j.ended || decide (s.now < j.from_) || !(s.bench b).computes then s
  else
    let rs := if j.cmd.isRail then j.railProducts.flatMap (s.railReads b j) else s.vecReads b j
    (s.modJob b j.id fun x => { x with asked := true }).ask b rs

/-- Cycles from the last step to the last result written: 24 behind the step's own for the rail engine (R242), Config.vectorLatency
for the vector engine, whose sums follow in four cycles. -/
def Cmd.vecTail (c : Cmd) : Nat := if c.isRail then 25 else 1 + Config.vectorLatency + (if c.opcode = 0x46 then 3 else 0)

/-- A step whose operands are there: its results are on their way, and the engine goes on, or is free. -/
def State.vecAdvance (s : State) (b : Nat) (j : Job) : State :=
  if !j.asked || j.ended || (s.bench b).reading j then s
  else
    let r := if j.cmd.isRail then j.railProducts.foldl (fun acc x => s.railProduct b x acc) (j, [], 0) else s.vecStep b j
    let last := decide (j.cmd.vecSteps ≤ j.row + 1)
    let now := s.now
    let s := (s.ask b r.2.1).saturate b j.c j.step (if j.cmd.isRail then 2 else 1) r.2.2
    let s := s.creditReturn b j.c (ctxOf j.q) (if j.cmd.isRail then 3 else 2) j.consumed
    let s := s.busy j.eb j.ec (engineOf j.q) (if last then now + 1 else now + 2)
    s.modJob b j.id fun _ =>
      { r.1 with row := j.row + 1, asked := false, got := [], from_ := now + 1, ended := last, endAt := now + j.cmd.vecTail }

/-! ## The commands -/

/-- The job of a command that issues in this cycle from queue q of core c of bench b, on core (eb, ec). -/
def State.newJob (s : State) (p : Nat) (t : Task) (b c q eb ec : Nat) (kind : JobKind) (cmd : Cmd) (from_ : Nat) : Job :=
  { id := (s.bench b).nextJob, p := p, c := c, q := q, eb := eb, ec := ec, step := (s.queue b c q).stepHeads.length, kind := kind
    cmd := cmd, from_ := from_, genAt := from_, late := !t.credit && decide (s.scheduledAt t cmd < s.now) }

/-- A vector or rail command with opcode op issues, or faults at issue. -/
def vecEffect (op b c q : Nat) (errs : List Upset) (s : State) : State :=
  let s := s.strike errs
  match s.mayIssue b c q op with
  | none => s
  | some (p, t, cmd) => match s.vecFault p b c q cmd with
    | some bit => s.arithAbort b c q bit op
    | none =>
      let j := s.newJob p t b c q b c (if cmd.isRail then .rail else .vec) cmd s.now
      ((s.issue p t b c q cmd 0 (.job j.id)).addJob b j).busy b c (engineOf q) (s.now + (if cmd.vecSteps = 1 then 1 else 2))

/-- Sum of two rows (R240). -/
def execVadd (b c q : Nat) (errs : List Upset) (s : State) : Host.Outcome State Fault Refusal :=
  done s (vecEffect 0x40 b c q errs)
/-- Difference of two rows (R240). -/
def execVsub (b c q : Nat) (errs : List Upset) (s : State) : Host.Outcome State Fault Refusal :=
  done s (vecEffect 0x41 b c q errs)
/-- Product of two rows (R240). -/
def execVmul (b c q : Nat) (errs : List Upset) (s : State) : Host.Outcome State Fault Refusal :=
  done s (vecEffect 0x42 b c q errs)
/-- Larger aligned value (R240). -/
def execVmax (b c q : Nat) (errs : List Upset) (s : State) : Host.Outcome State Fault Refusal :=
  done s (vecEffect 0x43 b c q errs)
/-- Smaller aligned value (R240). -/
def execVmin (b c q : Nat) (errs : List Upset) (s : State) : Host.Outcome State Fault Refusal :=
  done s (vecEffect 0x44 b c q errs)
/-- Function table (R236). -/
def execVfunc (b c q : Nat) (errs : List Upset) (s : State) : Host.Outcome State Fault Refusal :=
  done s (vecEffect 0x45 b c q errs)
/-- Lane-wise exact sum (R240). -/
def execVsum (b c q : Nat) (errs : List Upset) (s : State) : Host.Outcome State Fault Refusal :=
  done s (vecEffect 0x46 b c q errs)
/-- Requantisation of LA64 rows (R240). -/
def execVreq (b c q : Nat) (errs : List Upset) (s : State) : Host.Outcome State Fault Refusal :=
  done s (vecEffect 0x47 b c q errs)
/-- Rail product with bias, as LX16 (R240, R242). -/
def execRailMv (b c q : Nat) (errs : List Upset) (s : State) : Host.Outcome State Fault Refusal :=
  done s (vecEffect 0x80 b c q errs)
/-- Rail product with bias, as LA64 (R240, R242). -/
def execRailMvSpill (b c q : Nat) (errs : List Upset) (s : State) : Host.Outcome State Fault Refusal :=
  done s (vecEffect 0x81 b c q errs)
/-- Rail product continued from LA64 (R240, R242). -/
def execRailMvCont (b c q : Nat) (errs : List Upset) (s : State) : Host.Outcome State Fault Refusal :=
  done s (vecEffect 0x82 b c q errs)

/-- SAT_CLEAR zeroes the four committed counters; in the cycle of a step commit the clear takes effect first (R232); windows as R810 and R815 allow. -/
def satClearEffect (fn b c : Nat) (s : State) : State :=
  if s.windowOpen fn b then
    let now := s.now
    s.modCore b c fun k => { k with sat := if k.satAdded.1 = now + 1 then k.satAdded.2.map (BitVec.ofNat 32) else List.replicate 4 0 }
  else s
def execSatClear (fn b c : Nat) (s : State) : Host.Outcome State Fault Refusal := done s (satClearEffect fn b c)

end Sys2Proof.Machine
end

