-- ==== Sys2Proof/Machine/Matrix.lean ====
section
/-! DEFINITION. The matrix arrays (06_matrix_arrays.md R244 to R291, R825, R826): MLOAD, MSTREAM, MCONV, MGEN, feeder queues, jog
rows and gating. -/

namespace Sys2Proof.Machine

/-! ## Faults at issue (R288, R826) -/

/-- The legal masks (R245). -/
def legalMask (m : Nat) : Bool := [1, 2, 4, 8, 3, 12, 15].contains m

/-- A range of units lies in the activation store. -/
def unitsFit (base n : Nat) : Bool := n = 0 || decide (base + n ≤ actUnits)

/-- Every array of the gang holds a tile with the same exponents, and every member but the last is full (R247). -/
def gangOk (xs : List ArraySt) : Bool :=
  (match xs with
    | x :: ys => ys.all fun y => y.eW = x.eW && y.eB = x.eB
    | [] => true) && xs.dropLast.all fun x => x.nValid = 128

/-- The cause of MX_FAULT of a streaming command on the given arrays (R288). No degenerate shape is an error: a command with ROWS = 0
starts no accumulation and gathers nothing (R291). -/
def State.streamCause (s : State) (p b q : Nat) (cmd : Cmd) (xs : List ArraySt) (g : Option Gen) : Option Nat :=
  let ctx := ctxOf q
  let u := s.unit p b ctx
  if !legalMask cmd.mask || (!cmd.conv && 1 < cmd.feed) then some 1
  else if 512 < cmd.accBase + cmd.rowsM then some 3
  else if !gangOk xs then some 4
  else if cmd.rowsM != 0 && 2 ≤ cmd.accMode && !(xs.all fun x => x.accOpen && x.accExp = cmd.eX + x.eW) then some 5
  else if cmd.rowsM != 0 && cmd.conv && (match g with
      | some g => decide (g.kerH * g.kerW ≤ cmd.kpos) || decide (g.outH * g.outW < cmd.startPos + cmd.rowsM)
      | none => true) then some 6
  else if !unitsFit (u cmd.dstM) cmd.unitsOut ||
      (!cmd.conv && cmd.feed = 0 && cmd.rowsM != 0 && !unitsFit (u cmd.srcM) (cmd.rowsM + 127)) ||
      (cmd.conv && (match g with
        | some g => (g.rows cmd).any fun r => match r with
          | some x => decide (actUnits ≤ u x)
          | none => false
        | none => false)) then some 7
  else if (s.part p).balance && xs.any (fun x => x.held != some q || (cmd.biasEn && !x.holdBias)) then some 8
  else none

/-- A fault of a matrix command: an exponent fault of BCH_CORE_ARITH_FAULT, or a cause of MX_FAULT. -/
inductive MxFault where | scale | mx (cause : Nat)
  deriving DecidableEq, Repr

/-- The first fault of an MLOAD. -/
def State.mloadFault (s : State) (p b q : Nat) (cmd : Cmd) : Option MxFault :=
  let ctx := ctxOf q
  if !expOk cmd.eW || (cmd.biasLoad && !expOk cmd.eB) then some .scale
  else if 128 < cmd.kValid || 128 < cmd.nValid then some (.mx 2)
  else if decide (rackBytes < s.rackOff p b ctx (32768 * cmd.tile) + 32768) ||
      (cmd.biasLoad && !unitsFit (s.unit p b ctx cmd.biasSrc) 1) then some (.mx 7)
  else none

/-- The first fault of an MSTREAM or MCONV on the given arrays. -/
def State.streamFault (s : State) (p b q : Nat) (cmd : Cmd) (xs : List ArraySt) (g : Option Gen) : Option MxFault :=
  if !expOk cmd.eX || (!cmd.outLa64 && !expOk cmd.eOutM) then some .scale
  else match s.streamCause p b q cmd xs g with
    | some k => some (.mx k)
    | none =>
      let bad := xs.any fun x =>
        let d := x.eB - (cmd.eX + x.eW)
        cmd.rowsM != 0 && cmd.accMode ≤ 1 && cmd.biasEn && !(decide (0 ≤ d) && decide (d ≤ 30))
      if bad then some .scale else none

/-- MX_FAULT with the cause, queue and opcode of the first fault. -/
def Core.latchMx (k : Core) (cause q op : Nat) : Core :=
  k.modMx fun m => { m with
    fault := if m.fault.getLsbD 0 then m.fault
      else BitVec.ofNat 32 (1 + 16 * cause + 256 * q + 65536 * op) }

/-- A matrix command's fault is latched on its core, and its task is aborted. -/
def State.mxAbort (s : State) (b c q op : Nat) : MxFault → State
  | .scale => s.arithAbort b c q 0 op
  | .mx k => ((s.modCore b c fun x => x.latchMx k q op).raise (benchKey b (10 + c)) 0).faultAbort b c q 0x62 k

/-! ## Gating (R262, R270) -/

/-- Cycles of the wake of a command's arrays. -/
def wakeCycles (xs : List ArraySt) : Nat := if xs.any (·.gated) then 16 else 0

/-- Gated arrays of a command leave that state, and each wake counts (R272). -/
def Core.wake (k : Core) (as : List Nat) : Core :=
  as.foldl (fun k a =>
    if (k.array a).gated then
      (k.modMx fun m => { m with wakeCount := satAdd32 m.wakeCount 1 }).modArray a fun x => { x with gated := false, jogRun := 0 }
    else k) k

/-- Something on the west bus of arrays in this cycle; no jog row runs there (R269). -/
def Core.carry (k : Core) (as : List Nat) : Core := as.foldl (fun k a => k.modArray a fun x => { x with carried := true }) k

/-! ## Tiles and rows -/

/-- The stationary tile that an MLOAD leaves, row-major; [] for the zero tile (R277 to R279, R285). -/
def tileOf (raw : Bytes) (transpose : Bool) (kValid : Nat) : List (BitVec 16) :=
  let vs := (lx16 raw).map fun v => BitVec.ofInt 16 v
  let vs := if transpose then (List.range 16384).map fun i => vs.getD (i % 128 * 128 + i / 128) 0 else vs
  let vs := vs.take (128 * kValid)
  if vs.all (· = 0) then [] else vs ++ List.replicate (16384 - vs.length) 0

/-- The exact sums of an input row with the tile's weights, by column. -/
def tileRow : List (BitVec 16) → List Int → List Int → List Int
  | [], _, acc => acc
  | _, [], acc => acc
  | ws, x :: xs, acc => tileRow (ws.drop 128) xs (List.zipWith (fun a (w : BitVec 16) => a + x * w.toInt) acc (ws.take 128))

/-- The accumulator row of an array: 128 words. -/
def ArraySt.accRow (x : ArraySt) (i : Nat) : List Int := match x.acc.lookup i with
  | some ws => ws.map fun w => w.toInt
  | none => List.replicate 128 0

/-- A change of an accumulator row. -/
def ArraySt.setAcc (x : ArraySt) (i : Nat) (vs : List Int) : ArraySt :=
  { x with acc := (if vs.all (· = 0) then [] else [(i, vs.map fun v => BitVec.ofInt 64 v)]) ++ x.acc.filter fun e => e.1 != i }

/-- The contents with which an accumulation mode starts a row (R248, R250). -/
def ArraySt.startRow (x : ArraySt) (cmd : Cmd) (i : Nat) : List Int :=
  if 2 ≤ cmd.accMode then x.accRow i
  else if cmd.biasEn then
    let f : Int := (2 ^ (x.eB - (cmd.eX + x.eW)).toNat : Nat)
    (List.range 128).map fun n => (x.bias.getD n 0).toInt * f
  else List.replicate 128 0

/-- Input row j of a command on an array: the new accumulator row. -/
def ArraySt.rowSum (x : ArraySt) (cmd : Cmd) (j : Nat) (row : List Int) : List Int :=
  (tileRow x.tile row (x.startRow cmd (cmd.accBase + j))).map accOf

/-- The accumulator exponent of a command's written rows (R251). -/
def ArraySt.outExp (x : ArraySt) (cmd : Cmd) : Int := if cmd.accMode = 3 then x.accExp else cmd.eX + x.eW

/-- The bytes of an output row with the saturations: columns at or above N_VALID are zero (R251, R253). -/
def ArraySt.outRow (x : ArraySt) (cmd : Cmd) (e : Int) (sum : List Int) : Bytes × Nat :=
  let vs := sum.take x.nValid
  if cmd.outLa64 then (la64Bytes (vs ++ List.replicate (128 - vs.length) 0), 0)
  else
    let r := requantAll vs (cmd.eOutM - e)
    (lx16Bytes (r.1 ++ List.replicate (128 - r.1.length) 0), r.2)

/-- One input row of a job of bench b passes array a at gang position g of the core it runs on; its output is on its way to the
activation store of b, its saturations to the owner's core (R231, R252). e is the accumulator exponent at the command's issue. -/
def State.rowOn (s : State) (b : Nat) (job : Job) (j due : Nat) (row : List Int) (ag : Nat × Nat × Int) : State :=
  let (a, g, e) := ag
  let cmd := job.cmd
  let x := (s.core job.eb job.ec).array a
  let sum := x.rowSum cmd j row
  let s := s.modCore job.eb job.ec fun k => k.modArray a fun y => y.setAcc (cmd.accBase + j) sum
  if cmd.accMode = 0 || cmd.accMode = 3 then
    let o := x.outRow cmd e sum
    let u := s.unit job.p b (ctxOf job.q) cmd.dstM + (g * cmd.rowsM + j) * (if cmd.outLa64 then 4 else 1)
    (s.ask b ((job.writes due (256 * u) o.1).map fun r => { r with unit := a })).saturate b job.c job.step 0 o.2
  else s

/-- One input row passes every array of the gang. -/
def State.rowIn (s : State) (b : Nat) (job : Job) (j due : Nat) (row : List Int) : State :=
  job.gang.foldl (fun s ag => s.rowOn b job j due row ag) s

/-- The gang of a command: array, position and accumulator exponent at issue. -/
def Core.gang (k : Core) (cmd : Cmd) : List (Nat × Nat × Int) :=
  (cmd.arrays.zip (List.range cmd.arrays.length)).map fun ag => (ag.1, ag.2, (k.array ag.1).outExp cmd)

/-- ACC_OPEN and ACC_EXP after a command's issue (R248, R249, R291). -/
def ArraySt.opened (x : ArraySt) (cmd : Cmd) : ArraySt :=
  if cmd.rowsM = 0 then x
  else if cmd.accMode = 1 then { x with accOpen := true, accExp := cmd.eX + x.eW }
  else if cmd.accMode = 3 then { x with accOpen := false } else x

/-- A hold of this queue ends (R287). -/
def ArraySt.release (x : ArraySt) (q : Nat) : ArraySt := if x.held = some q then { x with held := none } else x

/-- A change of every array that a command names. -/
def Core.modArrays (k : Core) (as : List Nat) (f : ArraySt → ArraySt) : Core := as.foldl (fun k a => k.modArray a f) k

/-! ## MLOAD -/

/-- An MLOAD takes its array: wake, west bus, hold (R263, R287). -/
def State.loadOn (s : State) (eb ec q : Nat) (cmd : Cmd) (from_ : Nat) : State :=
  s.modCore eb ec fun k => (k.wake [cmd.array]).modArray cmd.array fun x =>
    { x with bus := .load from_, held := some q, holdBias := cmd.biasLoad || (x.held = some q && x.holdBias) }

/-- MLOAD (R263, R278, R285 to R287). -/
def mloadEffect (b c q : Nat) (errs : List Upset) (s : State) : State :=
  let s := s.strike errs
  match s.mayIssue b c q 0x10 with
  | none => s
  | some (p, t, cmd) => match s.mloadFault p b q cmd with
    | some f => s.mxAbort b c q 0x10 f
    | none =>
      let from_ := s.now + wakeCycles [(s.core b c).array cmd.array]
      let j := s.newJob p t b c q b c .load cmd from_
      ((s.issue p t b c q cmd 0 (.job j.id)).addJob b j).loadOn b c q cmd from_
def execMload (b c q : Nat) (errs : List Upset) (s : State) : Host.Outcome State Fault Refusal :=
  done s (mloadEffect b c q errs)

/-! ## Streaming -/

/-- What the issue of a streaming command leaves on its arrays: wake, west bus, ACC_OPEN, and an MCONV in work. -/
def State.streamOn (s : State) (eb ec : Nat) (cmd : Cmd) (from_ : Nat) : State :=
  s.modCore eb ec fun k => (k.wake cmd.arrays).modArrays cmd.arrays fun x => { x.opened cmd with bus := .stream from_, conv := cmd.conv }

/-- A command with ROWS = 0 ends a hold at its issue (R287, R291). -/
def State.rowsNone (s : State) (b c q : Nat) (cmd : Cmd) : State :=
  s.modCore b c fun k => k.modArrays cmd.arrays fun x => x.release q

/-- The job of a streaming command, with its gang and the units it gathers. -/
def State.newStream (s : State) (p : Nat) (t : Task) (b c q eb ec : Nat) (kind : JobKind) (cmd : Cmd) (from_ : Nat)
    (gens : List (Option Nat)) : Job :=
  { s.newJob p t b c q eb ec kind cmd from_ with
    gang := (s.core eb ec).gang cmd, gens := gens, gen := s.genIdx p b (ctxOf q) cmd.genSlot }

/-- A streaming command issues: with rows, its job starts; without, it is complete. -/
def State.streamIssue (s : State) (p : Nat) (t : Task) (b c q : Nat) (cmd : Cmd) (kind : JobKind) (gens : List (Option Nat)) : State :=
  if cmd.rowsM = 0 then (s.issue p t b c q cmd s.now .time).rowsNone b c q cmd
  else
    let from_ := s.now + wakeCycles (cmd.arrays.map (s.core b c).array)
    let j := s.newStream p t b c q b c kind cmd from_ gens
    ((s.issue p t b c q cmd 0 (.job j.id)).addJob b j).streamOn b c cmd from_

/-- MSTREAM (R245 to R262, R287). -/
def mstreamEffect (b c q : Nat) (errs : List Upset) (s : State) : State :=
  let s := s.strike errs
  match s.mayIssue b c q 0x11 with
  | none => s
  | some (p, t, cmd) => match s.streamFault p b q cmd (cmd.arrays.map (s.core b c).array) none with
    | some f => s.mxAbort b c q 0x11 f
    | none => s.streamIssue p t b c q cmd (if cmd.queueFed then .queue else .preskew) []
def execMstream (b c q : Nat) (errs : List Upset) (s : State) : Host.Outcome State Fault Refusal :=
  done s (mstreamEffect b c q errs)

/-! ## MCONV and MGEN -/

/-- MCONV (R260, R264, R280 to R283). -/
def mconvEffect (b c q : Nat) (errs : List Upset) (s : State) : State :=
  let s := s.strike errs
  match s.mayIssue b c q 0x12 with
  | none => s
  | some (p, t, cmd) =>
    let g := s.genAt p b c q cmd
    match s.streamFault p b q cmd (cmd.arrays.map (s.core b c).array) g with
    | some f => s.mxAbort b c q 0x12 f
    | none => s.streamIssue p t b c q cmd .conv (match g with
        | some g => (g.rows cmd).map fun u => u.map fun x => s.unit p b (ctxOf q) x
        | none => [])
def execMconv (b c q : Nat) (errs : List Upset) (s : State) : Host.Outcome State Fault Refusal :=
  done s (mconvEffect b c q errs)

/-- The first fault of an MGEN. -/
def State.mgenFault (s : State) (p b q : Nat) (cmd : Cmd) : Option Nat :=
  let u := s.unit p b (ctxOf q) cmd.desc
  if !unitsFit u 1 then some 7
  else if !(genOf (s.actRead b (256 * u) 32)).ok then some 6 else none

/-- MGEN loads a generator descriptor slot and completes after 7 cc (R264, R280). -/
def mgenEffect (b c q : Nat) (errs : List Upset) (s : State) : State :=
  let s := s.strike errs
  match s.mayIssue b c q 0x13 with
  | none => s
  | some (p, t, cmd) => match s.mgenFault p b q cmd with
    | some k => s.mxAbort b c q 0x13 (.mx k)
    | none =>
      let u := s.unit p b (ctxOf q) cmd.desc
      let e := s.now + 7
      let d := s.actRead b (256 * u) 32
      let s := (s.issue p t b c q cmd e .time).ask b (MemReq.reads { due := s.now, port := 2 + c } (256 * u) 256)
      s.modCore b c fun k => k.modMx fun m => { m with
        gens := m.gens.modify (s.genIdx p b (ctxOf q) cmd.genSlot) fun y => { y with valid := true, readyAt := e, desc := d } }
def execMgen (b c q : Nat) (errs : List Upset) (s : State) : Host.Outcome State Fault Refusal :=
  done s (mgenEffect b c q errs)

/-! ## Feeder queues (R256 to R261) -/

/-- The oldest waiting row of a stream is pushed into array a's feeder queue, unless it is full or an MCONV runs. -/
def State.feederPush (s : State) (b c a : Nat) : State :=
  let x := (s.core b c).array a
  match x.pushes with
  | [] => s
  | (slot, num, row) :: rest =>
    if decide (x.feeder.length < 64) && !x.conv then
      s.modCore b c fun k => (k.modArray a fun y => { y with pushes := rest, feeder := y.feeder ++ [(false, row)] }).modSlot slot fun y =>
        { y with tiles := y.tiles.map fun t => if t.num = num then { t with fed := t.fed + 1 } else t }
    else s

/-- FEEDER_PUSH. -/
def feederPushEffect (b c a : Nat) (s : State) : State := s.feederPush b c a
def execFeederPush (b c a : Nat) (s : State) : Host.Outcome State Fault Refusal := done s (feederPushEffect b c a)

/-- The first row that a job finds in its lead array's feeder queue: an MCONV takes the generator's rows, an MSTREAM the others. -/
def State.feederRow (s : State) (j : Job) : Option (Bool × Bytes) :=
  ((s.core j.eb j.ec).array (j.cmd.arrays.headD 0)).feeder.find? fun r => r.1 = decide (j.kind = .conv)

/-- The array's feeder queue takes a row of its generator: it has room, or the row enters at once. -/
def State.feederTakes (s : State) (j : Job) : Bool :=
  let x := (s.core j.eb j.ec).array (j.cmd.arrays.headD 0)
  decide (x.feeder.length < 64) || (s.feederRow j).isNone

/-- A gathered row is pushed, and the generator goes on to the next. -/
def State.gatherRow (s : State) (b : Nat) (j : Job) (row : Bytes) : State :=
  (s.modCore j.eb j.ec fun k => k.modArray (j.cmd.arrays.headD 0) fun y => { y with feeder := y.feeder ++ [(true, row)] }).modJob b j.id
    fun x => { x with gens := x.gens.drop 1, asked := false, got := [] }

/-! ## The matrix engine in a cycle -/

/-- The unit of the next wavefront of a pre-skewed block. -/
def State.waveAt (s : State) (b : Nat) (j : Job) : Nat := 256 * (s.unit j.p b (ctxOf j.q) j.cmd.srcM + j.row)
/-- Rack row of an MLOAD's tile, and the unit of its bias. -/
def State.tileAt (s : State) (b : Nat) (j : Job) : Nat := s.rackOff j.p b (ctxOf j.q) (32768 * j.cmd.tile) + 256 * j.row
def State.biasAt (s : State) (b : Nat) (j : Job) : Nat := 256 * s.unit j.p b (ctxOf j.q) j.cmd.biasSrc

/-- What the next step of a matrix command asks for: a row of the tile, with the bias at the first, a wavefront, or a gathered unit;
a zero row of an MCONV asks for nothing and is pushed (R256, R277, R281). -/
def State.matrixAsk (s : State) (b : Nat) (j : Job) : State :=
  let ask (rs : List MemReq) : State := (s.modJob b j.id fun x => { x with asked := true }).ask b rs
  if j.asked || j.ended || j.behind.isSome || !(s.bench b).computes then s
  else match j.kind with
    | .load => if s.now < j.from_ then s else
        ask (j.reads s.now 0 true (s.tileAt b j) 256 ++
          (if j.row = 0 && j.cmd.biasLoad then j.reads s.now 1 false (s.biasAt b j) 256 else []))
    | .preskew => if s.now < j.from_ then s else ask (j.reads s.now 0 false (s.waveAt b j) 256)
    | .conv => if s.now < j.genAt || !s.feederTakes j then s else match j.gens with
        | some u :: _ => ask (j.reads s.now 0 false (256 * u) 256)
        | none :: _ => s.gatherRow b j (List.replicate 256 0)
        | [] => s
    | _ => s

/-- The job that waited for another one to run before it runs (R289). -/
def Bench.unhold (x : Bench) (id : Option Nat) : Bench := { x with jobs := x.jobs.map fun j =>
  if j.behind = id && id.isSome then { j with behind := none } else j }

/-- A row of the tile has come; with the last, the MLOAD takes effect. -/
def State.loadStep (s : State) (b : Nat) (j : Job) : State :=
  let cmd := j.cmd
  let rows := j.read 0 (s.tileAt b j) 256 :: j.window
  let bias := if j.row = 0 && cmd.biasLoad then lx16 (j.read 1 (s.biasAt b j) 256) else j.acc
  let last := decide (128 ≤ j.row + 1)
  let now := s.now
  let next : Bus := if (s.bench b).jobs.any (fun y => y.behind = some j.id) then .stream (now + 1) else .free
  let s := s.modCore j.eb j.ec fun k => (k.carry [cmd.array]).modArray cmd.array fun x =>
    if last then
      { x with tile := tileOf rows.reverse.flatten cmd.transpose cmd.kValid, eW := cmd.eW, kValid := cmd.kValid, nValid := cmd.nValid
               eB := if cmd.biasLoad then cmd.eB else x.eB, bias := if cmd.biasLoad then bias.map (BitVec.ofInt 16) else x.bias
               bus := next }
    else x
  s.modBench b fun y => (y.modJob j.id fun x =>
    { x with row := j.row + 1, asked := false, got := [], from_ := now + 1, window := rows, acc := bias, ended := last, endAt := now }).unhold
      (if last then some j.id else none)

/-- Row i of a pre-skewed block, from its last 128 wavefronts, newest first: element k of wavefront i + k (R257). -/
def skewedRow (window : List Bytes) : List Int :=
  (List.range 128).map fun k => signedOf (Bytes.nat (window.getD (127 - k) []) (2 * k) 2) 16

/-- A wavefront has come. The row that it completes passes the gang; its output is written 261 cc after the row entered, 134 cc after
its last element (R262). The hold ends with the last row's entry, the west bus is free behind the last wavefront (R264, R287). -/
def State.waveStep (s : State) (b : Nat) (j : Job) : State :=
  let cmd := j.cmd
  let now := s.now
  let window := (j.read 0 (s.waveAt b j) 256 :: j.window).take 128
  let entered := decide (j.row + 1 = cmd.rowsM)
  let last := decide (cmd.rowsM + 127 ≤ j.row + 1)
  let s := if 127 ≤ j.row then s.rowIn b j (j.row - 127) (now + 134) (skewedRow window) else s
  let s := s.modCore j.eb j.ec fun k => (k.carry cmd.arrays).modArrays cmd.arrays fun x =>
    let x := if entered then { x.release j.q with bus := .tail } else x
    if last then { x with bus := .free } else x
  s.modJob b j.id fun x =>
    { x with row := j.row + 1, asked := false, got := [], from_ := now + 1, window := window, ended := last, endAt := now + 134 }

/-- A row of the feeder queue enters in this cycle, if its time has come and it is there. A row that is late moves the later ones with
it; where an array has gated meanwhile, it enters 16 cc after it arrived (R258, R262, R267, R268). -/
def State.enterStep (s : State) (b : Nat) (j : Job) : State :=
  let as := j.cmd.arrays
  let now := s.now
  if now < j.from_ || j.ended || !(s.bench b).computes then s
  else match s.feederRow j with
    | none =>
      let s := s.modJob b j.id fun x => { x with late := true }
      if (s.part j.p).scheduledRun then s.mark j.p 7 else s
    | some row =>
      if as.any fun a => ((s.core j.eb j.ec).array a).gated then
        (s.modCore j.eb j.ec fun k => k.wake as).modJob b j.id fun x => { x with from_ := now + 16 }
      else
        let last := decide (j.cmd.rowsM ≤ j.row + 1)
        let s := s.modCore j.eb j.ec fun k => (k.carry as).modArray (as.headD 0) fun y => { y with feeder := y.feeder.erase row }
        let s := s.rowIn b j j.row (now + 261) (lx16 row.2)
        let s := if j.kind = .queue then s.creditReturn b j.c (ctxOf j.q) 1 1 else s
        let s := if last then s.modCore j.eb j.ec fun k => k.modArrays as fun x => { x.release j.q with bus := .free, conv := false } else s
        s.modJob b j.id fun x => { x with row := j.row + 1, from_ := now + 1, ended := last, endAt := now + 261 }

/-- What the operands that have come let a job of the matrix engine do in this cycle. -/
def State.matrixAdvance (s : State) (b : Nat) (j : Job) : State :=
  let there := j.asked && !j.ended && !(s.bench b).reading j
  match j.kind with
  | .load => if there then s.loadStep b j else s
  | .preskew => if there then s.waveStep b j else s
  | .conv => if there then (match j.gens with
      | some u :: _ => s.gatherRow b j (j.read 0 (256 * u) 256)
      | _ => s) else s
  | _ => s

/-! ## Jobs in a cycle -/

/-- The jobs of a bench as they stand, in order of issue. -/
def State.eachJob (s : State) (b : Nat) (f : State → Job → State) : State :=
  ((s.bench b).jobs.map (·.id)).foldl (fun s id => match (s.bench b).jobs.find? fun j => j.id = id with
    | some j => f s j
    | none => s) s

/-- A vector or rail job. -/
def Job.isVec (j : Job) : Bool := j.kind = .vec || j.kind = .rail

/-- Before the banks serve: the jobs of a bench ask for their operands. -/
def State.jobsAsk (s : State) (b : Nat) : State :=
  s.eachJob b fun s j => if j.isVec then s.vecAsk b j else s.matrixAsk b j

/-- After the banks have served: the jobs advance, rows enter, and what is finished completes. -/
def State.jobsAdvance (s : State) (b : Nat) : State :=
  let s := s.eachJob b fun s j => if j.isVec then s.vecAdvance b j else s.matrixAdvance b j
  s.eachJob b fun s j => if j.kind = .queue || j.kind = .conv then s.enterStep b j else s

/-- A job whose rows have passed and whose results are written is complete. -/
def Bench.jobEnded (x : Bench) (j : Job) (now : Nat) : Bool := j.ended && decide (j.endAt ≤ now) && !x.writing j

/-- Complete jobs leave, and their commands complete in this cycle. -/
def State.jobsEnd (s : State) (b : Nat) : State :=
  s.eachJob b fun s j =>
    if (s.bench b).jobEnded j s.now then
      (s.settleOn b j.c (.job j.id) s.now).modBench b fun x => { x with jobs := x.jobs.filter fun y => y.id != j.id }
    else s

/-! ## Jog rows and gating (R269 to R272) -/

/-- The array gates in this cycle if nothing enters: the 64th consecutive jog row, and no command that is still to begin on it. -/
def ArraySt.mayGate (x : ArraySt) (now : Nat) : Bool :=
  !x.gated && !x.carried && decide (63 ≤ x.jogRun) && (match x.bus with
    | .free => true
    | .stream t => decide (t ≤ now)
    | _ => false)

/-- The end of a cycle of an array: a jog row on a bus that carried nothing while it is ungated, counted towards gating unless a JOG
command runs. -/
def ArraySt.jogCycle (x : ArraySt) (now : Nat) (jogging : Bool) : ArraySt :=
  if x.gated then { x with carried := false }
  else if x.carried then { x with carried := false, jogRun := 0 }
  else if jogging then { x with jogRun := 0 }
  else if x.mayGate now then { x with gated := true, jogRun := 0 }
  else { x with jogRun := x.jogRun + 1 }

/-- Jog rows of one cycle of a core. -/
def Core.jogCycle (k : Core) (now : Nat) : Core :=
  let n := (k.mx.arrays.filter fun x => !x.gated && !x.carried).length
  k.modMx fun m => { m with jogCount := satAdd32 m.jogCount n
                            arrays := m.arrays.map fun x => x.jogCycle now (decide (now < m.jogCmdEnd)) }

/-- An array gates in the 64th consecutive cycle of jog rows (R270), whose row counts. -/
def arrayGateEffect (b c a : Nat) (s : State) : State :=
  let k := s.core b c
  if (k.array a).mayGate s.now && decide (k.mx.jogCmdEnd ≤ s.now) then
    s.modCore b c fun k => (k.modMx fun m => { m with jogCount := satAdd32 m.jogCount 1 }).modArray a fun y =>
      { y with gated := true, jogRun := 0 }
  else s
def execArrayGate (b c a : Nat) (s : State) : Host.Outcome State Fault Refusal := done s (arrayGateEffect b c a)

end Sys2Proof.Machine
end

