-- ==== Sys2Proof/Machine/Dma.lean ====
section
/-! DEFINITION. The DMA engines (08_streams_and_dma.md R326 to R392, R396, R827 to R831): descriptors and their faults, tiles and
their requests, class cycles, data of reads and writes, translation. -/

namespace Sys2Proof.Machine

/-! ## Descriptors (R341) -/

def Slot.kind (x : Slot) : Nat := Bytes.nat x.raw 0 1
def Slot.srcSpace (x : Slot) : Nat := Bytes.nat x.raw 1 1
def Slot.dstSpace (x : Slot) : Nat := Bytes.nat x.raw 2 1
def Slot.flags (x : Slot) : Nat := Bytes.nat x.raw 3 1
def Slot.ring (x : Slot) : Bool := bitOf x.flags 0
def Slot.preskew (x : Slot) : Bool := bitOf x.flags 2
def Slot.gateTally (x : Slot) : Nat := Bytes.nat x.raw 4 2 % 2 ^ 13
def Slot.gateEn (x : Slot) : Bool := bitOf (Bytes.nat x.raw 4 2) 15
def Slot.landTally (x : Slot) : Nat := Bytes.nat x.raw 6 2 % 2 ^ 13
def Slot.landEn (x : Slot) : Bool := bitOf (Bytes.nat x.raw 6 2) 15
def Slot.src (x : Slot) : Nat := Bytes.nat x.raw 8 8
def Slot.dst (x : Slot) : Nat := Bytes.nat x.raw 16 8
def Slot.stride (x : Slot) : Int := signedOf (Bytes.nat x.raw 24 8) 64
def Slot.tileBytes (x : Slot) : Nat := Bytes.nat x.raw 32 4
def Slot.tileCount (x : Slot) : Nat := Bytes.nat x.raw 36 4
def Slot.pasidField (x : Slot) : Nat := Bytes.nat x.raw 40 4
def Slot.recordBytes (x : Slot) : Nat := Bytes.nat x.raw 44 2
def Slot.preskewRows (x : Slot) : Nat := Bytes.nat x.raw 46 2
def Slot.period (x : Slot) : Nat := Bytes.nat x.raw 48 4
def Slot.dueCc (x : Slot) : Nat := Bytes.nat x.raw 52 4
def Slot.indexAddr (x : Slot) : Nat := Bytes.nat x.raw 56 4
def Slot.indexLimit (x : Slot) : Nat := Bytes.nat x.raw 60 4
/-- Gather or scatter. -/
def Slot.indexed (x : Slot) : Bool := 2 ≤ x.kind
/-- Records of a tile (R355). -/
def Slot.records (x : Slot) : Nat := x.tileBytes / max 1 x.recordBytes

/-- Far spaces (R328). -/
def farSpace (k : Nat) : Bool := 2 ≤ k && k ≤ 5
/-- The far end is the source (R329). -/
def farIsSrc (src dst : Nat) : Bool := farSpace src || !farSpace dst
/-- Class of a transfer: 0 read, 1 write, 2 remote (R330). -/
def classOf (src dst : Nat) : Nat :=
  if src = 4 || src = 5 || dst = 4 || dst = 5 then 2 else if dst = 2 || dst = 3 then 1 else 0
def Slot.cls (x : Slot) : Nat := classOf x.srcSpace x.dstSpace
/-- A request of the transfer counts against the write limit (R337). -/
def writes (dst : Nat) : Bool := farSpace dst
/-- Bytes of a tile at the local end (R346). -/
def Slot.footprint (x : Slot) : Nat := if x.preskew then (x.preskewRows + 127) * 256 else x.tileBytes

/-! ## Faults (R396) -/

/-- DMA_FAULT with the capture of the first fault, and the abort of the task. -/
def State.dmaFault (s : State) (b c q cause slot addr : Nat) (pasid : Option Nat) : State :=
  (s.modCore b c fun k => k.modDma fun d =>
    if d.fault.getLsbD 0 then d
    else { d with fault := (d.fault &&& 2#32) ||| BitVec.ofNat 32 (1 + 16 * cause + 256 * slot + 65536 * q)
                  faultAddr := BitVec.ofNat 64 addr, faultPasid := BitVec.ofNat 32 (pasid.getD 0) }).raise (benchKey b (1 + c)) 0
    |>.faultAbort b c q 0x63 cause

/-- DEADLINE_MISS of a core, counted where the event counts (R374, R377, R395). -/
def Dma.deadline (d : Dma) (n : Nat) : Dma :=
  { d with fault := setBit d.fault 1, deadlineCount := satAdd32 d.deadlineCount n }
def State.deadline (s : State) (b c n : Nat) : State :=
  (s.modCore b c fun k => k.modDma fun d => d.deadline n).raise (benchKey b (1 + c)) 1

/-- Logical benches of the run. -/
def State.nSlots (s : State) (p : Nat) : Nat := (s.slotSeatsOf p).length

/-- A range of n bytes from an address lies in its space. -/
def State.spaceFits (s : State) (p b ctx space : Nat) (a : Int) (n : Nat) : Bool :=
  let fits (off : Int) (size : Nat) : Bool := decide (0 ≤ off) && decide (off + n ≤ size)
  if space = 0 then fits (a + (s.actOff p b ctx 0 : Nat)) actBytes
  else if space = 1 then fits (a + (s.rackOff p b ctx 0 : Nat)) rackBytes
  else if space = 2 then fits a (s.part p).hbmBytes
  else if space = 4 || space = 5 then
    let w := (a % 18446744073709551616).toNat
    decide (w / 2 ^ 60 < s.nSlots p) && decide (w % 2 ^ 26 + n ≤ (if space = 4 then actBytes else rackBytes))
  else true

/-- An address is a multiple of k. -/
def aligned (a : Int) (k : Nat) : Bool := a % (k : Int) = 0

/-- The slot as the arming of a running tile number set it: a ring stream may restart in an earlier arming (R363, R384). -/
def Slot.forTile (x : Slot) (num : Nat) : Slot :=
  if x.armBase ≤ num then x
  else match x.old.find? fun a => decide (a.1 ≤ num) with
    | some a => { x with armBase := a.1, far := a.2.1, armAt := a.2.2.1, count := a.2.2.2 }
    | none => x

/-- Alignment of a local end (R345), and of a store that a request names (R309, R312). -/
def localUnit (space : Nat) : Nat := if space = 1 then 32 else if space = 0 then 8 else 1
def storeUnit (space : Nat) : Nat := if space = 1 || space = 5 then 32 else if space = 0 || space = 4 then 8 else 1

/-- The unit of a transfer's addresses: that of its local end, of both ends of a gather or scatter between local spaces (R827), and
that of the words of a store that is written or reached on another bench. -/
def transferUnit (indexed : Bool) (src dst : Nat) : Nat :=
  let ends := if farSpace src then localUnit dst else if farSpace dst || indexed then max (localUnit src) (localUnit dst)
    else localUnit dst
  max ends (max (storeUnit dst) (if farSpace src then storeUnit src else 1))

/-- The address of a tile at the end that FAR_OFFSET and STRIDE address, and at the other (R342, R343). -/
def Slot.farAt (x : Slot) (base : Nat) (far : Int) (i : Nat) : Int := (base : Int) + far + x.stride * i
def Slot.nearAt (x : Slot) (base i running : Nat) : Nat := base + (if x.ring then running % 4 else i) * x.footprint

/-- The end that STRIDE addresses is the source: the indexed end of a gather or scatter, else the far end (R329, R827). -/
def Slot.stridedSrc (x : Slot) : Bool :=
  if x.kind = 2 then true else if x.kind = 3 then false else farIsSrc x.srcSpace x.dstSpace

/-- Ranges of an arming: both ends, and the index list. Records are tested when their tile starts. -/
def State.armingFits (s : State) (p b ctx : Nat) (x : Slot) (far : Int) (count : Nat) : Bool :=
  let sBase := if x.stridedSrc then x.src else x.dst
  let sSpace := if x.stridedSrc then x.srcSpace else x.dstSpace
  let nBase := if x.stridedSrc then x.dst else x.src
  let nSpace := if x.stridedSrc then x.dstSpace else x.srcSpace
  let near := if x.ring then 4 else count
  (x.indexed || (if sSpace = 4 || sSpace = 5 then (List.range count).all fun i => s.spaceFits p b ctx sSpace (x.farAt sBase far i) x.tileBytes
    else s.spaceFits p b ctx sSpace (x.farAt sBase far 0) x.tileBytes &&
      s.spaceFits p b ctx sSpace (x.farAt sBase far (count - 1)) x.tileBytes)) &&
  (nSpace = 6 || s.spaceFits p b ctx nSpace nBase (near * x.footprint)) &&
  (!x.indexed || s.spaceFits p b ctx 0 x.indexAddr (4 * count * x.records))

/-- The first cause of a descriptor fault of an arming (R396 causes 1 to 4). -/
def State.slotCause (s : State) (p b ctx : Nat) (credit : Bool) (x : Slot) (far : Int) (count : Nat) : Option Nat :=
  let unit := transferUnit x.indexed x.srcSpace x.dstSpace
  if x.kind = 0 || 3 < x.kind || 5 < x.srcSpace || 6 < x.dstSpace || 8 ≤ x.flags ||
      (farSpace x.srcSpace && farSpace x.dstSpace) || (x.persistent && farSpace x.dstSpace) ||
      (x.preskew && x.dstSpace != 0) || (credit && x.ring && !x.gateEn) then some 1
  else if !aligned x.src unit || !aligned x.dst (if x.dstSpace = 6 then 1 else unit) || !aligned x.stride unit || !aligned far unit ||
      !aligned x.tileBytes unit || x.tileBytes % 256 != 0 || x.tileBytes < 256 || 16777216 < x.tileBytes || x.tileCount = 0 ||
      (x.indexed && (x.recordBytes % max 8 unit != 0 || x.recordBytes < 8 || 4096 < x.recordBytes || x.tileBytes % x.recordBytes != 0)) ||
      (x.preskew && x.tileBytes != 256 * x.preskewRows) then some 2
  else if !s.armingFits p b ctx x far count then some 3
  else if (s.part p).bw.getD x.cls 0 = 0 then some 4
  else none

/-! ## Tiles (R342 to R346, R355 to R357) -/

/-- A piece of a tile before it is cut into requests. -/
structure Piece where
  src : Nat
  dst : Nat
  len : Nat
  off : Nat
  deriving DecidableEq, Repr

/-- A signed address as 64 bits. -/
def addr64 (a : Int) : Nat := (a % 18446744073709551616).toNat

/-- A piece cut at the 512-byte boundaries of its far address (R326). -/
def cutPiece (farSrc : Bool) : Nat → Piece → List Piece
  | 0, _ => []
  | fuel + 1, x =>
    if x.len = 0 then []
    else
      let far := if farSrc then x.src else x.dst
      let n := min x.len (512 - far % 512)
      { x with len := n } :: cutPiece farSrc fuel
        { src := x.src + n, dst := x.dst + n, len := x.len - n, off := x.off + n }

/-- Address of a tile's index words, and the words as they were read (R355, R829). -/
def State.indexAt (s : State) (p b : Nat) (x : Slot) (num : Nat) : Nat :=
  let x := x.forTile num
  s.actOff p b (ctxOf x.starter) (x.indexAddr + 4 * ((num - x.armBase) * x.records))
def indexWords (m : Mem) (base n : Nat) : List Nat := (List.range n).map fun r => leNat (Memory.read m (base + 4 * r) 4)

/-- A local address with the move of an adopted slot (R599). -/
def State.localAddr (s : State) (p b ctx space a : Nat) : Nat :=
  if space = 0 then s.actOff p b ctx a else if space = 1 then s.rackOff p b ctx a else a

/-- The pieces of a tile, in order, given its index words; the source of a gather's zero record is none (R344, R355 to R357). -/
def State.tilePieces (s : State) (p b : Nat) (x : Slot) (num : Nat) (words : List Nat) : List (Bool × Piece) :=
  let x := x.forTile num
  let ctx := ctxOf x.starter
  let i := num - x.armBase
  let mk (strided near off len : Nat) : Piece :=
    if x.stridedSrc then
      { src := s.localAddr p b ctx x.srcSpace strided, dst := s.localAddr p b ctx x.dstSpace near, len := len, off := off }
    else { src := s.localAddr p b ctx x.srcSpace near, dst := s.localAddr p b ctx x.dstSpace strided, len := len, off := off }
  let base := if x.stridedSrc then x.src else x.dst
  let near := x.nearAt (if x.stridedSrc then x.dst else x.src) i num
  if x.indexed then
    words.zipIdx.filterMap fun vr =>
      if vr.1 = 0xFFFFFFFF then (if x.kind = 2 then some (true, mk 0 (near + vr.2 * x.recordBytes) (vr.2 * x.recordBytes) x.recordBytes) else none)
      else some (false, mk (addr64 ((base : Int) + x.far + x.stride * vr.1)) (near + vr.2 * x.recordBytes) (vr.2 * x.recordBytes) x.recordBytes)
  else [(false, mk (addr64 (x.farAt base x.far i)) near 0 x.tileBytes)]

/-- The first cause of a fault of a tile's index words: a record beyond its space (3), an index at or above INDEX_LIMIT (6). -/
def State.tileCause (s : State) (p b : Nat) (x : Slot) (num : Nat) (words : List Nat) : Option Nat :=
  let x := x.forTile num
  let ctx := ctxOf x.starter
  let vs := words.filter (· != 0xFFFFFFFF)
  let base := if x.stridedSrc then x.src else x.dst
  let space := if x.stridedSrc then x.srcSpace else x.dstSpace
  let ok := vs.filter (fun v => decide (v < x.indexLimit))
  if !ok.all (fun v => s.spaceFits p b ctx space ((base : Int) + x.far + x.stride * v) x.recordBytes) then some 3
  else if ok.length != vs.length then some 6
  else none

/-- PASID of a stream's host requests (R386, R387). -/
def State.slotPasid (s : State) (p : Nat) (x : Slot) : Option Nat :=
  if bitOf x.pasidField 31 then some (x.pasidField % 2 ^ 20)
  else match (s.part p).task with
    | some t => t.id.pasid
    | none => none

/-! ## Stores (R309, R312, R828) -/

/-- The bench and store offset that a space 4 or 5 address names (R328, R599). -/
def State.remoteAt (s : State) (p space a : Nat) : Nat × Nat :=
  let k := a / 2 ^ 60
  let half := if space = 4 then 25165824 else 33554432
  (s.slotBench p k, a % 2 ^ 26 + (if ((s.part p).adopted.lookup k).isSome then half else 0))

/-- The bench, port, store and offset of a bench store that a transfer of core c of bench b names: its own through the DMA port,
another bench's through that bench's ring port (R828). -/
def State.storeAt (s : State) (p b c space a : Nat) : Nat × Nat × Bool × Nat :=
  if space = 4 || space = 5 then ((s.remoteAt p space a).1, 6, decide (space = 5), (s.remoteAt p space a).2)
  else (b, c, decide (space = 1), a)

/-- The element places of a piece of a pre-skewed tile: element e of row j lies in unit j + e (R257, R346). -/
def skewPlaces (base off : Nat) (bs : Bytes) : List (Nat × Bytes) :=
  (List.range (bs.length / 2)).map fun i =>
    let o := off + 2 * i
    (base + 256 * (o / 256 + o % 256 / 2) + o % 256, Bytes.sub bs (2 * i) 2)

/-- The zero elements around a pre-skewed block of n rows, unit by unit. -/
def skewZeros (base n : Nat) : List (Nat × Bytes) :=
  (List.range (n + 127)).flatMap fun w =>
    let lo := if n ≤ w then min 128 (w - n + 1) else 0
    let hi := min 128 (w + 1)
    [(base + 256 * w, List.replicate (2 * lo) 0), (base + 256 * w + 2 * hi, List.replicate (2 * (128 - hi)) 0)].filter fun x => x.2 != []

/-- Write requests of scattered bytes, row by row. -/
def MemReq.scatter (r : MemReq) (xs : List (Nat × Bytes)) : List MemReq :=
  let parts := xs.flatMap fun x => (rowParts x.1 x.2.length).map fun y => (y.1, y.2.1, (x.2.drop (y.2.1 - x.1)).take y.2.2)
  (parts.map (·.1)).eraseDups.map fun row =>
    { r with row := row, write := true, data := (parts.filter fun y => y.1 = row).map (·.2) }

/-- Write requests of bytes of a stream's tile at its local destination. -/
def State.tileWrites (s : State) (p b c : Nat) (x : Slot) (num : Nat) (who : Who) (due a off : Nat) (bs : Bytes) : List MemReq :=
  let x := x.forTile num
  let r : MemReq := { due := due, port := c, rack := decide (x.dstSpace = 1), who := who }
  if x.preskew then r.scatter (skewPlaces (s.actOff p b (ctxOf x.starter) (x.nearAt x.dst (num - x.armBase) num)) off bs)
  else r.writes a bs

/-! ## When the engine runs -/

/-- The partition's streams issue requests: a run is in progress, and no abort, rerun or recovery has stopped them (R375, R383,
R397). -/
def State.dmaRuns (s : State) (p : Nat) : Bool := (s.part p).hasTask && match (s.part p).stop with
  | .none => true
  | .late _ _ _ _ => true
  | .pause _ => true
  | .clamp _ => true
  | .takeover _ => !(s.part p).scheduledRun
  | _ => false

/-- slot_class of R333. -/
def frameClasses (units : List Nat) : Nat → List Int → List Nat
  | 0, _ => []
  | n + 1, claim =>
    let claim := List.zipWith (fun c (u : Nat) => c + (u : Int)) claim units
    let w := if claim.getD 1 0 ≤ claim.getD 0 0 && claim.getD 2 0 ≤ claim.getD 0 0 then 0
      else if claim.getD 2 0 ≤ claim.getD 1 0 then 1 else 2
    w :: frameClasses units n (claim.modify w (· - 20))

/-- Class of the running cycle for a partition (R333). -/
def State.classNow (s : State) (p : Nat) : Nat :=
  (frameClasses (s.part p).bw 20 [0, 0, 0]).getD (s.beat.cc % 20) 0

/-! ## Translation (R385 to R392) -/

/-- The function of a partition's run has ATS or PRI enabled (R388, R390). -/
def State.runFn (s : State) (p : Nat) : Nat := match (s.part p).task with
  | some t => t.id.f
  | none => p + 1
def State.atsOn (s : State) (p : Nat) : Bool := s.start.ats.contains (s.runFn p)
def State.priOn (s : State) (p : Nat) : Bool := s.start.pri.contains (s.runFn p)

/-- The cached translation of an address for a function and PASID. -/
def Dma.cached (d : Dma) (fn : Nat) (pasid : Option Nat) (a : Nat) : Option AtcEnt :=
  d.atc.find? fun e => e.fn = fn && e.pasid = pasid && decide (e.base ≤ a) && decide (a < e.base + e.len)

/-- A translation of a slot is in work: it issues no further request (R390). -/
def Dma.translating (d : Dma) (slot : Nat) : Bool := d.trans.any fun t => t.slot = slot

/-- The host address of a request, where it has one. -/
def Req.hostAddr (r : Req) : Option Nat := if r.srcSpace = 3 then some r.src else if r.dstSpace = 3 then some r.dst else none

/-- Outstanding limits (R337). -/
def Dma.room (d : Dma) (r : Req) : Bool := if r.write then decide (d.writes.length < 256) else decide (d.reads.length < 512)

/-- The first unissued request of a slot. -/
def Slot.nextReq (x : Slot) : Option Req := (x.tiles.findSome? fun t => t.toIssue.head?)

/-- A request may issue in this cycle but for its translation. -/
def Dma.may (d : Dma) (cls slot : Nat) (r : Req) : Bool := r.cls = cls && d.room r && !d.translating slot

/-- The stream slot that a class serves: round robin from the slot after the last served (R335). -/
def Dma.streamPick (d : Dma) (cls : Nat) : Option (Nat × Req) :=
  let from_ := d.rr.getD cls 0
  ((List.range 64).map fun i => (from_ + 1 + i) % 64).findSome? fun i =>
    match (d.slots.getD i {}).nextReq with
    | some r => if d.may cls i r then some (i, r) else none
    | none => none

/-- The dowel transfer that a class serves: the first waiting one of the class, in dowel-queue order (R335, R368). -/
def Dma.dowelPick (d : Dma) (cls : Nat) : Option (Nat × Req) :=
  match (d.dowels.filterMap fun x => x.parts.head?).find? fun r => r.cls = cls with
  | some r => if d.may cls 64 r then some (64, r) else none
  | none => none

/-! ## Issue of a request -/

/-- A translation is asked for. -/
def State.askTranslation (s : State) (b c slot : Nat) (r : Req) (a : Nat) : State :=
  let now := s.beat.periods
  (s.modCore b c fun k => k.modDma fun d =>
    { d with trans := d.trans ++ [{ pasid := r.pasid, iova := a, slot := slot, q := r.q, phase := 0, since := now }] }).emit
      (.atsRequest r.pasid a)

/-- The request leaves its tile. -/
def Slot.took (x : Slot) (r : Req) : Slot :=
  { x with issued := if x.armBase ≤ r.tile then x.issued + 1 else x.issued
           tiles := x.tiles.map fun t =>
      if t.num = r.tile then { t with toIssue := t.toIssue.drop 1, out := t.out + 1 } else t }

/-- An outstanding request changes. -/
def Dma.modReq (d : Dma) (id : Nat) (f : Req → Req) : Dma :=
  { d with reads := d.reads.map fun r => if r.id = id then f r else r, writes := d.writes.map fun r => if r.id = id then f r else r }
def State.modReq (s : State) (b c id : Nat) (f : Req → Req) : State := s.modCore b c fun k => k.modDma fun d => d.modReq id f

/-- An outstanding request of a core. -/
def State.req (s : State) (b c id : Nat) : Option Req :=
  let d := (s.core b c).dma
  (d.reads ++ d.writes).find? fun r => r.id = id

/-- A request reads its source in a bench's store. -/
def State.readSource (s : State) (p b c due : Nat) (r : Req) : State :=
  let (x, port, rack, a) := s.storeAt p b c r.srcSpace r.src
  (s.modReq b c r.id fun y => { y with stage := .reading }).ask x
    (MemReq.reads { due := due, port := port, rack := rack, who := .dma b c r.id } a r.len)

/-- The bytes that a request has. -/
def Req.bytes (r : Req) : Bytes := Memory.read r.buf 0 r.len

/-- A write request gives its bytes to its far destination: the HBM share, the host, or another bench's store (R328, R388). -/
def State.writeFar (s : State) (p b c : Nat) (r : Req) : State :=
  let s1 := s.modReq b c r.id fun y => { y with stage := .sent }
  if r.dstSpace = 2 then s1.hbmWrite p r.dst r.bytes
  else if r.dstSpace = 3 then
    match r.used with
    | some e => s1.emit (.translatedWrite (e.addr + (r.dst - e.base)) r.bytes)
    | none => s1.emit (.hostWrite r.pasid r.dst r.bytes)
  else
    let (x, port, rack, a) := s.storeAt p b c r.dstSpace r.dst
    s1.ask x (MemReq.writes { due := s.now + 1, port := port, rack := rack, who := .dma b c r.id } a r.bytes)

/-- A tile that has left its ring slot: no request of it is unissued, and none still reads its source (R352). -/
def State.ringRead (s : State) (b c slot num : Nat) : Bool :=
  let k := s.core b c
  ((k.slot slot).tiles.find? fun t => t.num = num).any (fun t => t.toIssue.isEmpty && t.index.isNone) &&
    !k.dma.writes.any fun r => r.slot = slot && r.tile = num && r.stage = .reading

/-- Credit link 5 returns one ring slot when every read of a tile from the ring has completed (R352). -/
def State.ringCredit (s : State) (b c slot num : Nat) : State :=
  let x := (s.core b c).slot slot
  if slot != 64 && x.ring && !farSpace x.srcSpace && s.ringRead b c slot num then s.creditReturn b c (ctxOf x.starter) 5 1 else s

/-- A request issues (R327, R334, R338, R339): a write reads its source through its port; a zero record has its bytes; a read waits
for its data. -/
def State.issueReq (s : State) (p b c cls slot : Nat) (r : Req) (used : Option AtcEnt) : State :=
  let id := (s.core b c).dma.nextId
  let r := { r with id := id, used := used }
  let s := s.modCore b c fun k => k.modDma fun d =>
    { d with nextId := id + 1, rr := if slot = 64 then d.rr else d.rr.set cls slot
             reads := if r.write then d.reads else d.reads ++ [r], writes := if r.write then d.writes ++ [r] else d.writes
             slots := if slot = 64 then d.slots else d.slots.modify slot fun x => x.took r
             dowels := if slot = 64 then
                 (d.dowels.map fun x => if x.id = r.tile then { x with parts := x.parts.drop 1 } else x).filter fun x => !x.parts.isEmpty
               else d.dowels }
  if !r.write then s
  else if r.srcSpace = 7 then (s.writeFar p b c r).ringCredit b c slot r.tile
  else s.readSource p b c s.now r

/-- One core's request of the running cycle. -/
def State.dmaCycle (s : State) (b c : Nat) : State :=
  match s.benchPart b with
  | none => s
  | some p =>
    if !s.dmaRuns p || !(s.bench b).computes then s
    else
      let d := (s.core b c).dma
      let cls := s.classNow p
      match (d.dowelPick cls).or (d.streamPick cls) with
      | none => s
      | some (slot, r) => match r.hostAddr with
        | some a =>
          if s.atsOn p then
            match d.cached (s.runFn p) r.pasid a with
            | some e => s.issueReq p b c cls slot r (some e)
            | none => s.askTranslation b c slot r a
          else s.issueReq p b c cls slot r none
        | none => s.issueReq p b c cls slot r none

end Sys2Proof.Machine
end

