-- ==== Sys2Proof/Machine/Stream.lean ====
section
/-! DEFINITION. Stream and dowel commands (R359 to R370) and the events of streams: tile start, data, landing, lateness (R371 to
R377), translation (R388 to R393, R641). -/

namespace Sys2Proof.Machine

/-! ## Slots -/

/-- The commands that wait for a slot complete: it is idle. -/
def State.slotIdle (s : State) (b c i : Nat) : State :=
  let now := s.now
  (((s.settleOn b c (.streamLanded i) now).settleOn b c (.streamStarted i) now).settleOn b c (.slotIdle i) now).modSlot b c i Slot.quiet

/-- A draining slot, or one that is not persistent, is idle when what it started has landed (R364). -/
def State.slotRest (s : State) (b c i : Nat) : State :=
  let x := (s.core b c).slot i
  if x.busy && ((x.draining && x.started = x.landed) || (!x.persistent && x.armBase + x.count ≤ x.landed)) then s.slotIdle b c i
  else s

/-- SDRAIN of a slot. -/
def State.drainSlot (s : State) (b c i : Nat) : State :=
  (s.modSlot b c i fun x => { x with draining := true }).slotRest b c i

/-! ## SSTART, SREARM, SDRAIN -/

/-- Far address of a slot's tile 0 (R329): at the strided end, or at the contiguous end of a gather to a far space (R827). -/
def Slot.farBase (x : Slot) (far : Int) : Nat :=
  if x.stridedSrc = farIsSrc x.srcSpace x.dstSpace then addr64 (x.farAt (if x.stridedSrc then x.src else x.dst) far 0)
  else if x.stridedSrc then x.dst else x.src

/-- FAR_OFFSET (R359). -/
def Cmd.farOffset (c : Cmd) : Int := signedOf c.opB.toNat 64

/-- SSTART (R359, R360, R396). -/
def sstartEffect (b c q : Nat) (s : State) : State :=
  match s.mayIssue b c q 0xA0 with
  | none => s
  | some (p, t, cmd) =>
    let i := s.slotIdx p b (ctxOf q) (cmd.a 5 0)
    let x := { (s.core b c).slot i with starter := q }
    let cause := (s.slotCause p b (ctxOf q) t.credit x cmd.farOffset x.tileCount).or
      (if x.busy && x.persistent then some 5 else none)
    match cause with
    | some k => s.dmaFault b c q k i (x.farBase cmd.farOffset) (s.slotPasid p x)
    | none =>
      let now := s.now
      let s := s.issue p t b c q cmd now (if x.persistent then .streamStarted i else .streamLanded i)
      s.modSlot b c i fun x => { raw := x.raw, busy := true, starter := q, far := cmd.farOffset, count := x.tileCount, armAt := now }
def execSstart (b c q : Nat) (s : State) : Host.Outcome State Fault Refusal := done s (sstartEffect b c q)

/-- SDRAIN (R364, R396). -/
def sdrainEffect (b c q : Nat) (s : State) : State :=
  match s.mayIssue b c q 0xA1 with
  | none => s
  | some (p, t, cmd) =>
    let i := s.slotIdx p b (ctxOf q) (cmd.a 5 0)
    let x := (s.core b c).slot i
    if !(x.busy && x.persistent) then s.dmaFault b c q 5 i (x.farBase x.far) (s.slotPasid p x)
    else (s.issue p t b c q cmd s.now (.slotIdle i)).drainSlot b c i
def execSdrain (b c q : Nat) (s : State) : Host.Outcome State Fault Refusal := done s (sdrainEffect b c q)

/-- SREARM (R363, R396). -/
def srearmEffect (b c q : Nat) (s : State) : State :=
  match s.mayIssue b c q 0xA2 with
  | none => s
  | some (p, t, cmd) =>
    let i := s.slotIdx p b (ctxOf q) (cmd.a 5 0)
    let x := (s.core b c).slot i
    let n := if cmd.a 31 6 = 0 then x.tileCount else cmd.a 31 6
    let cause := (s.slotCause p b (ctxOf q) t.credit x cmd.farOffset n).or
      (if x.busy && x.persistent then none else some 5)
    match cause with
    | some k => s.dmaFault b c q k i (x.farBase cmd.farOffset) (s.slotPasid p x)
    | none =>
      let now := s.now
      (s.issue p t b c q cmd now (.streamStarted i)).modSlot b c i fun x =>
        { x with far := cmd.farOffset, count := n, armBase := x.armBase + x.count, armAt := now, issued := 0
                 old := (x.armBase, x.far, x.armAt, x.count) :: x.old.take 4 }
def execSrearm (b c q : Nat) (s : State) : Host.Outcome State Fault Refusal := done s (srearmEffect b c q)

/-! ## DOWEL (R366 to R370) -/

def Cmd.dowelLen (c : Cmd) : Nat := 8 * (c.a 4 0 + 1)
def Cmd.dowelOut (c : Cmd) : Bool := c.a 5 5 = 1
/-- The far space as R328 codes it; 7 where it is reserved. -/
def Cmd.dowelFar (c : Cmd) : Nat :=
  if c.a 7 6 = 0 then 2 else if c.a 7 6 = 1 then 3 else if c.a 7 6 = 2 then 4 else 7
def Cmd.dowelLocal (c : Cmd) : Nat := c.a 8 8
def Cmd.dowelAddr (c : Cmd) : Nat := 8 * c.a 31 9
def Cmd.dowelSrc (c : Cmd) : Nat := if c.dowelOut then c.dowelLocal else c.dowelFar
def Cmd.dowelDst (c : Cmd) : Nat := if c.dowelOut then c.dowelFar else c.dowelLocal

/-- The first cause of a fault of a DOWEL at issue. -/
def State.dowelCause (s : State) (p b ctx : Nat) (t : Task) (cmd : Cmd) : Option Nat :=
  let unit := transferUnit false cmd.dowelSrc cmd.dowelDst
  let far := cmd.opB.toNat
  if cmd.dowelFar = 7 || (!t.credit && cmd.dowelFar = 3 && !cmd.dowelOut) then some 1
  else if !aligned far unit || !aligned cmd.dowelAddr unit || !aligned cmd.dowelLen unit then some 2
  else if !s.spaceFits p b ctx cmd.dowelLocal cmd.dowelAddr cmd.dowelLen || !s.spaceFits p b ctx cmd.dowelFar far cmd.dowelLen then
    some 3
  else if (s.part p).bw.getD (classOf cmd.dowelSrc cmd.dowelDst) 0 = 0 then some 4
  else none

/-- Period of the gate that closes the HBM window of the running schedule in which an access starts, where it lies in one (R80). -/
def State.windowGate (s : State) (p : Nat) (t : Task) (start : Nat) : Option Nat :=
  (Config.hbmWindowGate (s.part p).img ((start - t.startAt) / s.m - t.shift)).map fun g => t.startAt / s.m + g + t.shift

/-- The requests of a dowel transfer. -/
def State.dowelParts (s : State) (p b q id : Nat) (cmd : Cmd) : List Req :=
  let near := s.localAddr p b (ctxOf q) cmd.dowelLocal cmd.dowelAddr
  let far := cmd.opB.toNat
  let x : Piece := if cmd.dowelOut then { src := near, dst := far, len := cmd.dowelLen, off := 0 }
    else { src := far, dst := near, len := cmd.dowelLen, off := 0 }
  let pasid := match (s.part p).task with
    | some t => t.id.pasid
    | none => none
  let gate := match (s.part p).task with
    | some t => if !t.credit && cmd.dowelSrc = 2 then s.windowGate p t s.now else none
    | none => none
  (cutPiece (!cmd.dowelOut) 256 x).map fun y =>
    { slot := 64, q := q, tile := id, cls := classOf cmd.dowelSrc cmd.dowelDst, write := cmd.dowelOut, srcSpace := cmd.dowelSrc
      src := y.src, dstSpace := cmd.dowelDst, dst := y.dst, len := y.len, off := y.off, pasid := pasid, gate := gate }

/-- DOWEL enters the dowel queue (R366, R367). -/
def dowelEffect (b c q : Nat) (errs : List Upset) (s : State) : State :=
  let s := s.strike errs
  match s.mayIssue b c q 0xA3 with
  | none => s
  | some (p, t, cmd) => match s.dowelCause p b (ctxOf q) t cmd with
    | some k => s.dmaFault b c q k 64 cmd.opB.toNat t.id.pasid
    | none =>
      let id := (s.core b c).dma.nextId
      let parts := s.dowelParts p b q id cmd
      let s := s.issue p t b c q cmd s.now (.dowel id)
      s.modCore b c fun k => k.modDma fun d =>
        { d with nextId := id + 1, dowels := d.dowels ++ [{ id := id, q := q, total := parts.length, parts := parts }] }
def execDowel (b c q : Nat) (errs : List Upset) (s : State) : Host.Outcome State Fault Refusal := done s (dowelEffect b c q errs)

/-! ## Tile start (R349 to R351, R371, R829) -/

/-- A tile's start consumes GATE_TALLY: every tile of a ring with a local source, and from the fifth on one with a local destination
(R349, R351, R831). -/
def Slot.gated (x : Slot) (num : Nat) : Bool :=
  x.ring && x.gateEn && decide (x.noGate ≤ num) && (!farSpace x.srcSpace || decide (4 ≤ num))

/-- The tile as it starts: its due cycle, its gate, and whether its index words have still to be read (R371, R372, R829). -/
def State.newTile (s : State) (p : Nat) (t : Task) (x : Slot) (num : Nat) : Tile :=
  let x := x.forTile num
  let start := x.armAt + (num - x.armBase) * x.period
  let win := if x.srcSpace = 2 && !t.credit then s.windowGate p t start else none
  { num := num, index := if x.indexed then some [] else none, gated := !t.credit && (x.srcSpace = 3 || win.isSome), gate := win
    start := start, due := start + x.dueCc }

/-- The requests of a tile whose index words are known, and its zero records at a local destination. -/
def State.tileReqs (s : State) (p b slot : Nat) (x : Slot) (num : Nat) (words : List Nat) : List Req × List (Nat × Nat × Nat) :=
  let ps := s.tilePieces p b x num words
  let farDst := farSpace x.dstSpace
  ((ps.filter fun y => !y.1 || farDst).flatMap fun y =>
    (cutPiece (!y.1 && farIsSrc x.srcSpace x.dstSpace) 65536 y.2).map fun z =>
      ({ slot := slot, q := x.starter, tile := num, cls := x.cls, write := writes x.dstSpace, srcSpace := if y.1 then 7 else x.srcSpace
         src := z.src, dstSpace := x.dstSpace, dst := z.dst, len := z.len, off := z.off, pasid := s.slotPasid p x } : Req),
   (ps.filter fun y => y.1 && !farDst).map fun y => (y.2.dst, y.2.off, y.2.len))

/-- A change of one tile of a slot. -/
def Slot.modTile (x : Slot) (num : Nat) (f : Tile → Tile) : Slot := { x with tiles := x.tiles.map fun t => if t.num = num then f t else t }
def State.modTile (s : State) (b c slot num : Nat) (f : Tile → Tile) : State := s.modSlot b c slot fun x => x.modTile num f

/-- The zero elements and zero records of a tile are written at a local destination that they may reach. -/
def State.tileZeros (s : State) (p b c slot : Nat) (t : Tile) : State :=
  let x := (s.core b c).slot slot
  if x.dstSpace = 6 || farSpace x.dstSpace then s
  else
    let y := x.forTile t.num
    let base := s.actOff p b (ctxOf y.starter) (y.nearAt y.dst (t.num - y.armBase) t.num)
    let who : Who := .tile slot t.num
    let r : MemReq := { due := s.now, port := c, rack := decide (x.dstSpace = 1), who := who }
    let edge := if x.preskew then r.scatter (skewZeros base x.preskewRows) else []
    let rs := t.zeros.flatMap fun z => s.tileWrites p b c x t.num who s.now z.1 z.2.1 (List.replicate z.2.2 0)
    (s.ask b (edge ++ rs)).modTile b c slot t.num fun u => { u with zeros := [] }

/-- Every request of a tile is issued, and every datum of it has come. -/
def State.tileCame (s : State) (b c slot : Nat) (t : Tile) : Bool :=
  t.index.isNone && t.toIssue.isEmpty && !(s.core b c).dma.reads.any fun r =>
    r.slot = slot && r.tile = t.num && !(r.stage = .held || r.stage = .writing)

/-- A gated tile whose last datum has come is captured (R372). -/
def State.noteCapture (s : State) (b c slot num : Nat) : State :=
  match ((s.core b c).slot slot).tiles.find? fun t => t.num = num with
  | some t => if t.gated && t.capturedAt.isNone && s.tileCame b c slot t then
      let now := s.beat.periods
      s.modTile b c slot num fun u => { u with capturedAt := some now } else s
  | none => s

/-- The 256-byte rows of a feeder tile that have come, in order, from row n on. -/
def State.rowCame (s : State) (b c slot : Nat) (t : Tile) (n : Nat) : Option Bytes :=
  let m := (s.core b c).dma.reads.foldl (fun (m : Mem × Nat) r =>
    if r.slot = slot && r.tile = t.num && r.stage = .held then
      let lo := max r.off (256 * n)
      let hi := min (r.off + r.len) (256 * n + 256)
      (Memory.write m.1 r.off r.bytes, m.2 + (hi - lo))
    else m) ([], 0)
  let zeros := (t.zeros.map fun z => min (z.2.1 + z.2.2) (256 * n + 256) - max z.2.1 (256 * n)).sum
  if m.2 + zeros = 256 then some (Memory.read m.1 (256 * n) 256) else none

/-- Rows that have come, one after another, join those that wait before the feeder queue: tile after tile (R347). -/
def State.feedRows (s : State) (b c slot : Nat) : Nat → State
  | 0 => s
  | n + 1 =>
    let x := (s.core b c).slot slot
    match x.tiles.find? fun t => decide (256 * t.rowsOut < x.tileBytes) with
    | some t =>
      if t.gated || t.index.isSome then s
      else match s.rowCame b c slot t t.rowsOut with
        | some row => State.feedRows ((s.modCore b c fun k => k.modArray (x.dst % 4) fun a => { a with pushes := a.pushes ++ [(slot, t.num, row)] }).modTile
            b c slot t.num fun u => { u with rowsOut := u.rowsOut + 1 }) b c slot n
        | none => s
    | none => s

/-- The index words of a tile are known: its faults (R357, R396), or its requests, its zeros, and, where no record of a ring slot is to
be written, the credit (R352). -/
def State.tileIndexed (s : State) (p b c slot num : Nat) (words : List Nat) : State :=
  let x := ((s.core b c).slot slot).forTile num
  match s.tileCause p b x num words with
  | some k => s.dmaFault b c x.starter k slot (x.farBase x.far) (s.slotPasid p x)
  | none =>
    let y := s.tileReqs p b slot x num words
    let s := s.modTile b c slot num fun t => { t with index := none, toIssue := y.1, zeros := y.2 }
    let s := match ((s.core b c).slot slot).tiles.find? fun t => t.num = num with
      | some t => if t.gated then s else s.tileZeros p b c slot t
      | none => s
    let s := (if y.1.isEmpty then s.ringCredit b c slot num else s).noteCapture b c slot num
    if x.dstSpace = 6 then s.feedRows b c slot 65536 else s

/-- Slots below one whose next tile waits for the same tally: their waits come first (R414). -/
def State.slotWaits (s : State) (p b c slot i : Nat) : Nat :=
  ((List.range slot).filter fun j =>
    let y := ((s.core b c).slot j).forTile ((s.core b c).slot j).started
    y.busy && !y.draining && !y.exhausted && y.gated y.started && s.tallyOf p b (ctxOf y.starter) y.gateTally = i).length

/-- A stream may start its next tile in this cycle (R349, R351, R362, R371). -/
def State.tileDue (s : State) (p b c slot : Nat) (t : Task) : Bool :=
  let x := ((s.core b c).slot slot).forTile ((s.core b c).slot slot).started
  x.busy && !x.draining && !x.exhausted && (s.bench b).computes &&
    (if t.credit then !x.gated x.started ||
        (let i := s.tallyOf p b (ctxOf x.starter) x.gateTally
         decide (s.slotWaits p b c slot i < s.tallyLeft b c 40 i))
     else decide (x.armAt + (x.started - x.armBase) * x.period ≤ s.now) && x.cls = s.classNow p)

/-- A stream starts its next tile: GATE_TALLY is taken, and the index words are read, or the requests are ready. -/
def State.startTile (s : State) (p b c slot : Nat) (t : Task) : State :=
  let x := ((s.core b c).slot slot).forTile ((s.core b c).slot slot).started
  let num := x.started
  let now := s.now
  let tally := s.tallyOf p b (ctxOf x.starter) x.gateTally
  let tile := s.newTile p t x num
  let s := s.modCore b c fun k =>
    let k := if t.credit && x.gated num then k.take now tally 1 else k
    k.modSlot slot fun y => { y with started := num + 1, tiles := y.tiles ++ [tile] }
  let s := if num = x.armBase then s.settleOn b c (.streamStarted slot) now else s
  if x.indexed then
    s.ask b (MemReq.reads { due := now, port := c, who := .index slot num } (s.indexAt p b x num) (4 * x.records))
  else s.tileIndexed p b c slot num []

/-- STREAM_TILE_START. -/
def streamTileStartEffect (b c slot : Nat) (errs : List Upset) (s : State) : State :=
  let s := s.strike errs
  match s.benchPart b with
  | none => s
  | some p => match s.issuing p with
    | none => s
    | some t => if s.tileDue p b c slot t then s.startTile p b c slot t else s
def execStreamTileStart (b c slot : Nat) (errs : List Upset) (s : State) : Host.Outcome State Fault Refusal :=
  done s (streamTileStartEffect b c slot errs)

/-- Index words of a tile have come; with the last of them the tile goes on (R829). -/
def State.indexCame (s : State) (b c slot num : Nat) (spans : List (Nat × Nat)) (bs : List Bytes) : State :=
  let add (m : Mem) : Mem := (spans.zip bs).foldl (fun m x => Memory.write m x.1.1 x.2) m
  let s := s.modTile b c slot num fun t => { t with index := t.index.map add }
  if (s.bench b).reqs.any fun r => r.port = c && r.who = .index slot num then s
  else
    let x := (s.core b c).slot slot
    match x.tiles.find? (fun t => t.num = num), s.benchPart b with
    | some t, some p => match t.index with
      | some m => s.tileIndexed p b c slot num (indexWords m (s.indexAt p b x num) x.records)
      | none => s
    | _, _ => s

/-! ## Data (R338, R339, R347, R358, R383, R392, R397) -/

/-- A translation or request cannot be resolved: DMA_FAULT cause 7 (R392, R396). -/
def State.unresolvable (s : State) (b c q slot addr : Nat) (pasid : Option Nat) : State := s.dmaFault b c q 7 slot addr pasid

/-- A request is no longer outstanding. -/
def Dma.drop (d : Dma) (id : Nat) : Dma :=
  { d with reads := d.reads.filter (fun r => r.id != id), writes := d.writes.filter (fun r => r.id != id) }

/-- A dowel transfer with nothing left is complete (R359). -/
def State.dowelRest (s : State) (b c id : Nat) : State :=
  let d := (s.core b c).dma
  if !(d.dowels.any fun x => x.id = id) && !((d.reads ++ d.writes).any fun r => r.slot = 64 && r.tile = id) then
    s.settleOn b c (.dowel id) s.now
  else s

/-- A scatter to a local store writes its records in their order: a later one waits for the earlier ones (R358). -/
def State.inOrder (s : State) (b c : Nat) (r : Req) : Bool :=
  r.slot = 64 || ((s.core b c).slot r.slot).kind != 3 ||
    !(s.core b c).dma.reads.any fun x => x.slot = r.slot && x.tile = r.tile && decide (x.id < r.id)

/-- The data of a request are to stay where they are: its tile is gated, its row has still to be pushed, an earlier record has still
to be written, or its window's gate has not come. -/
def State.reqHolds (s : State) (b c : Nat) (r : Req) : Bool :=
  r.dstSpace = 6 || r.gate.isSome || !s.inOrder b c r ||
    (r.slot != 64 && ((s.core b c).slot r.slot).tiles.any fun t => t.num = r.tile && t.gated)

/-- The data of a read are written at their local destination. -/
def State.writeLocal (s : State) (p b c : Nat) (r : Req) : State :=
  let who : Who := .dma b c r.id
  let rs := if r.slot = 64 then
      MemReq.writes { due := s.now, port := c, rack := decide (r.dstSpace = 1), who := who } r.dst r.bytes
    else s.tileWrites p b c ((s.core b c).slot r.slot) r.tile who s.now r.dst r.off r.bytes
  (s.modReq b c r.id fun y => { y with stage := .writing }).ask b rs

/-- A request has ended: its tile or transfer goes on, and a record of a scatter that waited for it is written. -/
def State.reqEnd (s : State) (b c : Nat) (r : Req) : State :=
  let s := s.modCore b c fun k => k.modDma fun d => d.drop r.id
  if r.slot = 64 then s.dowelRest b c r.tile
  else
    let s := s.modTile b c r.slot r.tile fun t => { t with out := t.out - 1 }
    match s.benchPart b, (s.core b c).dma.reads.find? fun x => x.slot = r.slot && x.tile = r.tile && x.stage = .held with
    | some p, some x => if s.reqHolds b c x then s else s.writeLocal p b c x
    | _, _ => s

/-- The bytes of a request's source have come: a write gives them to its far end, a read to its local destination, or it holds them. -/
def State.sourceCame (s : State) (p b c : Nat) (r : Req) : State :=
  if r.write then (s.writeFar p b c r).ringCredit b c r.slot r.tile
  else if s.reqHolds b c r then
    let now := s.beat.periods
    let s := (s.modReq b c r.id fun y => { y with stage := .held, at_ := now }).noteCapture b c r.slot r.tile
    if r.dstSpace = 6 then s.feedRows b c r.slot 65536 else s
  else s.writeLocal p b c r

/-- A bench store has served a request of a DMA request: with the last of a read its source has come, with the last of a read's
writes it has ended. -/
def State.dmaServed (s : State) (x b c id : Nat) (m : MemReq) (bs : List Bytes) : State :=
  match s.req b c id with
  | none => s
  | some r =>
    if m.write then
      if (s.bench x).awaits (.dma b c id) || r.write then s else s.reqEnd b c r
    else
      let base := match s.benchPart b with
        | some p => (s.storeAt p b c r.srcSpace r.src).2.2.2
        | none => 0
      let s := s.modReq b c id fun y => { y with buf := (m.spans.zip bs).foldl (fun n z => Memory.write n (z.1.1 - base) z.2) y.buf }
      if (s.bench x).awaits (.dma b c id) then s
      else match s.req b c id, s.benchPart b with
        | some r, some p => s.sourceCame p b c r
        | _, _ => s

/-- Read data return, or a host read ends with an error. -/
def State.readReturn (s : State) (b c id : Nat) (x : Xfer) : State :=
  match (s.core b c).dma.reads.find? (fun r => r.id = id && r.stage = .away), s.benchPart b with
  | some r, some p =>
    if !s.dmaRuns p then s.reqEnd b c r
    else match decide (r.srcSpace = 3), x with
      | true, .ur => (s.reqEnd b c r).unresolvable b c r.q r.slot r.src r.pasid
      | true, .ca => (s.reqEnd b c r).unresolvable b c r.q r.slot r.src r.pasid
      | _, _ =>
        if r.srcSpace = 2 || r.srcSpace = 3 then
          let data := if r.srcSpace = 2 then s.shareRead p r.src r.len else match x with
            | .ok data => Bytes.sub data 0 r.len
            | _ => []
          let s := s.modReq b c id fun y => { y with buf := Memory.ofBytes 0 data }
          s.sourceCame p b c { r with buf := Memory.ofBytes 0 data }
        else s.readSource p b c s.now r
  | some r, none => s.reqEnd b c r
  | none, _ => s

/-- READ_DATA_RETURN (R338, R392). -/
def readDataReturnEffect (b c id : Nat) (x : Xfer) (errs : List Upset) (s : State) : State := (s.strike errs).readReturn b c id x
def execReadDataReturn (b c id : Nat) (x : Xfer) (errs : List Upset) (s : State) : Host.Outcome State Fault Refusal :=
  done s (readDataReturnEffect b c id x errs)

/-- A host read that gets no completion is handled as a Completer Abort (R641). -/
def completionTimeoutEffect (b c id : Nat) (s : State) : State :=
  match (s.core b c).dma.reads.find? fun r => r.id = id with
  | some r => if r.srcSpace = 3 then s.readReturn b c id .ca else s
  | none => s
def execCompletionTimeout (b c id : Nat) (s : State) : Host.Outcome State Fault Refusal := done s (completionTimeoutEffect b c id)

/-- WRITE_COMPLETE (R339): the far end has the bytes of a write. -/
def writeCompleteEffect (b c id : Nat) (s : State) : State :=
  match (s.core b c).dma.writes.find? fun r => r.id = id with
  | some r => if r.stage = .sent && !s.benches.any (fun x => x.awaits (.dma b c id)) then s.reqEnd b c r else s
  | none => s
def execWriteComplete (b c id : Nat) (s : State) : Host.Outcome State Fault Refusal := done s (writeCompleteEffect b c id)

/-- A write request that is issued completes although its engine is reset: what its port has still to read is read, and what it has
still to write in another bench is written (R401). -/
def State.finishWrite (s : State) (p b c : Nat) (r : Req) : State :=
  let (x, port, rack, a) := s.storeAt p b c r.srcSpace r.src
  let (bs, s) := if r.stage = .reading then s.readSpan x port rack a r.len else (r.bytes, s)
  if farSpace r.dstSpace && decide (r.dstSpace < 4) then
    if r.stage = .reading then s.writeFar p b c { r with buf := Memory.ofBytes 0 bs } else s
  else
    let (y, _, rk, o) := s.storeAt p b c r.dstSpace r.dst
    if r.stage != .reading && !(s.bench y).awaits (.dma b c r.id) then s
    else if rk then s.rackWrite y o bs else s.actWrite y o bs

/-- Every issued write of the partition's cores completes. -/
def State.finishWrites (s : State) (p : Nat) : State :=
  (s.arcCores p).foldl (fun s bc => (s.core bc.1 bc.2).dma.writes.foldl (fun s r => s.finishWrite p bc.1 bc.2 r) s) s

/-- Rows pushed into the feeder queue have reached their destination: requests whose last row was pushed end (R338). -/
def State.rowsFed (s : State) (b c : Nat) : State :=
  ((s.core b c).dma.reads.filter fun r => r.dstSpace = 6 && r.stage = .held).foldl (fun s r =>
    if ((s.core b c).slot r.slot).tiles.any fun t => t.num = r.tile && decide (r.off + r.len ≤ 256 * t.fed) then s.reqEnd b c r else s) s

/-- Once a run's streams have stopped for good, what they hold is discarded (R383, R397). -/
def State.dropHeld (s : State) (b c : Nat) : State :=
  match s.benchPart b with
  | none => s
  | some p => if s.dmaRuns p then s else
      ((s.core b c).dma.reads.filter fun r => r.stage = .held).foldl (fun s r => s.reqEnd b c r) s

/-! ## Gated data (R372) -/

/-- Period of the first gate at or after a cycle. -/
def State.gateFrom (s : State) (cycle : Nat) : Nat :=
  let first := ceilDiv cycle s.m
  let r := (s.beat.periods + 16 - s.beat.count.toNat % 16) % 16
  first + (r + 16 - first % 16) % 16

/-- Period of the gate that a gated tile needs: that of its HBM window, or the first at or after its due cycle (R80, R373). -/
def State.gateOf (s : State) (t : Tile) : Nat := t.gate.getD (s.gateFrom t.due)

/-- The decision cycle of a tile that is late by then (R373). -/
def State.lateAt (s : State) (t : Tile) : Nat := if t.gated then max t.due ((s.gateOf t - 2) * s.m) else t.due

/-- While the partition holds for a late tile, the due cycle of this tile is one of the events that move (R376). -/
def State.dueMoves (s : State) (p : Nat) (t : Tile) : Bool := match (s.part p).stop with
  | .late _ _ _ decision => !t.late && decide (decision ≤ t.due) && decide (decision < s.lateAt t)
  | _ => false

/-- At a gate, the held data of a tile that the gate is for, and whose capture precedes the cut, are written from cc 0 on (R76, R80,
R372). -/
def State.gateTile (s : State) (p b c i : Nat) (t : Tile) : State :=
  match t.capturedAt with
  | some at_ =>
    let due := match t.gate with
      | some g => decide (g ≤ s.beat.periods)
      | none => decide (t.due ≤ s.now)
    if t.gated && due && decide (at_ + 2 < s.beat.periods) && !s.dueMoves p t then
      let s := s.modTile b c i t.num fun u => { u with gated := false, admitted := true }
      if ((s.core b c).slot i).dstSpace = 6 then s.feedRows b c i 65536
      else
        let s := s.tileZeros p b c i t
        ((s.core b c).dma.reads.filter fun r => r.slot = i && r.tile = t.num && r.stage = .held).foldl (fun s r =>
          if s.reqHolds b c r then s else s.writeLocal p b c r) s
    else s
  | none => s

/-- At a gate, the data of a dowel read in an HBM window that the gate closes are written; data that missed that gate are late, and
are written at the first gate that they make (R80, R374; log entry 59). -/
def State.gateDowel (s : State) (p b c : Nat) (r : Req) : State :=
  match r.gate with
  | none => s
  | some g =>
    if s.beat.periods < g then s
    else
      let s := if g = s.beat.periods && !(r.stage = .held && decide (r.at_ + 2 < g)) then
          (s.deadline b c 1).mark p 4 else s
      if r.stage = .held && decide (r.at_ + 2 < s.beat.periods) then
        (s.modReq b c r.id fun y => { y with gate := none }).writeLocal p b c { r with gate := none }
      else s

/-- Every gated tile and dowel read of a partition at a gate. -/
def State.gateTiles (s : State) (p : Nat) : State :=
  (s.arcCores p).foldl (fun s bc =>
    let s := (List.range 64).foldl (fun s i =>
      ((s.core bc.1 bc.2).slot i).tiles.foldl (fun s t => s.gateTile p bc.1 bc.2 i t) s) s
    ((s.core bc.1 bc.2).dma.reads.filter fun r => r.slot = 64).foldl (fun s r => s.gateDowel p bc.1 bc.2 r) s) s

/-! ## Landing (R348, R376, R831) -/

/-- Period of the first gate after the running cycle; of the running gate itself for a tile that lands at it. -/
def State.gateAfter (s : State) : Nat := s.beat.periods + 16 - s.beat.count.toNat % 16
def State.landGate (s : State) (wasGated : Bool) : Nat :=
  if wasGated && s.beat.count.toNat % 16 = 0 then s.beat.periods else s.gateAfter

/-- Every byte of a tile is at its destination: no index word, request or zero of it is left, and every row of it is pushed. -/
def State.tileWhole (s : State) (b c slot : Nat) (x : Slot) (t : Tile) : Bool :=
  t.index.isNone && t.toIssue.isEmpty && t.out = 0 && !t.gated &&
    (if x.dstSpace = 6 then decide (x.tileBytes ≤ 256 * t.fed)
     else t.zeros.isEmpty && !(s.bench b).reqs.any fun r => r.port = c && r.who = .tile slot t.num)

/-- The next tile of a stream lands, in order, and signals LAND_TALLY in credit mode. -/
def tileLandEffect (b c slot : Nat) (s : State) : State :=
  let x := (s.core b c).slot slot
  match x.tiles, s.benchPart b with
  | t :: rest, some p =>
    if x.busy && t.num = x.landed && s.tileWhole b c slot x t then
      let s := s.modSlot b c slot fun y => { y with landed := t.num + 1, tiles := rest }
      let s := if t.late then s.modPart p fun y => { y with task := y.task.map fun u =>
          { u with lateGate := max u.lateGate (s.landGate t.admitted) } } else s
      let credit := !(s.part p).scheduledRun
      let s := if credit && x.landEn && decide (x.noLand ≤ t.num) then
          s.signal b c (64 + slot) (s.tallyOf p b (ctxOf x.starter) x.landTally) 1 (ctxOf x.starter) else s
      s.slotRest b c slot
    else s
  | _, _ => s
def execTileLand (b c slot : Nat) (s : State) : Host.Outcome State Fault Refusal := done s (tileLandEffect b c slot)

/-! ## Lateness (R373 to R377) -/

/-- The tile is late now. -/
def State.isLate (s : State) (t : Tile) : Bool :=
  decide (s.lateAt t ≤ s.now) && (if t.gated then (match t.capturedAt with
    | some at_ => decide (s.gateOf t ≤ at_ + 2)
    | none => true) else true)

/-- A scheduled tile has not landed at its decision cycle: the partition holds, after a pause or clamp that is in work (R374, R375). -/
def deadlineMissEffect (b c slot : Nat) (s : State) : State :=
  let x := (s.core b c).slot slot
  match s.benchPart b with
  | none => s
  | some p =>
    match x.tiles.find? fun t => !t.late && s.isLate t && !s.dueMoves p t with
    | none => s
    | some t =>
      if !(s.part p).scheduledRun || !s.dmaRuns p then s
      else
        let s := (s.deadline b c (if t.counted then 0 else 1)).modSlot b c slot fun y =>
          { y with tiles := y.tiles.map fun u => if u.num = t.num then { u with late := true, counted := true } else u }
        (s.mark p 4).modPart p fun y => match y.stop, y.after with
          | .none, _ => { y with stop := .late b c slot (s.lateAt t) }
          | .pause _, .none => { y with after := .late b c slot (s.lateAt t) }
          | .clamp _, .none => { y with after := .late b c slot (s.lateAt t) }
          | _, _ => y
def execDeadlineMiss (b c slot : Nat) (s : State) : Host.Outcome State Fault Refusal := done s (deadlineMissEffect b c slot)

/-- Every later event of a slot moves by d beats: starts of its later tiles, and due cycles at or after the decision (R376). -/
def Slot.shift (x : Slot) (decision d m : Nat) : Slot :=
  { x with armAt := if x.busy then x.armAt + d * m else x.armAt
           old := x.old.map fun a => (a.1, a.2.1, a.2.2.1 + d * m, a.2.2.2)
           tiles := x.tiles.map fun t =>
             if decision ≤ t.due then { t with due := t.due + d * m, gate := t.gate.map (· + d) } else t }

/-- A late tile of the partition has not landed, or a late baton not arrived. -/
def State.lateLeft (s : State) (p : Nat) : Bool :=
  (s.part p).legs.any (·.late) ||
  (s.arcCores p).any fun bc => (s.core bc.1 bc.2).dma.slots.any fun x => x.tiles.any (·.late)

/-- The late tiles have landed: the run goes on, shifted by d (R376, R465). -/
def lateTileResumeEffect (p : Nat) (s : State) : State :=
  match (s.part p).stop, (s.part p).task with
  | .late _ _ _ decision, some t =>
    if s.lateLeft p then s
    else
      let d := roundUp (t.lateGate - decision / s.m) 16
      let m := s.m
      (s.modArcCores p fun k => k.modDma fun x => { x with slots := x.slots.map fun y => y.shift decision d m }).modPart p fun x =>
        { x with stop := .none, task := some { t with shift := t.shift + d, lateGate := 0 } }
  | _, _ => s
def execLateTileResume (p : Nat) (s : State) : Host.Outcome State Fault Refusal := done s (lateTileResumeEffect p)

/-! ## Translation (R388 to R392) -/

/-- The PASID that a command names; a number above 20 bits stands for no PASID. -/
def pasidOf (n : Nat) : Option Nat := if n < 2 ^ 20 then some n else none

/-- A translation is no longer in work. -/
def Dma.endTrans (d : Dma) (t : Trans) : Dma := { d with trans := d.trans.filter (· != t) }

/-- The cache takes a translation; beyond 1,024 entries one is displaced (R388, log entry 6). -/
def Dma.fill (d : Dma) (e : AtcEnt) : Dma :=
  { d with atc := (if 1024 ≤ d.atc.length then d.atc.eraseIdx (Config.atcVictim d.nextId % 1024) else d.atc) ++ [e] }

/-- The translation that an answer names. -/
def Dma.findTrans (d : Dma) (pasid iova : Nat) (page : Bool) : Option Trans :=
  d.trans.find? fun t => t.pasid = pasidOf pasid && t.iova = iova && (decide (t.phase = 1) = page)

/-- A translation ends without an address. -/
def State.transFails (s : State) (b c : Nat) (t : Trans) : State :=
  let s := s.modCore b c fun k => k.modDma fun d => d.endTrans t
  match s.benchPart b with
  | some p => if s.dmaRuns p then s.unresolvable b c t.q t.slot t.iova t.pasid else s
  | none => s

/-- A Page Request: counted, and in a scheduled run a deadline miss, which counts once for a tile (R377, R390, R395). -/
def State.pageRequest (s : State) (p b c : Nat) (t : Trans) : State :=
  let now := s.beat.periods
  let scheduled := (s.part p).scheduledRun
  let fresh := match ((s.core b c).slot t.slot).tiles.find? fun u => !u.toIssue.isEmpty with
    | some u => t.slot != 64 && !u.counted
    | none => false
  let s := s.modCore b c fun k =>
    let k := k.modDma fun d =>
      let d := { d.endTrans t with priCount := satAdd32 d.priCount 1 }
      { d with trans := d.trans ++ [{ t with phase := 1, since := now }] }
    if scheduled then k.modSlot t.slot fun x => { x with tiles := match x.tiles.findIdx? fun u => !u.toIssue.isEmpty with
      | some i => x.tiles.modify i fun u => { u with counted := true }
      | none => x.tiles } else k
  (if scheduled then (s.deadline b c (natOfBool fresh)).mark p 4 else s).emit (.pageRequest t.pasid t.iova)

/-- ATS_TRANSLATION_COMPLETION (R388, R390 to R392). -/
def atsCompletionEffect (b c pasid iova : Nat) (r : AtsResult) (s : State) : State :=
  match (s.core b c).dma.findTrans pasid iova false, s.benchPart b with
  | some t, some p => match r with
    | .grant base len addr =>
      let fn := s.runFn p
      s.modCore b c fun k => k.modDma fun d => (d.endTrans t).fill { fn := fn, pasid := t.pasid, base := base, len := len, addr := addr }
    | .noAccess => if t.phase = 0 && s.priOn p then s.pageRequest p b c t else s.transFails b c t
    | .ur => s.transFails b c t
    | .ca => s.transFails b c t
  | _, _ => s
def execAtsTranslationCompletion (b c pasid iova : Nat) (r : AtsResult) (s : State) : Host.Outcome State Fault Refusal :=
  done s (atsCompletionEffect b c pasid iova r)

/-- PRI_RESPONSE (R391, R392). -/
def priResponseEffect (b c pasid iova : Nat) (r : PriResult) (s : State) : State :=
  match (s.core b c).dma.findTrans pasid iova true with
  | some t => match r with
    | .success =>
      let now := s.beat.periods
      (s.modCore b c fun k => k.modDma fun d =>
        { d.endTrans t with trans := (d.endTrans t).trans ++ [{ t with phase := 2, since := now }] }).emit (.atsRequest t.pasid t.iova)
    | .failure => s.transFails b c t
    | .invalid => s.transFails b c t
  | none => s
def execPriResponse (b c pasid iova : Nat) (r : PriResult) (s : State) : Host.Outcome State Fault Refusal :=
  done s (priResponseEffect b c pasid iova r)

/-- TRANSLATION_TIMEOUT: no answer within 2^24 beats (R392). -/
def translationTimeoutEffect (b c pasid iova : Nat) (s : State) : State :=
  match (s.core b c).dma.trans.find? fun t =>
      t.pasid = pasidOf pasid && t.iova = iova && decide (t.since + 2 ^ 24 ≤ s.beat.periods) with
  | some t => s.transFails b c t
  | none => s
def execTranslationTimeout (b c pasid iova : Nat) (s : State) : Host.Outcome State Fault Refusal :=
  done s (translationTimeoutEffect b c pasid iova)

/-! ## Invalidation (R393) -/

/-- The entry serves the function and PASID and lies, in part, in the range. -/
def AtcEnt.hit (e : AtcEnt) (fn : Nat) (pasid : Option Nat) (base len : Nat) : Bool :=
  e.fn = fn && e.pasid = pasid && decide (e.base < base + len) && decide (base < e.base + e.len)

/-- Outstanding requests of a core that were issued with an entry that the range hits. -/
def Dma.users (d : Dma) (fn : Nat) (pasid : Option Nat) (base len : Nat) : List Nat :=
  ((d.reads ++ d.writes).filter fun r => r.used.any fun e => e.hit fn pasid base len).map (·.id)

/-- Every core of the grade. -/
def State.cores (s : State) : List (Nat × Nat) := (List.range s.nSeats).flatMap fun b => [(b, 0), (b, 1)]

/-- ATS_INVALIDATE, on arrival. -/
def atsInvalidateEffect (f pasid base len : Nat) (s : State) : State :=
  let pid := pasidOf pasid
  let cores := s.cores
  let users := cores.flatMap fun bc => ((s.core bc.1 bc.2).dma.users f pid base len).map fun id => (bc.1, bc.2, id)
  let s := cores.foldl (fun s bc => s.modCore bc.1 bc.2 fun k => k.modDma fun d =>
    { d with atc := d.atc.filter fun e => !e.hit f pid base len }) s
  { s with invals := s.invals ++ [(f, users)] }
def execAtsInvalidate (f pasid base len : Nat) (s : State) : Host.Outcome State Fault Refusal :=
  done s (atsInvalidateEffect f pasid base len)

/-- A request is still outstanding. -/
def State.outstanding (s : State) (x : Nat × Nat × Nat) : Bool :=
  let d := (s.core x.1 x.2.1).dma
  (d.reads ++ d.writes).any fun r => r.id = x.2.2

/-- ATS_INVALIDATE_COMPLETE: the function's first invalidation whose requests have completed. -/
def atsInvalidateCompleteEffect (f : Nat) (s : State) : State :=
  match s.invals.findIdx? fun v => v.1 = f && !v.2.any s.outstanding with
  | some i => { s with invals := s.invals.eraseIdx i }.emit (.invalidateDone f)
  | none => s
def execAtsInvalidateComplete (f : Nat) (s : State) : Host.Outcome State Fault Refusal := done s (atsInvalidateCompleteEffect f)

end Sys2Proof.Machine
end

