-- ==== Sys2Proof/Machine/Ring.lean ====
section
/-! DEFINITION. Batons, legs and laps of the relay ring (03_ring_benches_partitions.md R105 to R132, R415, R601): BLAP, LAP_START,
BATON_ARRIVAL, LINK_RETRY; and the write-back of corrected rack words (R308). -/

namespace Sys2Proof.Machine

/-! ## BLAP (R123 to R129) -/

def Cmd.lapMode (c : Cmd) : Nat := c.a 1 0
def Cmd.batonCount (c : Cmd) : Nat := c.a 17 8
def Cmd.releaseTally (c : Cmd) : Nat := c.a 30 18
def Cmd.releaseEn (c : Cmd) : Bool := c.a 31 31 = 1
def Cmd.batonList (c : Cmd) : Nat := c.b 25 0
def Cmd.ringInCw (c : Cmd) : Nat := c.b 35 26
def Cmd.ringInCcw (c : Cmd) : Nat := c.b 45 36
def Cmd.slotUnits (c : Cmd) : Nat := c.b 54 46

/-- The batons of a list: source and size in 64 KiB units. -/
def State.batons (s : State) (b a n : Nat) : List (Nat × Nat) :=
  (List.range n).map fun i =>
    let w := leNat (s.actRead b (a + 8 * i) 8)
    (bitsOf w 9 0, bitsOf w 24 16)

/-- The first cause of a fault of a BLAP at issue (R129). A LIST that is not 8-byte aligned is a fault of cause 3, and sizes from 257 to
511 units are taken as they are (DESIGN CHOICE, log entry 60). -/
def State.blapCause (s : State) (p b c q : Nat) (cmd : Cmd) : Option Nat :=
  let ctx := ctxOf q
  let adopted := s.adoptedCtx p b ctx
  let a := s.actOff p b ctx cmd.batonList
  let half := if adopted then 512 else 0
  let fitsList := decide (a + 8 * cmd.batonCount ≤ actBytes)
  let xs := if fitsList then s.batons b a cmd.batonCount else []
  let fits (u n : Nat) : Bool := decide (half + u + n ≤ 1024)
  if cmd.lapMode = 3 || c = 1 then some 1
  else if cmd.batonCount = 0 || xs.any (fun x => x.2 = 0 || decide (cmd.slotUnits < x.2)) ||
      decide (65536 * cmd.slotUnits < Img.maxBaton (s.part p).img) ||
      (s.bench b).port.buffers.any (fun y => y.1 = adopted && y.2 != (cmd.ringInCw, cmd.ringInCcw, cmd.slotUnits)) then some 2
  else if !fitsList || a % 8 != 0 || !xs.all (fun x => fits x.1 x.2) ||
      (cmd.lapMode != 1 && !fits cmd.ringInCw (2 * cmd.slotUnits)) || (cmd.lapMode != 0 && !fits cmd.ringInCcw (2 * cmd.slotUnits))
    then some 3
  else none

/-- The ring port accepts a part of a lap; the own list stands first (R125). Where the own and the adopted list of a lap name
different modes, the later one decides (DESIGN CHOICE, log entry 60). -/
def RingPort.accept (x : RingPort) (mode : Nat) (part : LapPart) : RingPort :=
  let put (l : Lap) : Lap := { l with mode := mode, parts := if part.adopted then l.parts ++ [part] else part :: l.parts }
  match x.lap, x.next with
  | none, _ => { x with lap := some (put {}) }
  | some l, none => if l.lacks part.adopted then { x with lap := some (put l) } else { x with next := some (put {}) }
  | some l, some n => if l.lacks part.adopted then { x with lap := some (put l) } else { x with next := some (put n) }

/-- BLAP: the ring port accepts the lap. A fault has no far address or PASID: the registers take 0 (DESIGN CHOICE, log entry 60). -/
def blapEffect (b c q : Nat) (errs : List Upset) (s : State) : State :=
  let s := s.strike errs
  match s.mayIssue b c q 0xA4 with
  | none => s
  | some (p, t, cmd) => match s.blapCause p b c q cmd with
    | some k => s.dmaFault b c q k 65 0 none
    | none =>
      let ctx := ctxOf q
      let adopted := s.adoptedCtx p b ctx
      let a := s.actOff p b ctx cmd.batonList
      let half := if adopted then 512 else 0
      let xs := (s.batons b a cmd.batonCount).map fun x => (x.1 + half, x.2)
      let s := (s.issue p t b c q cmd s.now .time).ask b (MemReq.reads { due := s.now, port := c } a (8 * cmd.batonCount))
      s.modBench b fun x => { x with port :=
        let n := if adopted then (x.port.accepted.1, x.port.accepted.2 + 1) else (x.port.accepted.1 + 1, x.port.accepted.2)
        let y := x.port.accept cmd.lapMode
          { no := if adopted then n.2 else n.1, adopted := adopted, batons := xs, releaseTally := cmd.releaseTally
            releaseEn := cmd.releaseEn, ctx := ctx }
        { y with accepted := n
                 buffers := if y.buffers.any (fun z => z.1 = adopted) then y.buffers
            else y.buffers ++ [(adopted, cmd.ringInCw, cmd.ringInCcw, cmd.slotUnits)] } }
def execBlap (b c q : Nat) (errs : List Upset) (s : State) : Host.Outcome State Fault Refusal := done s (blapEffect b c q errs)

/-! ## The circle of a run -/

/-- Place and bench of the circle. -/
def Part.placeOf (x : Part) (b : Nat) : Nat := x.circle.idxOf b
def Part.benchAt (x : Part) (place : Nat) : Nat := x.circle.getD place 0xF

/-- The place next to one. -/
def nextPlace (ccw : Bool) (n i : Nat) : Nat := if ccw then (i + n - 1) % n else (i + 1) % n

/-- Benches strictly between two of a list, clockwise and around its end. -/
def between (bs : List Nat) (from_ to_ : Nat) : List Nat :=
  let n := bs.length
  let i := bs.idxOf from_
  let d := (bs.idxOf to_ + n - i) % n
  (List.range ((if d = 0 then n else d) - 1)).map fun k => bs.getD ((i + 1 + k) % n) 0xF

/-- Bypassed seats that the lane from a bench to the next one crosses (R157). -/
def State.crossed (s : State) (p from_ to_ : Nat) (ccw : Bool) : Nat :=
  let (a, z) := if ccw then (to_, from_) else (from_, to_)
  ((between (s.arcBenches p) a z).filter fun b => (s.bench b).state = .bypassed).length

/-- Cycles from a flit's leaving to the cycle in which it is in the receiver's rack (R108, R157). The last leg of a lap brings the
lap's whole 40 + 4 b of R117, and in scheduled mode a leg of fewer than that many flits is no longer than its flits take, so that a
lap takes exactly t_lap (R118; DESIGN CHOICE, log entry 46). -/
def State.hop (s : State) (p : Nat) (l : Leg) : Nat :=
  let x := s.part p
  let h := 40 + 4 * s.crossed p (x.benchAt l.place) (x.benchAt l.dest) l.ccw
  if l.leg = l.legs then 40 + 4 * s.bypassedCount p else if x.scheduledRun then min h (max 1 l.step) else h

/-- Flits of a baton (R107), and those of a leg that are in the receiver's rack. -/
def Leg.flits (l : Leg) : Nat := l.bytes / 2048
def Leg.arrived (l : Leg) : Nat := match l.slots with
  | some ps => l.got / max 1 ps.length
  | none => 0

/-- Every flit of the leg has arrived. -/
def Leg.whole (l : Leg) : Bool := l.slots.isSome && decide (l.flits ≤ l.arrived)

/-- A leg of a partition changes. -/
def State.modLeg (s : State) (p id : Nat) (f : Leg → Leg) : State :=
  s.modPart p fun x => { x with legs := x.legs.map fun l => if l.id = id then f l else l }

/-- Legs as they stand, in order. -/
def State.eachLeg (s : State) (p : Nat) (f : State → Leg → State) : State :=
  ((s.part p).legs.map (·.id)).foldl (fun s id => match (s.part p).legs.find? fun l => l.id = id with
    | some l => f s l
    | none => s) s

/-- The arriving copy is neither written nor signalled: retired at home, or the second copy of a bidirectional lap (R114 to
R116). -/
def Leg.discarded (l : Leg) (n : Nat) : Bool :=
  l.leg = l.legs && (if l.bidir then decide (n % 2 = 1) || l.ccw else true)

/-! ## Laps -/

/-- Legs of a partition may begin: no splice window or stop for one, and no pause, clamp copy, load or end of the run (R151, R152,
R557). -/
def State.ringBegins (s : State) (p : Nat) : Bool :=
  (s.part p).hasTask && !(s.part p).ringStop && match (s.part p).stop with
  | .none => true
  | .late _ _ _ _ => true
  | .rerun _ => true
  | .clamp 0 => true
  | .takeover _ => !(s.part p).scheduledRun
  | _ => false

/-- A pending splice change affects the partition (R151). -/
def State.spliceHolds (s : State) (p : Nat) : Bool := s.ring.waiting.any fun r => r.part = p

/-- A place still has to send or forward a leg's baton. -/
def Leg.owes (l : Leg) (n place : Nat) : Bool :=
  (l.place = place && decide (l.sent < l.flits)) ||
  (!l.forwarded && (List.range (l.legs - l.leg)).any fun i =>
    place = (if l.ccw then (l.dest + n * l.legs - i) % n else (l.dest + i) % n))

/-- The port of a place has sent and forwarded every baton of its lap (R125). -/
def State.lapSent (s : State) (p place laps : Nat) : Bool :=
  let bs := (s.part p).circle
  bs.all (fun b => decide (laps ≤ (s.bench b).port.laps)) && !(s.part p).legs.any fun l => l.lap = laps && l.owes bs.length place

/-- Legs of one lap (R112, R113). -/
def lapLegs (mode n : Nat) : Nat := if mode = 2 then ceilDiv n 2 else n

/-- The first legs of a lap's batons in one direction, in list order, behind what the lanes carry (R110, R125). -/
def State.homeLegs (s : State) (p place lapNo mode step : Nat) (ccw : Bool) (xs : List (Nat × Nat)) : List Leg :=
  let n := (s.part p).circle.length
  (xs.foldl (fun (acc : List Leg × Nat) x =>
    let t := acc.2 + 32 * x.2
    let l : Leg := { id := (s.part p).nextLeg + acc.1.length, home := place, ccw := ccw, legs := lapLegs mode n, bidir := mode = 2
                     place := place, dest := nextPlace ccw n place, lap := lapNo, src := 65536 * x.1, bytes := 65536 * x.2, step := step }
    (acc.1 ++ [{ l with due := t + s.hop p l }], t)) ([], s.now)).1

/-- Legs join those of the partition. -/
def State.addLegs (s : State) (p : Nat) (ls : List Leg) : State :=
  s.modPart p fun x => { x with legs := x.legs ++ ls, nextLeg := x.nextLeg + ls.length }

/-- The ring port starts a lap. -/
def State.startLap (s : State) (p b : Nat) (l : Lap) : State :=
  let place := (s.part p).placeOf b
  let no := (s.bench b).port.laps + 1
  let xs := l.parts.flatMap (·.batons)
  let step := (xs.map (·.2)).sum * 32
  let s := if l.mode = 1 then s else s.addLegs p (s.homeLegs p place no l.mode step false xs)
  let s := if l.mode = 0 then s else s.addLegs p (s.homeLegs p place no l.mode step true xs)
  s.modBench b fun x => { x with port := { x.port with lap := some { l with started := true }, laps := no } }

/-- An accepted lap has every list that it waits for: the own, and the adopted slot's (R125, R599). -/
def State.lapWhole (s : State) (p b : Nat) (l : Lap) : Bool :=
  l.parts.any (fun x => !x.adopted) &&
    (!((s.part p).adopted.any fun a => a.2 = s.ownSlot p b) || l.parts.any fun x => x.adopted)

/-- LAP_START: the lap in waiting starts once every baton of the lap before has been sent and forwarded (R125). -/
def lapStartEffect (b : Nat) (s : State) : State :=
  match s.benchPart b with
  | none => s
  | some p =>
    let x := (s.bench b).port
    if !s.ringBegins p || !(s.bench b).computes || (s.part p).clamping || !(s.part p).circle.contains b then s
    else match x.lap, x.next with
      | some l, n =>
        if !l.started then (if s.lapWhole p b l then s.startLap p b l else s)
        else match n with
          | some m =>
            if s.lapSent p ((s.part p).placeOf b) x.laps && s.lapWhole p b m then
              (s.modBench b fun y => { y with port := { y.port with lap := some m, next := none } }).startLap p b m
            else s
          | none => s
      | none, _ => s
def execLapStart (b : Nat) (s : State) : Host.Outcome State Fault Refusal := done s (lapStartEffect b)

/-! ## Flits on the lanes (R107 to R110, R126, R127, R130) -/

/-- Batons that a port has taken in from a direction in this run; a bench that replaces a lost one counts from 0 (R126; DESIGN CHOICE, log
entry 60). -/
def RingPort.count (x : RingPort) (ccw : Bool) : Nat := (x.arrivals.filter fun a => a.1 = ccw).length

/-- The release waits that an arrival makes: tally indices of core C0 (R127). The lists of the receiver's lap in progress rule them
(DESIGN CHOICE, log entry 60). -/
def State.releaseWaits (s : State) (p b : Nat) (l : Leg) : List Nat :=
  let x := (s.bench b).port
  if !(s.part p).scheduledRun && decide (2 ≤ x.count l.ccw) then
    match x.lap with
    | some lap => (lap.parts.filter (·.releaseEn)).map fun y => s.tallyOf p b y.ctx y.releaseTally
    | none => []
  else []

/-- An arriving baton can be taken in: its release waits hold, and the bench's ring-in buffers are known. -/
def State.canTake (s : State) (p : Nat) (l : Leg) : Bool :=
  let b := (s.part p).benchAt l.dest
  l.discarded (s.part p).circle.length || (!(s.bench b).port.buffers.isEmpty &&
    (s.releaseWaits p b l).all fun i => decide (s.slotWaits p b 0 64 i < s.tallyLeft b 0 40 i))

/-- The ring-in slots of an arriving baton: one in the buffer of each slot that the bench works for (R126; DESIGN CHOICE, log
entry 60). -/
def RingPort.slotsFor (x : RingPort) (l : Leg) : List Nat :=
  x.buffers.map fun y =>
    65536 * ((if y.1 then 512 else 0) + (if l.ccw then y.2.2.1 else y.2.1) + x.count l.ccw % 2 * y.2.2.2)

/-- An arriving baton takes its ring-in slots, and the release tallies. -/
def State.takeSlot (s : State) (p : Nat) (l : Leg) : State :=
  if l.discarded (s.part p).circle.length then s.modLeg p l.id fun x => { x with slots := some [] }
  else
    let b := (s.part p).benchAt l.dest
    let now := s.now
    let ps := (s.bench b).port.slotsFor l
    let s := (s.releaseWaits p b l).foldl (fun s i => s.modCore b 0 fun y => y.take now i 1) s
    (s.modBench b fun y => { y with port := { y.port with arrivals := y.port.arrivals ++ [(l.ccw, l.home, l.lap)] } }).modLeg p l.id
      fun x => { x with slots := some ps }

/-- Flits whose time has come are written in the ring-in slots; those of a discarded copy are dropped. -/
def State.landFlits (s : State) (p : Nat) (l : Leg) : State :=
  let now := s.now
  let come := l.air.filter fun f => decide (f.1 ≤ now)
  match l.slots with
  | none => s
  | some ps =>
    let b := (s.part p).benchAt l.dest
    let first := l.sent - l.air.length
    let rs := come.zipIdx.flatMap fun f => ps.flatMap fun a =>
      MemReq.writes { due := now, port := 6, rack := true, who := .flit p l.id } (a + 2048 * (first + f.2)) f.1.2
    (s.modLeg p l.id fun x => { x with air := x.air.filter fun f => decide (now < f.1)
                                       got := if ps = [] then x.got + come.length else x.got }).ask b rs

/-- A first flit that has come and cannot be taken in: its lane is held (R127). -/
def State.blocked (s : State) (p : Nat) (l : Leg) : Bool :=
  l.slots.isNone && l.air.any (fun f => decide (f.1 ≤ s.now)) && !s.canTake p l

/-- Arriving flits of a leg. -/
def State.legLands (s : State) (p : Nat) (l : Leg) : State :=
  if l.slots.isNone && l.air.any (fun f => decide (f.1 ≤ s.now)) && s.canTake p l then
    let s := s.takeSlot p l
    match (s.part p).legs.find? fun x => x.id = l.id with
    | some l => s.landFlits p l
    | none => s
  else s.landFlits p l

/-- Lanes that are held in this cycle, as the place they leave and their direction: those of the direction of a blocked baton, but for
the one that leaves its receiver (R127; DESIGN CHOICE, log entry 46). -/
def State.heldLanes (s : State) (p : Nat) : List (Nat × Bool) :=
  let x := s.part p
  (x.legs.filter (s.blocked p)).flatMap fun l =>
    ((List.range x.circle.length).filter fun i => i != l.dest).map fun i => (i, l.ccw)

/-- The lane is held by a retry (R130). -/
def RingPort.holdOf (x : RingPort) (ccw : Bool) : Nat := if ccw then x.holdCcw else x.holdCw

/-- The leg that a lane carries: the first one that has not left. A leg begins when legs may begin. -/
def Part.laneLeg (x : Part) (place : Nat) (ccw begins : Bool) : Option Leg :=
  match (x.legs.filter fun l => l.place = place && l.ccw = ccw && decide (l.sent < l.flits)).foldl (fun (m : Option Leg) l =>
      match m with
      | none => some l
      | some y => if l.id < y.id then some l else some y) none with
  | some l => if begins || decide (0 < l.sent) || l.asked then some l else none
  | none => none

/-- The next flit of a leg is in the rack of the bench it leaves (R109). -/
def Part.flitThere (x : Part) (l : Leg) : Bool := match l.parent with
  | none => true
  | some id => match x.legs.find? fun y => y.id = id with
    | some y => decide (l.sent < y.arrived)
    | none => true

/-- A lane reads its next flit for this cycle. -/
def State.laneSends (s : State) (p place : Nat) (ccw : Bool) : State :=
  let x := s.part p
  let b := x.benchAt place
  if decide (s.now < (s.bench b).port.holdOf ccw) || !(s.bench b).computes then s
  else match x.laneLeg place ccw (s.ringBegins p) with
    | none => s
    | some l =>
      if l.asked || !(x.flitThere l) then s
      else (s.modLeg p l.id fun y => { y with asked := true }).ask b
        (MemReq.reads { due := s.now, port := 6, rack := true, who := .flit p l.id } (l.src + 2048 * l.sent) 2048)

/-- Before the banks serve: flits land, held lanes wait, and the others read their next flits. -/
def State.ringAsk (s : State) (p : Nat) : State :=
  if (s.part p).legs.isEmpty then s
  else
    let s := s.eachLeg p fun s l => s.legLands p l
    let held := s.heldLanes p
    let wait (l : Leg) : Leg :=
      if held.contains (l.place, l.ccw) then { l with air := l.air.map fun f => (f.1 + 1, f.2) } else l
    let s := s.modPart p fun x => { x with legs := x.legs.map wait }
    (List.range (s.part p).circle.length).foldl (fun s i => [false, true].foldl (fun s d =>
      if held.contains (i, d) then s else s.laneSends p i d) s) s

/-- A flit's read is served: the flit leaves, and is in the receiver's rack after the hop. A flit's write is served. -/
def State.flitServed (s : State) (p id : Nat) (m : MemReq) (bs : List Bytes) : State :=
  match (s.part p).legs.find? fun l => l.id = id with
  | none => s
  | some l =>
    if m.write then s.modLeg p id fun x => { x with got := x.got + 1 }
    else
      let at_ := s.now + s.hop p l - 1
      s.modLeg p id fun x => { x with asked := false, sent := x.sent + 1, air := x.air ++ [(at_, bs.flatten)] }

/-- The next leg of a baton, from the ring-in slot of the bench that it has reached: cut-through, from its first flit on (R109, R112,
R113). -/
def State.forwardLeg (s : State) (p : Nat) (l : Leg) : State :=
  if l.forwarded || l.legs ≤ l.leg || l.arrived = 0 then s
  else
    let n := (s.part p).circle.length
    let next : Leg := { l with id := (s.part p).nextLeg, leg := l.leg + 1, place := l.dest, dest := nextPlace l.ccw n l.dest
                               src := (l.slots.getD []).headD 0, parent := some l.id, sent := 0, asked := false, air := [], slots := none
                               got := 0, forwarded := false, late := false }
    let due := if (s.part p).scheduledRun then l.due - s.hop p l + l.step + s.hop p next else 0
    (s.modLeg p l.id fun x => { x with forwarded := true }).addLegs p [{ next with due := due }]

/-! ## BATON_ARRIVAL (R112 to R116, R122, R415) -/

/-- RING entries of a slot's map that name a direction: core and tally (R415, R417). -/
def ringEntries (m : Bytes) (ccw : Bool) : List (Nat × Nat) :=
  (Map.ring m).filterMap fun e => if bitOf e.2.2 (natOfBool ccw) then some (e.2.1, e.1) else none

/-- The context of the BLAP whose lap a port runs, for its own or its adopted slot (R412). -/
def RingPort.ctxFor (x : RingPort) (adopted : Bool) : Nat :=
  ((x.lap.bind fun l => l.parts.find? fun y => y.adopted = adopted).map (·.ctx)).getD (if adopted then 4 else 0)

/-- The arrival of a baton is signalled in credit mode. -/
def State.signalArrival (s : State) (p b : Nat) (ccw : Bool) : State :=
  if (s.part p).scheduledRun then s
  else
    let own := s.ownSlot p b
    let img := (s.part p).img
    let port := (s.bench b).port
    let s := (ringEntries (Img.map img own) ccw).foldl (fun s e => s.signal b e.1 200 e.2 1 (port.ctxFor false)) s
    match ((s.part p).adopted.find? fun a => a.2 = own).map (·.1) with
    | some a => (ringEntries (Img.map img a) ccw).foldl (fun s e => s.signal b e.1 200 (s.tallyOf p b 4 e.2) 1 (port.ctxFor true)) s
    | none => s

/-- The last leg of a lap has completed on every bench of the arc (R122, first form). -/
def State.lapEnds (s : State) (p lap : Nat) : Bool :=
  let x := s.part p
  !x.legs.any (fun l => decide (l.lap ≤ lap)) && x.circle.all fun b => decide (lap ≤ (s.bench b).port.laps)

/-- No leg is in flight: none has begun to leave (R122, second form). -/
def Part.ringIdle (x : Part) : Bool := x.legs.all fun l => l.sent = 0 && !l.asked

/-- At a lap boundary a partition in credit mode stops its ring for a pending splice change (R151 step 2). -/
def State.boundary (s : State) (p : Nat) (ends : Bool) : State :=
  if ends && s.spliceHolds p && !(s.part p).scheduledRun then s.modPart p fun x => { x with ringStop := true } else s

/-- A whole baton at its leg's end: kept, forwarded or discarded; its leg is over. -/
def State.legEnds (s : State) (p : Nat) (l : Leg) : State :=
  let x := s.part p
  let b := x.benchAt l.dest
  let s := if l.discarded x.circle.length then s else s.signalArrival p b l.ccw
  let gate := s.landGate false
  let s := if l.late then s.modPart p fun y => { y with task := y.task.map fun u => { u with lateGate := max u.lateGate gate } } else s
  (s.modPart p fun y => { y with legs := y.legs.filter fun m => m.id != l.id }) |> fun s => s.boundary p (s.lapEnds p l.lap)

/-- After the banks have served: what has arrived is forwarded; a ring in which no leg is in flight is at a lap boundary. -/
def State.ringForward (s : State) (p : Nat) : State :=
  let s := s.eachLeg p fun s l => s.forwardLeg p l
  s.boundary p (s.part p).ringIdle

/-- A leg is over: every flit has been in the receiver's rack since an earlier cycle, and a next leg has it. -/
def Leg.over (l : Leg) : Bool := l.whole && (l.forwarded || decide (l.legs ≤ l.leg))

/-- BATON_ARRIVAL: the first leg that is over. -/
def batonArrivalEffect (p : Nat) (errs : List Upset) (s : State) : State :=
  let s := s.strike errs
  match (s.part p).legs.find? Leg.over with
  | some l => s.legEnds p l
  | none => s
def execBatonArrival (p : Nat) (errs : List Upset) (s : State) : Host.Outcome State Fault Refusal := done s (batonArrivalEffect p errs)

/-- Every arrival of a cycle. -/
def State.ringArrivals (s : State) (p : Nat) : State := s.eachLeg p fun s l => if l.over then s.legEnds p l else s

/-! ## Batons that miss their beat (R132) -/

/-- Rack ranges in which overdue batons of a scheduled run are to arrive at a bench. -/
def State.overdueAt (s : State) (p b : Nat) : List (Nat × Nat) :=
  ((s.part p).legs.filter fun l => (s.part p).benchAt l.dest = b && decide (l.due ≤ s.now) && !l.whole &&
    !l.discarded (s.part p).circle.length).flatMap fun l =>
    (l.slots.getD ((s.bench b).port.slotsFor l)).map fun a => (a, l.bytes)

/-- A baton of a scheduled run that is not whole by the end of the beat in which it is due is a late stream: DEADLINE_MISS on core C0
of its receiver, class B, and the partition holds until it has arrived (R132, R374 to R377). -/
def State.batonLate (s : State) (p : Nat) (l : Leg) : State :=
  if l.late || l.whole || s.now + 1 < (l.due / s.m + 1) * s.m then s
  else
    let b := (s.part p).benchAt l.dest
    let at_ := s.now
    let s := (s.deadline b 0 1).modLeg p l.id fun x => { x with late := true }
    (s.mark p 4).modPart p fun y => match y.stop, y.after with
      | .none, _ => { y with stop := .late b 0 65 at_ }
      | .pause _, .none => { y with after := .late b 0 65 at_ }
      | .clamp _, .none => { y with after := .late b 0 65 at_ }
      | _, _ => y

/-- Overdue and late batons of a scheduled run, as each cycle ends. -/
def State.ringDue (s : State) (p : Nat) : State :=
  if !(s.part p).scheduledRun || (s.part p).circle.isEmpty then s
  else
    let s := s.eachLeg p fun s l => s.batonLate p l
    (s.part p).circle.foldl (fun s b =>
      let xs := s.overdueAt p b
      if (s.bench b).port.overdue = xs then s else s.modBench b fun x => { x with port := { x.port with overdue := xs } }) s

/-! ## LINK_RETRY (R130, R131) -/

/-- A flit of the baton on a bench's lane is resent: that baton and every baton queued behind it there comes 8 cc later; a second
failure fences the bench. -/
def linkRetryEffect (b dir : Nat) (again : Bool) (s : State) : State :=
  match s.benchPart b with
  | none => s
  | some p =>
    let x := s.part p
    let ccw := dir = 1
    let carried (l : Leg) : Bool := l.place = x.placeOf b && l.ccw = ccw && !l.air.isEmpty
    if !(x.circle.contains b) || !(x.legs.any carried) then s
    else if again then s.fence b
    else
      let until_ := s.now + 8
      let resend (l : Leg) : Leg := if carried l then { l with air := l.air.map fun f => (f.1 + 8, f.2) } else l
      ((s.modPart p fun x => { x with legs := x.legs.map resend }).modBench b fun y =>
        { y with port := if ccw then { y.port with holdCcw := until_ } else { y.port with holdCw := until_ } }).modRing fun r =>
        { r with retryCount := satAdd32 r.retryCount 1 }
def execLinkRetry (b dir : Nat) (again : Bool) (s : State) : Host.Outcome State Fault Refusal := done s (linkRetryEffect b dir again)

/-! ## RACK_WRITEBACK (R308) -/

/-- Corrected words of a bank wait for a write slot that no request uses. -/
def State.askWriteBack (s : State) (b : Nat) (w : Nat × Nat × Nat) : State :=
  (s.modBench b fun y => { y with toWriteBack := y.toWriteBack.erase w }).ask b
    [{ due := s.now, port := 7, rack := true, row := 2048 * w.1 + w.2.1, write := true, who := .writeBack w.1 w.2.1 w.2.2 }]

/-- RACK_WRITEBACK: the first corrected word of a bank. -/
def rackWritebackEffect (b bank : Nat) (s : State) : State :=
  match (s.bench b).toWriteBack.find? fun w => w.1 = bank with
  | some w => s.askWriteBack b w
  | none => s
def execRackWriteback (b bank : Nat) (s : State) : Host.Outcome State Fault Refusal := done s (rackWritebackEffect b bank)

/-- Every corrected word of a bench. -/
def State.writeBacks (s : State) (b : Nat) : State := (s.bench b).toWriteBack.foldl (fun s w => s.askWriteBack b w) s

end Sys2Proof.Machine
end

