-- ==== Sys2Proof/Machine/Plumb.lean ====
section
/-! DEFINITION. The plumb solver engine (10_plumb_solver.md R432 to R461, R834 to R836): Q32.32 arithmetic, CG and BiCGSTAB,
descriptors and their faults, the resident structure, and the commands PSOLVE, PBATCH and PDELTA. -/

namespace Sys2Proof.Machine

/-! ## Q32.32 arithmetic (R435 to R439): every operation answers its value and its saturations -/

def sat64 (v : Int) : Int × Nat :=
  if v > 9223372036854775807 then (9223372036854775807, 1)
  else if v < -9223372036854775808 then (-9223372036854775808, 1) else (v, 0)

def narrow (acc s : Int) : Int × Nat := sat64 (roundShift acc s)

def recip (d : Int) : Int × Nat :=
  let n : Int := d.natAbs
  let q := (18446744073709551616 : Int) / n
  let r := 18446744073709551616 - q * n
  let q := if 2 * r > n || (2 * r = n && q % 2 = 1) then q + 1 else q
  let v := if q > 9223372036854775807 then ((9223372036854775807 : Int), 1) else (q, 0)
  (if d < 0 then -v.1 else v.1, v.2)

def mulq (a b : Int) : Int × Nat := narrow (a * b) 32
def wide (u : List Int) : Int := (u.map fun x => x * x).foldl (· + ·) 0
def dotq (u w : List Int) : Int × Nat := narrow ((List.zipWith (· * ·) u w).foldl (· + ·) 0) 32

/-- Saturations of a solve: by row, and of the scalars that every engine forms (DEDUCED, log entry 18). -/
structure Sat where
  rows : List Nat
  scalar : Nat
  deriving DecidableEq, Repr

def Sat.add (x : Sat) (rows : List Nat) : Sat := { x with rows := List.zipWith (· + ·) x.rows rows }
def Sat.one (x : Sat) (n : Nat) : Sat := { x with scalar := x.scalar + n }

/-- A vector operation: values and saturations by row. -/
def unzipSat (v : List (Int × Nat)) (x : Sat) : List Int × Sat := (v.map (·.1), x.add (v.map (·.2)))
def vMul (a : Int) (u : List Int) (x : Sat) : List Int × Sat := unzipSat (u.map (mulq a)) x
def vMulV (u w : List Int) (x : Sat) : List Int × Sat := unzipSat (List.zipWith mulq u w) x
def vAdd (u w : List Int) (x : Sat) : List Int × Sat := unzipSat (List.zipWith (fun a b => sat64 (a + b)) u w) x
def vSub (u w : List Int) (x : Sat) : List Int × Sat := unzipSat (List.zipWith (fun a b => sat64 (a - b)) u w) x

/-- A linear system: the rows of A as (column, mantissa), exponents, thresholds. -/
structure Lin where
  rows : List (List (Nat × Int))
  eA : Int
  tol : Int
  tiny : Int
  deriving DecidableEq, Repr

def Lin.isTiny (l : Lin) (d : Int) : Bool := decide ((d.natAbs : Int) < l.tiny)
def Lin.mv (l : Lin) (p : List Int) (x : Sat) : List Int × Sat :=
  let a := p.toArray
  unzipSat (l.rows.map fun r => narrow ((r.map fun e => e.2 * a.getD e.1 0).foldl (· + ·) 0) (-l.eA)) x
def Lin.converged (l : Lin) (bb : Int) (u : List Int) : Bool := decide (wide u * 18446744073709551616 ≤ l.tol * l.tol * bb)

/-! ## The algorithms (R442) -/

inductive Stops where | ok | breakdown | cap
  deriving DecidableEq, Repr

/-- What a solve leaves: x, the residual it stopped with, ITERATIONS, its stop, the phases of the stop iteration gone through
(R461), saturations. -/
structure Solved where
  x : List Int
  r : List Int
  k : Nat
  stop : Stops
  phases : Nat
  sat : Sat
  deriving DecidableEq, Repr

/-- CG from iteration k on, with n iterations left. Phases of an iteration count from 1 (R461). -/
def cgLoop (l : Lin) (bb : Int) (minv : List Int) : Nat → Nat → List Int → List Int → List Int → Int → Sat → Solved
  | 0, k, x, r, _, _, s => { x := x, r := r, k := k - 1, stop := .cap, phases := 0, sat := s }
  | n + 1, k, x, r, p, rz, s =>
    let (q, s) := l.mv p s
    let (den, c) := dotq p q
    let s := s.one c
    if l.isTiny den then { x := x, r := r, k := k, stop := .breakdown, phases := 2, sat := s }
    else
      let (inv, c) := recip den
      let (alpha, c') := mulq rz inv
      let s := s.one (c + c')
      let (ap, s) := vMul alpha p s
      let (x, s) := vAdd x ap s
      let (aq, s) := vMul alpha q s
      let (r, s) := vSub r aq s
      if l.converged bb r then { x := x, r := r, k := k, stop := .ok, phases := 4, sat := s }
      else
        let (z, s) := vMulV minv r s
        let (rzNew, c) := dotq r z
        let s := s.one c
        if l.isTiny rz then { x := x, r := r, k := k, stop := .breakdown, phases := 6, sat := s }
        else
          let (inv, c) := recip rz
          let (beta, c') := mulq rzNew inv
          let s := s.one (c + c')
          let (bp, s) := vMul beta p s
          let (p, s) := vAdd z bp s
          cgLoop l bb minv n (k + 1) x r p rzNew s

/-- State of BiCGSTAB between iterations. -/
structure Bi where
  x : List Int
  r : List Int
  p : List Int
  v : List Int
  rho : Int
  alpha : Int
  omega : Int
  deriving DecidableEq, Repr

/-- BiCGSTAB from iteration k on, with n iterations left. -/
def biLoop (l : Lin) (bb : Int) (minv rh : List Int) : Nat → Nat → Bi → Sat → Solved
  | 0, k, y, s => { x := y.x, r := y.r, k := k - 1, stop := .cap, phases := 0, sat := s }
  | n + 1, k, y, s =>
    let (rhoNew, c) := dotq rh y.r
    let s := s.one c
    if l.isTiny rhoNew || l.isTiny y.omega then { x := y.x, r := y.r, k := k, stop := .breakdown, phases := 1, sat := s }
    else
      let (i1, c1) := recip y.rho
      let (m1, c2) := mulq rhoNew i1
      let (i2, c3) := recip y.omega
      let (m2, c4) := mulq y.alpha i2
      let (beta, c5) := mulq m1 m2
      let s := s.one (c1 + c2 + c3 + c4 + c5)
      let (ov, s) := vMul y.omega y.v s
      let (d, s) := vSub y.p ov s
      let (bd, s) := vMul beta d s
      let (p, s) := vAdd y.r bd s
      let (ph, s) := vMulV minv p s
      let (v, s) := l.mv ph s
      let (den, c) := dotq rh v
      let s := s.one c
      if l.isTiny den then { x := y.x, r := y.r, k := k, stop := .breakdown, phases := 4, sat := s }
      else
        let (i3, c1) := recip den
        let (alpha, c2) := mulq rhoNew i3
        let s := s.one (c1 + c2)
        let (av, s) := vMul alpha v s
        let (sv, s) := vSub y.r av s
        if l.converged bb sv then
          let (aph, s) := vMul alpha ph s
          let (x, s) := vAdd y.x aph s
          { x := x, r := sv, k := k, stop := .ok, phases := 6, sat := s }
        else
          let (sh, s) := vMulV minv sv s
          let (t, s) := l.mv sh s
          let (tt, c) := dotq t t
          let s := s.one c
          if l.isTiny tt then { x := y.x, r := y.r, k := k, stop := .breakdown, phases := 9, sat := s }
          else
            let (ts, c1) := dotq t sv
            let (i4, c2) := recip tt
            let (omega, c3) := mulq ts i4
            let s := s.one (c1 + c2 + c3)
            let (aph, s) := vMul alpha ph s
            let (x, s) := vAdd y.x aph s
            let (osh, s) := vMul omega sh s
            let (x, s) := vAdd x osh s
            let (ot, s) := vMul omega t s
            let (r, s) := vSub sv ot s
            if l.converged bb r then { x := x, r := r, k := k, stop := .ok, phases := 11, sat := s }
            else biLoop l bb minv rh n (k + 1) { x := x, r := r, p := p, v := v, rho := rhoNew, alpha := alpha, omega := omega } s

/-! ## A whole solve (R442 to R446) -/

/-- The parameters of a descriptor (R448). -/
structure PDesc where
  tag : Nat
  method : Nat
  flags : Nat
  eA : Int
  eB : Int
  eX0 : Int
  eOut : Int
  cap : Nat
  n : Nat
  nnz : Nat
  tol : Int
  tiny : Int
  reg : Int
  bAddr : Nat
  x0Addr : Nat
  xAddr : Nat
  matrixAddr : Nat
  resultAddr : Nat
  workAddr : Nat
  deriving DecidableEq, Repr

def pdescOf (d : Bytes) : PDesc :=
  { tag := Bytes.nat d 0 2, method := Bytes.nat d 2 1, flags := Bytes.nat d 3 1, eA := expOf (Bytes.nat d 4 1)
    eB := expOf (Bytes.nat d 5 1), eX0 := expOf (Bytes.nat d 6 1), eOut := expOf (Bytes.nat d 7 1), cap := Bytes.nat d 8 2
    n := Bytes.nat d 10 2, nnz := Bytes.nat d 12 4, tol := signedOf (Bytes.nat d 16 8) 64, tiny := signedOf (Bytes.nat d 24 8) 64
    reg := signedOf (Bytes.nat d 32 8) 64, bAddr := Bytes.nat d 40 4, x0Addr := Bytes.nat d 44 4, xAddr := Bytes.nat d 48 4
    matrixAddr := Bytes.nat d 52 4, resultAddr := Bytes.nat d 56 4, workAddr := Bytes.nat d 60 4 }

def PDesc.jacobi (d : PDesc) : Bool := bitOf d.flags 0
def PDesc.x0Zero (d : PDesc) : Bool := bitOf d.flags 1

/-- conv of R436. -/
def convQ (e m : Int) : Int := m * (2 ^ (e + 32).toNat : Nat)

/-- The diagonal of row i (R444). -/
def diagOf (eA : Int) (i : Nat) (row : List (Nat × Int)) : Int × Nat :=
  sat64 (((row.filter fun e => e.1 = i).map fun e => convQ eA e.2).foldl (· + ·) 0)

/-- The result of a whole solve. -/
structure Outcome where
  sol : Solved
  bb : Int
  reg : List Nat      -- 1 for each row whose diagonal was regularised
  deriving DecidableEq, Repr

/-- A solve of R442: setup, then the method. -/
def solveLin (d : PDesc) (rows : List (List (Nat × Int))) (b x0 : List Int) : Outcome :=
  let l : Lin := { rows := rows, eA := d.eA, tol := d.tol, tiny := d.tiny }
  let s : Sat := { rows := rows.map fun _ => 0, scalar := 0 }
  let bq := b.map (convQ d.eB)
  let x := if d.x0Zero then rows.map fun _ => 0 else x0.map (convQ d.eX0)
  let (ax, s) := l.mv x s
  let (r, s) := vSub bq ax s
  let dg := (rows.zip (List.range rows.length)).map fun ri => diagOf d.eA ri.2 ri.1
  let reg := dg.map fun v => if d.jacobi && l.isTiny v.1 then 1 else 0
  let (minv, s) := if d.jacobi then
      let s := s.add (dg.map (·.2))
      unzipSat (dg.map fun v => recip (if l.isTiny v.1 then d.reg else v.1)) s
    else (rows.map fun _ => (4294967296 : Int), s)
  let bb := wide bq
  let sol := if l.converged bb r then { x := x, r := r, k := 0, stop := .ok, phases := 0, sat := s }
    else if d.method = 0 then
      let (z, s) := vMulV minv r s
      let (rz, c) := dotq r z
      cgLoop l bb minv d.cap 1 x r z rz (s.one c)
    else
      biLoop l bb minv r d.cap 1
        { x := x, r := r, p := rows.map fun _ => 0, v := rows.map fun _ => 0
          rho := 4294967296, alpha := 4294967296, omega := 4294967296 } s
  { sol := sol, bb := bb, reg := reg }

/-- STATUS and CAUSE from the stop and the number of regularised diagonals (R446). -/
def solveStatus (stop : Stops) (reg : Nat) : Nat × Nat :=
  if stop = .breakdown then (1, 2)
  else if stop = .cap then (2, if reg = 0 then 0 else 1)
  else if reg = 0 then (0, 0) else (1, 1)

/-! ## Timing (R459 to R461) -/

/-- Cycles of setup, of the phases of an iteration in order, and of the write. -/
structure PTime where
  setup : Nat
  iters : List Nat
  write : Nat
  deriving DecidableEq, Repr

/-- Times of a solve with h, z, v, rho of R459. -/
def solveTime (method h z v rho : Nat) : PTime :=
  { setup := h + z + 3 * v + 2 * rho, write := v + 16
    iters := if method = 0 then [h + z, rho, v, rho, v, rho, v]
      else [rho, v, h + z, rho, v, rho, v, h + z, rho, v, rho] }

/-- The phases of an iteration that form mv (R461, R834). -/
def mvPhase (method i : Nat) : Bool := if method = 0 then i = 0 else i = 2 || i = 7

/-- Phases of iterations that a solve goes through before its write (R460, R461). -/
def PTime.phases (t : PTime) (credit : Bool) (cap : Nat) (x : Solved) : Nat :=
  if !credit || (x.k != 0 && x.stop = .cap) then cap * t.iters.length
  else if x.k = 0 then 0
  else (x.k - 1) * t.iters.length + x.phases

/-! ## Resident structure (R451 to R453) -/

/-- The header of a resident structure of a core. -/
structure Resident where
  at_ : Nat
  engines : Nat
  nnzTotal : Nat
  rowFirst : Nat
  rowCount : Nat
  nzFirst : Nat
  nzCount : Nat
  haloCount : Nat
  rowPtr : Nat
  cols : Nat
  vals : Nat
  halo : Nat
  deriving DecidableEq, Repr

/-- The resident structure of a core, read from its activation store. -/
def State.residentOf (s : State) (b c : Nat) : Option Resident :=
  (s.core b c).plb.resident.map fun a =>
    let h := s.actRead b a 64
    { at_ := a, engines := Bytes.nat h 2 1, nnzTotal := Bytes.nat h 8 4, rowFirst := Bytes.nat h 12 4, rowCount := Bytes.nat h 16 4
      nzFirst := Bytes.nat h 20 4, nzCount := Bytes.nat h 24 4, haloCount := Bytes.nat h 28 4, rowPtr := Bytes.nat h 32 4
      cols := Bytes.nat h 36 4, vals := Bytes.nat h 40 4, halo := Bytes.nat h 44 4 }

/-- n bytes of the activation store, with the flips that its words hold (R311). -/
def State.actSeen (s : State) (b a n : Nat) : Bytes :=
  flipBits a (s.actRead b a n) ((s.bench b).upsets.filter fun u => wordIn u false a n)
/-- A 32-bit word of the activation store. -/
def State.actWord (s : State) (b a : Nat) : Nat := leNat (s.actSeen b a 4)
/-- n LX16 mantissas of the activation store. -/
def State.actLx (s : State) (b a n : Nat) : List Int := lx16 (s.actSeen b a (2 * n))

/-- The rows of a resident structure with global columns. -/
def State.residentRows (s : State) (b : Nat) (r : Resident) : List (List (Nat × Int)) :=
  (List.range r.rowCount).map fun i =>
    let lo := s.actWord b (r.at_ + r.rowPtr + 4 * i)
    let hi := s.actWord b (r.at_ + r.rowPtr + 4 * (i + 1))
    (List.range (hi - lo)).map fun k =>
      let col := s.actWord b (r.at_ + r.cols + 4 * (lo + k))
      let g := if col < r.rowCount then r.rowFirst + col else s.actWord b (r.at_ + r.halo + 4 * (col - r.rowCount))
      (g, signedOf (leNat (s.actSeen b (r.at_ + r.vals + 2 * (lo + k)) 2)) 16)

/-- The ranges of a resident structure. -/
def Resident.ranges (r : Resident) : List (Nat × Nat) :=
  [(r.at_, 64), (r.at_ + r.rowPtr, 4 * (r.rowCount + 1)), (r.at_ + r.cols, 4 * r.nzCount), (r.at_ + r.vals, 2 * r.nzCount),
   (r.at_ + r.halo, 4 * r.haloCount)]

/-! ## Batch problems (R449) -/

def csrSize (n nnz : Nat) : Nat := roundUp (4 * (n + 1) + 2 * nnz) 8 + 2 * nnz

/-- The row offsets of a CSR block. -/
def State.csrOffsets (s : State) (b a n : Nat) : List Nat := (List.range (n + 1)).map fun i => s.actWord b (a + 4 * i)

/-- The rows of a CSR block. -/
def State.csrRows (s : State) (b a n nnz : Nat) : List (List (Nat × Int)) :=
  let cols := a + 4 * (n + 1)
  let vals := a + roundUp (4 * (n + 1) + 2 * nnz) 8
  (List.range n).map fun i =>
    let lo := s.actWord b (a + 4 * i)
    let hi := s.actWord b (a + 4 * (i + 1))
    (List.range (hi - lo)).map fun k =>
      (leNat (s.actSeen b (cols + 2 * (lo + k)) 2), signedOf (leNat (s.actSeen b (vals + 2 * (lo + k)) 2)) 16)

/-- The contents of a CSR block are in order. -/
def State.csrOk (s : State) (b a n nnz : Nat) : Bool :=
  let os := s.csrOffsets b a n
  os.head? = some 0 && os.getLast? = some nnz && (os.zip os.tail).all (fun x => decide (x.1 ≤ x.2)) &&
    (s.csrRows b a n nnz).all fun r => r.all fun e => decide (e.1 < n)

/-! ## Faults (R458) -/

/-- A fault of a plumb command: an exponent fault, or a cause. -/
inductive PlbFault where | scale | cause (k : Nat)
  deriving DecidableEq, Repr

/-- A range of the activation store with an alignment. -/
def actFits (a n align : Nat) : Bool := a % align = 0 && decide (a + n ≤ actBytes)

/-- Values of iteration state per row in the work area (R448). -/
def PDesc.workVecs (d : PDesc) : Nat := if d.method = 0 then 6 else 10

/-- The first fault of a problem descriptor with rows and halo of this engine; batch problems test their CSR block. -/
def State.descFault (s : State) (b base : Nat) (d : PDesc) (rows halo : Nat) (batch : Bool) : Option PlbFault :=
  let e (v : Int) : Bool := decide (-32 ≤ v) && decide (v ≤ 15)
  let at_ (a n : Nat) : Bool := actFits (a + base) n 8
  if d.tag != 0x4C50 || 1 < d.method || 4 ≤ d.flags then some (.cause 1)
  else if !e d.eA || !e d.eB || !e d.eX0 || !expOk d.eOut then some .scale
  else if d.cap = 0 || d.tol < 0 || d.tiny < 1 || d.reg < d.tiny || (batch && (d.n = 0 || decide (8192 < d.n) || decide (262144 < d.nnz)))
    then some (.cause 2)
  else if !at_ d.bAddr (2 * rows) || (!d.x0Zero && !at_ d.x0Addr (2 * rows)) || !at_ d.xAddr (2 * rows) || !at_ d.resultAddr 32 ||
      !at_ d.workAddr (8 * (d.workVecs * rows + halo)) || (batch && !at_ d.matrixAddr (csrSize d.n d.nnz)) then some (.cause 3)
  else if batch && !s.csrOk b (base + d.matrixAddr) d.n d.nnz then some (.cause 2)
  else none

/-- PLUMB_FAULT with the cause, queue and opcode of the first fault. -/
def Core.latchPlumb (k : Core) (cause q op : Nat) : Core :=
  { k with plb := { k.plb with
      fault := if k.plb.fault.getLsbD 0 then k.plb.fault else BitVec.ofNat 32 (1 + 16 * cause + 256 * q + 65536 * op) } }

/-- A plumb command's fault aborts the task. -/
def State.plumbAbort (s : State) (b c q op : Nat) : PlbFault → State
  | .scale => s.arithAbort b c q 0 op
  | .cause k => ((s.modCore b c fun x => x.latchPlumb k q op).raise (benchKey b (6 + c)) 0).faultAbort b c q 0x64 k

/-! ## A problem on its engines -/

/-- An engine of a solve: bench, core, relocation of its addresses, where its descriptor and its matrix stand, descriptor, rows. -/
structure PEng where
  b : Nat
  c : Nat
  base : Nat
  desc : Nat
  matrix : List (Nat × Nat)
  d : PDesc
  rowFirst : Nat
  rowCount : Nat
  nzCount : Nat
  halo : Nat
  deriving DecidableEq, Repr

/-- b and x0 of an engine. -/
def State.engB (s : State) (e : PEng) : List Int := s.actLx e.b (e.base + e.d.bAddr) e.rowCount
def State.engX0 (s : State) (e : PEng) : List Int := s.actLx e.b (e.base + e.d.x0Addr) e.rowCount

/-- The value of one problem over its engines, in row order, with the engines' rows. -/
def State.problem (s : State) (es : List PEng) (batch : Bool) : Outcome :=
  let rows := es.flatMap fun e =>
    if batch then s.csrRows e.b (e.base + e.d.matrixAddr) e.d.n e.d.nnz
    else match s.residentOf e.b e.c with
      | some r => s.residentRows e.b r
      | none => []
  match es with
  | [] => solveLin (pdescOf []) [] [] []
  | e :: _ => solveLin e.d rows (es.flatMap s.engB) (es.flatMap s.engX0)

/-- The times of a problem (R459). -/
def problemTime (es : List PEng) (batch : Bool) : PTime :=
  let mx (f : PEng → Nat) : Nat := (es.map f).foldl max 0
  let z := ceilDiv (mx fun e => e.nzCount) 64
  let v := ceilDiv (mx fun e => e.rowCount) 32
  let h := if batch then 0 else ceilDiv (mx fun e => e.halo) 64 + 48
  solveTime (match es with
    | e :: _ => e.d.method
    | [] => 0) h z v (if batch then 8 else 64)

/-! ## Accesses of a phase (R834, R835) -/

/-- A list taken around from its n-th element on. -/
def rotated {α : Type} (xs : List α) (n : Nat) : List α := xs.drop (n % max 1 xs.length) ++ xs.take (n % max 1 xs.length)

/-- Requests of a plumb engine that fall in len cycles from start on, one a cycle while the cycles last, in an order that v
decides. -/
def spread (rs : List MemReq) (start len v : Nat) : List MemReq :=
  rs.zipIdx.map fun r => { r.1 with due := start + (r.2 + v) % max 1 len }

/-- The work area of an engine. -/
def PEng.work (e : PEng) : Nat × Nat := (e.base + e.d.workAddr, 8 * (e.d.workVecs * e.rowCount + e.halo))

/-- What an engine reads in a phase beside its work area. -/
def PEng.phaseReads (e : PEng) (phase perIter total : Nat) : List (Nat × Nat) :=
  if phase = 0 then
    [(e.desc, 64), (e.base + e.d.bAddr, 2 * e.rowCount), (e.base + e.d.x0Addr, if e.d.x0Zero then 0 else 2 * e.rowCount)] ++ e.matrix
  else if phase ≤ total && mvPhase e.d.method ((phase - 1) % max 1 perIter) then e.matrix else []

/-- The requests of an engine's phase: what it must read, and of its work area what the phase has cycles for; the order and the
cycles are free values (log entry 3). What it writes to the work area is free bytes (log entry 8); a jog iteration changes no state
(R460). -/
def State.phaseRequests (s : State) (e : PEng) (phase perIter total start len : Nat) : State :=
  let (v, s) := s.fresh
  let ctr := s.freeCtr
  let r : MemReq := { port := 4 + e.c, who := .plumb e.c }
  let w := e.work
  let jog := (s.core e.b e.c).plb.job.any fun j => decide (j.live < phase) && decide (phase ≤ total)
  let reads := (e.phaseReads phase perIter total).flatMap fun x => r.reads x.1 x.2
  let writes := r.writes w.1 ((List.range w.2).map (Config.plumbWork ctr))
  s.ask e.b (spread ((reads ++ rotated (r.reads w.1 w.2) v).take (max 1 len)) start len v ++
    if jog then [] else spread ((rotated writes v).take (max 1 len)) start len (v / 2))

/-- The running job of an engine changes. -/
def State.modPlb (s : State) (b c : Nat) (f : PlbJob → PlbJob) : State :=
  s.modCore b c fun k => { k with plb := { k.plb with job := k.plb.job.map f } }

/-- The engines of a problem start it: the phases that it goes through, and the first one's accesses. -/
def State.startProblem (s : State) (es : List PEng) (batch credit : Bool) (start : Nat) : State :=
  let t := problemTime es batch
  es.foldl (fun s e =>
    let o := s.problem es batch
    let total := t.phases credit e.d.cap o.sol
    (s.modPlb e.b e.c fun j =>
      { j with running := true, begun := start, setup := t.setup, iters := t.iters, write := t.write, phase := 0, total := total
               live := t.phases true e.d.cap o.sol, stopK := o.sol.k, endAt := start + t.setup, wait := 0 }).phaseRequests e 0 t.iters.length total (start + 1) (t.setup - 1)) s

/-- The result record (R450). -/
def resultRecord (o : Outcome) (mine : Nat) : Bytes :=
  let st := solveStatus o.sol.stop o.reg.sum
  leBytes 1 st.1 ++ leBytes 1 st.2 ++ leBytes 2 o.sol.k ++ leBytes 4 mine ++
    la64Bytes [(narrow (wide o.sol.r) 32).1, (narrow o.bb 32).1] ++ List.replicate 8 0

/-- Counts of one problem on a core, of the step of its command (SOLVE, ITER, PIVOT, CAP). -/
def State.plumbCount (s : State) (b c step status iters : Nat) : State :=
  (((s.saturate b c step 4 1).saturate b c step 5 iters).saturate b c step 6 (natOfBool (status = 1))).saturate b c step 7
    (natOfBool (status = 2))

/-- An engine of a problem writes its rows, from index lo on, of the solution, and then the record, in the write phase (R443, R450,
R834); the cycles are a free value. -/
def State.writeSolution (s : State) (o : Outcome) (start len : Nat) (e : PEng) (lo : Nat) : State :=
  let n := e.rowCount
  let step := ((s.core e.b e.c).plb.job.map (·.step)).getD 0
  let v := requantAll ((o.sol.x.drop lo).take n) (e.d.eOut + 32)
  let sats := v.2 + ((o.sol.sat.rows.drop lo).take n).sum + o.sol.sat.scalar + (narrow (wide o.sol.r) 32).2 + (narrow o.bb 32).2
  let r : MemReq := { port := 4 + e.c, who := .plumb e.c }
  let (f, s) := s.fresh
  let last := start + (len - 2)
  let rs := spread (r.writes (e.base + e.d.xAddr) (lx16Bytes v.1)) start (len - 2) f ++
    ((r.writes (e.base + e.d.resultAddr) (resultRecord o ((o.reg.drop lo).take n).sum)).zipIdx.map fun x => { x.1 with due := last + x.2 })
  ((s.ask e.b rs).saturate e.b e.c step 3 sats).plumbCount e.b e.c step (solveStatus o.sol.stop o.reg.sum).1 o.sol.k

/-- The write of a problem on all its engines, and its part in the completion's status (R447). -/
def State.writeProblem (s : State) (p : Nat) (es : List PEng) (batch : Bool) (start len : Nat) : State :=
  let o := s.problem es batch
  let s := (es.foldl (fun (sl : State × Nat) e => (sl.1.writeSolution o start len e sl.2, sl.2 + e.rowCount)) (s, 0)).1
  let st := (solveStatus o.sol.stop o.reg.sum).1
  s.modPart p fun x => { x with task := x.task.map fun t => { t with pivot := t.pivot || st = 1, cap := t.cap || st = 2 } }

/-! ## PSOLVE (R433, R441, R456) -/

/-- The engine of a waiting or running job in schedule mode. -/
def State.solveEng (s : State) (p b c : Nat) (j : PlbJob) : Option PEng :=
  (s.residentOf b c).map fun r =>
    let base := s.actOff p b (ctxOf j.q) 0
    { b := b, c := c, base := base, desc := base + j.desc, matrix := r.ranges
      d := pdescOf (s.actSeen b (base + j.desc) 64), rowFirst := r.rowFirst, rowCount := r.rowCount
      nzCount := r.nzCount, halo := r.haloCount }

/-- Insertion in row order. -/
def insertEng (e : PEng) : List PEng → List PEng
  | [] => [e]
  | y :: ys => if e.rowFirst < y.rowFirst then e :: y :: ys else y :: insertEng e ys

/-- The engines of the partition with a solve that runs, or that waits. -/
def State.solveEngs (s : State) (p : Nat) (running : Bool) : List PEng :=
  ((s.arcCores p).filterMap fun bc => match (s.core bc.1 bc.2).plb.job with
    | some j => if j.kind = .solve && j.running = running then s.solveEng p bc.1 bc.2 j else none
    | none => none).foldl (fun acc e => insertEng e acc) []

/-- The descriptor at an address may be read. -/
def State.descAt (s : State) (p b q : Nat) (a : Nat) : Option PDesc :=
  let base := s.actOff p b (ctxOf q) 0
  if actFits (a + base) 64 64 then some (pdescOf (s.actSeen b (a + base) 64)) else none

/-- The first fault of a PSOLVE at issue. -/
def State.psolveFault (s : State) (p b c q : Nat) (cmd : Cmd) : Option PlbFault :=
  let a := cmd.b 25 0
  let base := s.actOff p b (ctxOf q) 0
  match s.descAt p b q a with
  | none => some (.cause 3)
  | some d =>
    let r := s.residentOf b c
    let rows := (r.map (·.rowCount)).getD 0
    let halo := (r.map (·.haloCount)).getD 0
    match s.descFault b base d rows halo false with
    | some f => some f
    | none =>
      let same := (s.arcCores p).all fun bc => match (s.core bc.1 bc.2).plb.job with
        | some j => j.kind != .solve || j.running ||
            s.actRead bc.1 (s.actOff p bc.1 (ctxOf j.q) 0 + j.desc) 40 = s.actRead b (base + a) 40
        | none => true
      if r.isNone || !same then some (.cause 4) else none

/-- A plumb command takes its engine. -/
def State.takePlumb (s : State) (b c : Nat) (j : PlbJob) : State := s.modCore b c fun k => { k with plb := { k.plb with job := some j } }

/-- PSOLVE: the engine waits until the last engine of the solve has issued it. -/
def psolveEffect (b c q : Nat) (errs : List Upset) (s : State) : State :=
  let s := s.strike errs
  match s.mayIssue b c q 0xC0 with
  | none => s
  | some (p, t, cmd) => match s.psolveFault p b c q cmd with
    | some f => s.plumbAbort b c q 0xC0 f
    | none =>
      let step := (s.queue b c q).stepHeads.length
      let s := (s.issue p t b c q cmd 0 .solve).takePlumb b c { kind := .solve, q := q, step := step, desc := cmd.b 25 0 }
      let es := s.solveEngs p false
      let engines := ((s.residentOf b c).map (·.engines)).getD 0
      if es.length = engines then s.startProblem es false t.credit (s.now + 1) else s
def execPsolve (b c q : Nat) (errs : List Upset) (s : State) : Host.Outcome State Fault Refusal := done s (psolveEffect b c q errs)

/-! ## PBATCH -/

/-- The engine of a batch problem. -/
def batchEng (b c base a : Nat) (d : PDesc) : PEng :=
  { b := b, c := c, base := base, desc := base + a, matrix := [(base + d.matrixAddr, csrSize d.n d.nnz)], d := d, rowFirst := 0, rowCount := d.n, nzCount := d.nnz, halo := 0 }

/-- A batch problem starts, or faults. -/
def State.startBatch (s : State) (p b c q a : Nat) (credit : Bool) (start : Nat) : State :=
  let base := s.actOff p b (ctxOf q) 0
  match s.descAt p b q a with
  | none => s.plumbAbort b c q 0xC1 (.cause 3)
  | some d => match s.descFault b base d d.n 0 true with
    | some f => s.plumbAbort b c q 0xC1 f
    | none => s.startProblem [batchEng b c base a d] true credit start

/-- The first fault of a PBATCH at issue. -/
def State.pbatchFault (s : State) (p b q : Nat) (cmd : Cmd) : Option PlbFault :=
  if cmd.a 15 0 = 0 then some (.cause 2)
  else match s.descAt p b q (cmd.b 25 0) with
    | none => some (.cause 3)
    | some d => s.descFault b (s.actOff p b (ctxOf q) 0) d d.n 0 true

/-- PBATCH: its first problem starts. -/
def pbatchEffect (b c q : Nat) (errs : List Upset) (s : State) : State :=
  let s := s.strike errs
  match s.mayIssue b c q 0xC1 with
  | none => s
  | some (p, t, cmd) => match s.pbatchFault p b q cmd with
    | some f => s.plumbAbort b c q 0xC1 f
    | none =>
      let step := (s.queue b c q).stepHeads.length
      let s := (s.issue p t b c q cmd 0 .solve).takePlumb b c
        { kind := .batch, q := q, step := step, desc := cmd.b 25 0, count := cmd.a 15 0 }
      s.startBatch p b c q (cmd.b 25 0) t.credit s.now
def execPbatch (b c q : Nat) (errs : List Upset) (s : State) : Host.Outcome State Fault Refusal := done s (pbatchEffect b c q errs)

/-! ## PDELTA (R453, R454, R457) -/

/-- Entries of a delta list. -/
def State.deltas (s : State) (b a n : Nat) : List (Nat × Bytes) :=
  (List.range n).map fun i => (s.actWord b (a + 8 * i), s.actSeen b (a + 8 * i + 4) 2)

/-- The entries of this engine's own range, each index with the last value that the list gives it. -/
def Resident.own (r : Resident) (xs : List (Nat × Bytes)) : List (Nat × Bytes) :=
  let mine := xs.filter fun x => decide (r.nzFirst ≤ x.1) && decide (x.1 < r.nzFirst + r.nzCount)
  (mine.map (·.1)).eraseDups.map fun i => (i, ((mine.reverse.lookup i).getD []))

/-- Store offset of the value of a compiled index. -/
def Resident.valueAt (r : Resident) (i : Nat) : Nat := r.at_ + r.vals + 2 * (i - r.nzFirst)

/-- The write requests of values: those of one row are one access. -/
def valueWrites (r : MemReq) (xs : List (Nat × Bytes)) : List MemReq :=
  let parts := xs.flatMap fun x => r.writes x.1 x.2
  (parts.map (·.row)).eraseDups.map fun row =>
    { r with row := row, write := true, data := (parts.filter fun y => y.row = row).flatMap (·.data) }

/-- PDELTA: its list is read and its values are written in its one phase, in cycles that are a free value (R457, R834), those of the
entries before one that is out of range by the cycle that comes to it (R458). -/
def pdeltaEffect (b c q : Nat) (errs : List Upset) (s : State) : State :=
  let s := s.strike errs
  match s.mayIssue b c q 0xC2 with
  | none => s
  | some (p, t, cmd) =>
    let n := cmd.a 23 0
    let a := s.actOff p b (ctxOf q) (cmd.b 25 0)
    if !actFits a (8 * n) 8 then s.plumbAbort b c q 0xC2 (.cause 3)
    else match s.residentOf b c with
      | none => s.plumbAbort b c q 0xC2 (.cause 4)
      | some r =>
        let xs := s.deltas b a n
        let good := xs.takeWhile fun x => decide (x.1 < r.nnzTotal)
        let vs := (r.own good).map fun x => (r.valueAt x.1, x.2)
        let len := ceilDiv n 16 + 24
        let start := s.now
        let step := (s.queue b c q).stepHeads.length
        let s := (s.issue p t b c q cmd 0 .solve).takePlumb b c
          { kind := .delta, q := q, step := step, desc := cmd.b 25 0, count := n, begun := start, endAt := start + len
            bad := if good.length = n then none else some good.length }
        let (v, s) := s.fresh
        let k : MemReq := { port := 4 + c, who := .plumb c }
        let s := s.ask b (spread (k.reads a (8 * n)) start len v)
        s.ask b (spread (valueWrites k vs) start (if good.length = n then len else good.length / 16 + 1) (v / 2))
def execPdelta (b c q : Nat) (errs : List Upset) (s : State) : Host.Outcome State Fault Refusal := done s (pdeltaEffect b c q errs)

/-! ## SOLVE_COMPLETE (R443, R457, R460, R461) -/

/-- The engine's command is over: it completes from a cycle on. -/
def State.plumbRest (s : State) (b c at_ : Nat) : State :=
  (s.settleOn b c .solve at_).modCore b c fun k => { k with plb := { k.plb with job := none } }

/-- The engines of the problem that runs on a core. -/
def State.runningEngs (s : State) (p b c : Nat) (j : PlbJob) : List PEng :=
  if j.kind = .solve then s.solveEngs p true
  else
    let base := s.actOff p b (ctxOf j.q) 0
    let a := j.desc + 64 * j.done
    [batchEng b c base a (pdescOf (s.actSeen b (base + a) 64))]

/-- The cycle after the running phase: that of its slowest engine (R459). -/
def State.phaseEnd (s : State) (es : List PEng) (j : PlbJob) : Nat :=
  j.endAt + (es.map fun e => ((s.core e.b e.c).plb.job.map (·.wait)).getD 0).foldl max j.wait

/-- A solve's write phase ends. -/
def solveCompleteEffect (b c : Nat) (s : State) : State :=
  match (s.core b c).plb.job, s.benchPart b with
  | some j, some p =>
    let es := s.runningEngs p b c j
    if !j.running || j.kind = .delta || decide (j.phase ≤ j.total) || decide (s.now < s.phaseEnd es j) then s
    else if j.kind = .solve then es.foldl (fun s e => s.plumbRest e.b e.c s.now) s
    else
      let s := s.creditReturn b c (ctxOf j.q) 4 1
      if j.count ≤ j.done + 1 then s.plumbRest b c s.now
      else
        (s.takePlumb b c { j with done := j.done + 1, running := false }).startBatch p b c j.q (j.desc + 64 * (j.done + 1))
          (!(s.part p).scheduledRun) s.now
  | _, _ => s
def execSolveComplete (b c : Nat) (s : State) : Host.Outcome State Fault Refusal := done s (solveCompleteEffect b c)

/-! ## The plumb engines in a cycle -/

/-- A phase of a problem has ended: the next one begins in the next cycle, on every engine. -/
def State.nextPhase (s : State) (p : Nat) (es : List PEng) (j : PlbJob) : State :=
  let phase := j.phase + 1
  let start := s.now + 1
  let len := if phase ≤ j.total then j.iters.getD ((phase - 1) % max 1 j.iters.length) 0 else j.write
  let s := if j.total < phase then s.writeProblem p es (j.kind = .batch) start len else s
  es.foldl (fun s e => (s.modPlb e.b e.c fun x => { x with phase := phase, endAt := start + len, wait := 0 }).phaseRequests e phase
    j.iters.length j.total start len) s

/-- Phases that end with this cycle; a phase of no length ends at once. -/
def State.phasesEnd (p b c : Nat) : Nat → State → State
  | 0, s => s
  | n + 1, s => match (s.core b c).plb.job with
    | some j =>
      let es := s.runningEngs p b c j
      if j.running && j.kind != .delta && decide (j.phase ≤ j.total) && decide (s.phaseEnd es j ≤ s.now + 1) then
        State.phasesEnd p b c n (s.nextPhase p es j)
      else s
    | none => s

/-- Credits that a PDELTA returns in a cycle, 16 entries of it applied in each: one for 512 entries, one for the rest (R457). -/
def PlbJob.deltaCredits (j : PlbJob) (now : Nat) : Nat :=
  let n := now + 1 - j.begun
  natOfBool (decide (512 ≤ 16 * n) && n % 32 = 0 && decide (16 * n ≤ j.bad.getD j.count)) +
    natOfBool (j.bad.isNone && j.count % 512 != 0 && n = ceilDiv j.count 16)

/-- The PDELTA comes to an entry that is out of range: the entries before it are applied, and the task is aborted (R454, R458). -/
def State.deltaFault (s : State) (p b c : Nat) (j : PlbJob) (i : Nat) : State :=
  match s.residentOf b c with
  | none => s
  | some r =>
    let xs := (s.deltas b (s.actOff p b (ctxOf j.q) j.desc) j.count).take i
    let s := s.modBench b fun x => { x with reqs := x.reqs.filter fun y => y.who != .plumb c }
    let s := (r.own xs).foldl (fun s x => s.actWrite b (r.valueAt x.1) x.2) s
    (s.plumbRest b c (s.now + 1)).plumbAbort b c j.q 0xC2 (.cause 5)

/-- The end of a cycle of a plumb engine, after the banks have served. -/
def State.plumbCycle (s : State) (b c : Nat) : State :=
  match (s.core b c).plb.job, s.benchPart b with
  | some j, some p =>
    if j.kind = .delta then
      let s := s.creditReturn b c (ctxOf j.q) 4 (j.deltaCredits s.now)
      if j.bad.any fun i => decide (j.begun + i / 16 + j.wait ≤ s.now) then s.deltaFault p b c j (j.bad.getD 0)
      else if j.endAt + j.wait ≤ s.now + 1 then s.plumbRest b c (s.now + 1) else s
    else State.phasesEnd p b c 12 (solveCompleteEffect b c s)
  | _, _ => s

end Sys2Proof.Machine
end

