-- ==== Sys2Proof/Machine/Steal.lean ====
section
/-! DEFINITION. Load balancing by stealing (04 R190 to R195, 06 R289 and R290, 07 R297, 08 R336). -/

namespace Sys2Proof.Machine

/-- Benches next to each other among the ACTIVE benches of their arc. -/
def State.neighbours (s : State) (p b o : Nat) : Bool :=
  let bs := s.activeBenches p
  let n := bs.length
  let i := bs.idxOf b
  let j := bs.idxOf o
  bs.contains b && bs.contains o && b != o && ((i + 1) % n = j || (j + 1) % n = i)

/-- The thresholds of R192: the command has waited 512 cc, and the taking engine has been without work for 256 cc; it takes one
command a cycle (R171). -/
def State.stealTime (s : State) (b c e ob oc oq : Nat) : Bool :=
  let k := s.core b c
  (match (s.queue ob oc oq).since with
    | some t => decide (t + 512 ≤ s.now)
    | none => false) &&
  decide (k.idleSince.getD e 0 + 256 ≤ s.now) && decide (k.busyUntil.getD e 0 ≤ s.now) && decide (k.lastIssue.getD e 0 ≤ s.now)

/-- A command leaves the owner's queue without using the owner's engine. -/
def State.issueAway (s : State) (p ob oc oq : Nat) (cmd : Cmd) (on : Until) : State :=
  let k := s.core ob oc
  match (s.part p).task with
  | none => s
  | some t => (s.issue p t ob oc oq cmd 0 on).modCore ob oc fun x =>
      { x with lastIssue := k.lastIssue, wrr := k.wrr, idleSince := k.idleSince }

/-- One steal by engine e of core c of bench b (R171, R193). -/
def State.countSteal (s : State) (b c e ob oc : Nat) : State :=
  let now := s.now
  (s.modCore b c fun k => { k with lastIssue := k.lastIssue.set e (now + 1) }).modCore ob oc fun k =>
    { k with steals := satAdd32 k.steals 1 }

/-- A rail command is taken: its job runs on the taking engine. -/
def State.stealRail (s : State) (p : Nat) (t : Task) (b c ob oc oq : Nat) (cmd : Cmd) : State :=
  if (s.vecFault p ob oc oq cmd).isSome then s
  else
    let j := s.newJob p t ob oc oq b c .rail cmd s.now
    (((s.issueAway p ob oc oq cmd (.job j.id)).addJob ob j).busy b c 2 (s.now + (if cmd.vecSteps = 1 then 1 else 2))).countSteal b c 2 ob oc

/-- The array as the MLOAD leaves it, for the fault test of the pair. -/
def ArraySt.loaded (x : ArraySt) (q : Nat) (cmd : Cmd) : ArraySt :=
  { x with eW := cmd.eW, eB := if cmd.biasLoad then cmd.eB else x.eB, kValid := cmd.kValid, nValid := cmd.nValid
           held := some q, holdBias := cmd.biasLoad }

/-- The pair of R289: an MLOAD and the MSTREAM behind it. -/
def stealPair (l m : Cmd) : Bool :=
  l.opcode = 0x10 && m.opcode = 0x11 && l.stealOk && m.stealOk && m.accMode = 0 && m.feed = 0 && m.mask = 2 ^ l.array

/-- An MLOAD and MSTREAM are taken, where the second may issue once the first has (R289, R290). -/
def State.stealMatrix (s : State) (p : Nat) (t : Task) (b c ob oc oq : Nat) (l : Cmd) : State :=
  let x := (s.core b c).array l.array
  let from_ := s.now + wakeCycles [x]
  let j := s.newJob p t ob oc oq b c .load l from_
  let s' := s.issueAway p ob oc oq l (.job j.id)
  match s'.issuable ob oc oq with
  | none => s
  | some (_, _, m) =>
    if !stealPair l m || x.held.isSome || x.accOpen || x.bus != .free || (s.mloadFault p ob oq l).isSome ||
        (s.streamFault p ob oq m [x.loaded oq l] none).isSome then s
    else
      let s := (s'.addJob ob j).loadOn b c oq l from_
      if m.rowsM = 0 then ((s.issueAway p ob oc oq m (.job j.id)).rowsNone b c oq m).countSteal b c 0 ob oc
      else
        let k := { s.newJob p t ob oc oq b c .preskew m from_ with
          gang := [(l.array, 0, m.eX + l.eW)], behind := some j.id }
        ((s.issueAway p ob oc oq m (.job k.id)).addJob ob k).countSteal b c 0 ob oc

/-- COMMAND_STEAL: core c of bench b takes the head of a queue of an adjacent bench. -/
def commandStealEffect (b c ob oc oq : Nat) (errs : List Upset) (s : State) : State :=
  let s := s.strike errs
  match s.issuable ob oc oq with
  | none => s
  | some (p, t, cmd) =>
    let e := engineOf oq
    let may := (s.part p).balance && (s.part p).bw.getD 2 0 != 0 && cmd.stealOk && s.neighbours p b ob &&
      (s.bench b).computes && s.stealTime b c e ob oc oq
    if !may then s
    else if e = 2 && cmd.isRail then s.stealRail p t b c ob oc oq cmd
    else if e = 0 && cmd.opcode = 0x10 then s.stealMatrix p t b c ob oc oq cmd
    else s
def execCommandSteal (b c ob oc oq : Nat) (errs : List Upset) (s : State) : Host.Outcome State Fault Refusal :=
  done s (commandStealEffect b c ob oc oq errs)

end Sys2Proof.Machine
end

