-- ==== Sys2Proof/Machine/Packet.lean ====
section
/-! DEFINITION. Aivia packets (15_host_interface_and_aivia.md R659 to R668): the header, admission at a gate (02 R76 to R78, R89,
R90; 12 R493, R500; 14 R619; 17 R698, R712, R717, R736), the header's checks (R666) and refusals. -/

namespace Sys2Proof.Machine

/-! ## Header (R659) -/

/-- A field of the packet. -/
def Pkt.u (x : Pkt) (off n : Nat) : Nat := Bytes.nat x.bytes off n
def Pkt.op (x : Pkt) : Nat := x.u 0 1
def Pkt.extSet (x : Pkt) : Bool := bitOf (x.u 2 2) 0
def Pkt.paramLen (x : Pkt) : Nat := x.u 0xA 2
/-- The PASID of the packet's host accesses (R660). -/
def Pkt.pasid (x : Pkt) : Option Nat := if bitOf (x.u 0xC 4) 31 then some (x.u 0xC 4 % 2 ^ 20) else none
/-- The extended block's bytes. -/
def Pkt.block (x : Pkt) : Bytes := x.ext.getD []
/-- What a completion needs of the packet. -/
def Pkt.id (x : Pkt) (f : Nat) : PktId := { f := f, tag := BitVec.ofNat 32 (x.u 4 4), op := x.op, pasid := x.pasid }
/-- The target partition: a virtual function's own, or the one named on the physical function (R659). -/
def Pkt.part (x : Pkt) (f : Nat) : Nat := if f = 0 then x.u 8 1 else f - 1

/-! ## Opcodes (R667) -/

/-- Opcodes that the table lists. -/
def opKnown (op : Nat) : Bool :=
  [0x00, 0x01, 0x02, 0x03, 0x04, 0x05, 0x08, 0x09, 0x0A, 0x10, 0x11, 0x18, 0x19, 0x1A, 0x1B, 0x20, 0x21, 0x22, 0x28, 0x29, 0x2A,
   0x2B, 0x2C, 0x30, 0x31, 0x32, 0x33, 0x34].contains op
/-- Opcodes that a virtual function may post. -/
def opOnVf (op : Nat) : Bool := [0x00, 0x04, 0x05, 0x10, 0x11, 0x18, 0x19, 0x1A, 0x1B, 0x2C, 0x30].contains op
/-- Opcodes that act on a partition that exists (DEDUCED, log entry 19: check 0x54 on the physical function is theirs). -/
def opOnPart (op : Nat) : Bool := [0x02, 0x03, 0x04, 0x05, 0x10, 0x11, 0x18, 0x19, 0x1A, 0x1B].contains op

/-- SHAPE_MISMATCH, DEFERRED and the other refusals (R663). -/
def stSPACE : Nat := 2
def stSYNC : Nat := 3
def stSTREAMS : Nat := 4
def stPROFILE : Nat := 5
def stPAST : Nat := 6
def stSHAPE : Nat := 7
def stGLUE : Nat := 8
def stLOCKED : Nat := 9
def stDISAGREE : Nat := 0xF
def stSEALED : Nat := 0x10
def stLOST : Nat := 0x11

/-- PARAM_LEN keeps R659. -/
def Pkt.lenOk (x : Pkt) : Bool :=
  if x.extSet then x.paramLen % 8 = 0 && decide (8 ≤ x.paramLen) && decide (x.paramLen ≤ 4096) else x.paramLen = 0

/-- The partition is in force and not being destroyed. -/
def State.partExists (s : State) (p : Nat) : Bool := (s.part p).valid && (s.part p).destroying.isNone

/-- The header's first failing check, in the order of R666. -/
def State.headerDetail (s : State) (f : Nat) (x : Pkt) : Option Nat :=
  if x.u 1 1 != 1 || !opKnown x.op || !x.lenOk then some 0x50
  else if (f != 0 || opOnPart x.op) && x.op != 0x01 && !s.partExists (x.part f) then some 0x54
  else if f != 0 && !opOnVf x.op then some 0x55
  else if x.extSet && x.ext.isNone then some 0x56
  else none

/-! ## What admission waits for -/

/-- Packets are admitted at all: READY, not in P3 or on the way there or back (R698, R716, R717, R719). -/
def State.admitting (s : State) : Bool :=
  s.beat.gateOpen && s.glb.ready && !s.glb.asleep && s.glb.sleepMove.isNone && !s.glb.waking

/-- The completion of a task ended ABORTED or TORN has not been posted, or was posted after this gate began (R398). -/
def Aivia.afterAbort (a : Aivia) (now : Nat) : Bool := a.compl.any (·.ends) || decide (now < a.notBefore)

/-- The function holds a pending start-count launch, or its launch was decided at this gate (R89, R90). -/
def State.behindLaunch (s : State) (f : Nat) : Bool :=
  decide (s.beat.periods < (s.fn f).afterLaunch) || s.parts.any fun x => match x.launch with
    | some t => t.id.f = f
    | none => false

/-- Benches of the arc that a RUN waits for: those in P1 or on the way from or to it (R712). -/
def State.restingBenches (s : State) (p : Nat) : List Nat :=
  (s.arcBenches p).filter fun b => (s.bench b).power = 1 || ((s.bench b).powerMove.isSome && (s.bench b).power != 2)

/-- A calibration waits (R736). -/
def State.calWaits (s : State) : Bool := match s.glb.cal with
  | some j => j.begun.isNone
  | none => false

/-- The partition's memory is being copied, its configuration changed, or its state recovered. -/
def State.partUnsettled (s : State) (p : Nat) : Bool :=
  let x := s.part p
  x.load.isSome || x.await.isSome || (x.task.isNone && x.stop != .none) || x.state = .recovering || s.spliceHolds p ||
    s.ring.window.any fun w => w.reqs.any fun r => r.part = p

/-- A RUN waits unadmitted (R89, R493, R500, R674, R712, R736; log entry 20). -/
def State.runWaits (s : State) (p : Nat) (x : Pkt) : Bool :=
  let startValid := bitOf (x.u 0x28 1) 0
  (s.part p).hasLaunch || (!startValid && (s.part p).hasTask) || !s.stageFree || !s.ldg.mounted ||
    !(s.restingBenches p).isEmpty || s.calWaits || s.partUnsettled p

/-- A task that the function started is being aborted; its completion is still to come (R397, R398). -/
def State.aborting (s : State) (f : Nat) : Bool := s.parts.any fun x => match x.stop, x.task with
  | .abort _, some t => t.id.f = f
  | _, _ => false

/-- A packet of a function waits unadmitted. A PART_PREEMPT waits for the abort completion only (R619). -/
def State.waits (s : State) (f : Nat) (x : Pkt) : Bool :=
  (s.fn f).afterAbort s.beat.periods || s.aborting f ||
    (x.op != 0x05 && (s.behindLaunch f || (x.op = 0x11 && s.partExists (x.part f) && s.runWaits (x.part f) x)))

/-- The packet was captured before the cut of the open gate (R76). -/
def State.beforeCut (s : State) (x : Pkt) : Bool := decide (x.at_ + 2 < s.beat.periods)

/-- The packet that the open gate admits next, with its place in the gate buffer: the first one, or, where that one waits, the first
PART_PREEMPT (R76 to R78, R619). -/
def State.nextPkt (s : State) (f : Nat) : Option (Nat × Pkt) :=
  let a := s.fn f
  if !s.admitting || a.eligible = 0 then none
  else
    let xs := (a.gateBuf.zipIdx.filter fun y => s.beforeCut y.1)
    match xs with
    | [] => none
    | y :: _ =>
      if !s.waits f y.1 then some (y.2, y.1)
      else (xs.find? fun z => z.1.op = 0x05 && !s.waits f z.1).map fun z => (z.2, z.1)

/-- The packet leaves the gate buffer. -/
def State.takePkt (s : State) (f i : Nat) : State :=
  s.modFn f fun a => { a with gateBuf := a.gateBuf.eraseIdx i, eligible := a.eligible - 1, inWork := a.inWork + 1 }

/-- A refusal of the header: SHAPE_MISMATCH, no partition acted on. -/
def State.refuseHeader (s : State) (id : PktId) (detail : Nat) : State := s.finish id 0xFF stSHAPE detail

/-- The identity of a packet that is admitted now. -/
def State.pktId (s : State) (f : Nat) (x : Pkt) : PktId := { x.id f with epoch := (s.fn f).epoch }

/-- Packets with reserved opcodes at the front are refused as the gate reaches them. -/
def State.flushReserved (s : State) (f : Nat) : Nat → State
  | 0 => s
  | n + 1 => match s.nextPkt f with
    | some (i, x) => if opKnown x.op then s else ((s.takePkt f i).refuseHeader (s.pktId f x) 0x50).flushReserved f n
    | none => s

/-- The open gate admits the function's next packet, where it has this opcode: the header's checks, then the opcode's own effect. -/
def State.admitPkt (s : State) (f op : Nat) (run : PktId → Nat → Pkt → State → State) : State :=
  match s.nextPkt f with
  | none => s
  | some (i, x) =>
    if x.op != op then s
    else
      let t := s.takePkt f i
      let t := match s.headerDetail f x with
        | some d => t.refuseHeader (s.pktId f x) d
        | none => run (s.pktId f x) (x.part f) x t
      t.flushReserved f 64

/-- A refusal by an opcode's own check. -/
def State.refuse (s : State) (id : PktId) (p status detail : Nat) : State := s.finish id p status detail

/-! ## NOP -/

/-- NOP completes with its admission gate (R667). -/
def aiviaNopEffect (f : Nat) (s : State) : State := s.admitPkt f 0x00 fun id _ _ s => s.finish id 0xFF stOK 0 s.beat.count.toNat
def execAiviaNop (f : Nat) (s : State) : Host.Outcome State Fault Refusal := done s (aiviaNopEffect f)

end Sys2Proof.Machine
end

