-- ==== Sys2Proof/Machine/Run.lean ====
section
/-! DEFINITION. RUN and START_LAUNCH: the run packet (15_host_interface_and_aivia.md R671 to R677), the profile comparison
(11_determinism_and_replay.md R463, R467 to R474), the split table (R475, R476), start counts (02 R88 to R96) and what a run starts
from (04 R186; 06 R261, R283, R825; 07 R299; 09 R410, R421). -/

namespace Sys2Proof.Machine

/-! ## The split table (R475, R476) -/

structure Layer where
  layer : Nat := 0
  eOut  : Nat := 0
  layout : Nat := 0
  step  : Nat := 0
  cols  : Nat := 0
  rows  : Nat := 0
  places : List (Nat × Nat × Nat) := []    -- BASE, ROW_FIRST, ROW_COUNT, one for each core of each logical bench
  deriving DecidableEq, Repr, Inhabited

/-- SPLIT_COUNT and SPLIT_TABLE_OFF of an image. -/
def Img.splitCount (img : Bytes) : Nat := Bytes.nat (Img.profile img) 0xE 2
def Img.splitOff (img : Bytes) : Nat := Bytes.nat (Img.profile img) 0x10 8
/-- Bytes of one layer with its placements. -/
def Img.layerBytes (img : Bytes) : Nat := 16 + 32 * Img.n img

/-- Layer entry i with its placements, from the bytes of the table. -/
def layerAt (n : Nat) (t : Bytes) (o : Nat) : Layer :=
  { layer := Bytes.nat t o 2, eOut := Bytes.nat t (o + 2) 1, layout := Bytes.nat t (o + 3) 1, step := Bytes.nat t (o + 4) 4
    cols := Bytes.nat t (o + 8) 4, rows := Bytes.nat t (o + 12) 4
    places := (List.range (2 * n)).map fun i =>
      let q := o + 16 + 16 * i
      (Bytes.nat t q 4, Bytes.nat t (q + 4) 4, Bytes.nat t (q + 8) 4) }

/-- The split table of a partition's program, in its share. -/
def State.splitTable (s : State) (p : Nat) : List Layer :=
  let img := (s.part p).img
  let t := s.shareRead p (Img.splitOff img) (Img.splitCount img * Img.layerBytes img)
  (List.range (Img.splitCount img)).map fun i => layerAt (Img.n img) t (i * Img.layerBytes img)

/-- Two row ranges share no row. -/
def rowsApart (x y : Nat × Nat × Nat) : Bool := decide (x.2.1 + x.2.2 ≤ y.2.1) || decide (y.2.1 + y.2.2 ≤ x.2.1)

/-- Every pair of a list. -/
def pairwiseB {α : Type} (r : α → α → Bool) : List α → Bool
  | [] => true
  | x :: xs => xs.all (r x) && pairwiseB r xs

/-- The placements cover rows 0 to ROWS − 1 once each (R476). -/
def Layer.covers (x : Layer) : Bool :=
  let ps := x.places.filter fun y => y.2.2 != 0
  ps.all (fun y => decide (y.2.1 + y.2.2 ≤ x.rows)) && pairwiseB rowsApart ps && (ps.map (·.2.2)).sum = x.rows

/-- A layer entry keeps R475 and R476. -/
def Layer.ok (x : Layer) : Bool :=
  decide (x.layout ≤ 1) && decide (1 ≤ x.cols) && decide (x.cols ≤ 2 ^ 20) && decide (x.rows ≤ 2 ^ 24) &&
    x.places.all (fun y => y.1 % (if x.layout = 0 then 256 else 8) = 0) && x.covers

/-- Layers ascend strictly, steps do not fall. -/
def layersAscend : List Layer → Bool
  | x :: y :: xs => decide (x.layer < y.layer) && decide (x.step ≤ y.step) && layersAscend (y :: xs)
  | _ => true

/-- Check 0x42. -/
def State.splitOk (s : State) (p : Nat) : Bool :=
  let img := (s.part p).img
  let n := Img.splitCount img
  decide (n ≤ 4096) && (n = 0 || (Img.splitOff img % 16 = 0 &&
    decide (Img.splitOff img + n * Img.layerBytes img ≤ Img.hbmNeed img) &&
    (s.splitTable p).all Layer.ok && layersAscend (s.splitTable p)))

/-! ## Profile comparison (R471 to R474) -/

/-- The relaxable checks with whether each holds. -/
def State.relaxable (s : State) (p : Nat) : List (Nat × Bool) :=
  let img := (s.part p).img
  let pr := Img.profile img
  let free := Bytes.nat pr 3 1 = 0
  [(0x43, free || Img.scheduled img),
   (0x44, free || Bytes.nat pr 5 1 = 1),
   (0x45, free || Bytes.nat pr 6 1 = s.fuses.gradeCode),
   (0x46, free || [Bytes.nat pr 0xA 1, Bytes.nat pr 0xB 1, Bytes.nat pr 0xC 1] = (s.part p).bw),
   (0x47, free || (s.part p).ckp.buddyOn = (Bytes.nat pr 0x18 1 = 1))]

/-- The first check that refuses the run. -/
def State.profileRefusal (s : State) (p : Nat) (lenient : Bool) : Option Nat :=
  let pr := Img.profile (s.part p).img
  let cls := Bytes.nat pr 3 1
  let grade := Bytes.nat pr 6 1
  if Bytes.nat pr 0 2 != 0x5044 || Bytes.nat pr 2 1 != 1 || 1 < cls || 2 < grade || (grade = 0 && cls != 0) ||
      1 < Bytes.nat pr 0x18 1 then some 0x40
  else if Bytes.nat pr 4 1 != 1 then some 0x41
  else if !s.splitOk p then some 0x42
  else if lenient then none
  else ((s.relaxable p).find? fun c => !c.2).map (·.1)

/-- The comparison relaxes a field. -/
def State.relaxes (s : State) (p : Nat) : Bool := (s.relaxable p).any fun c => !c.2

/-- The effective profile (R469). -/
def effectiveProfile (pr : Bytes) (relaxed : Bool) : Bytes :=
  if relaxed then pr.modify 0xD fun b => b ||| 1#8 else pr

/-! ## Ranges (R671, R672) -/

/-- Range entry i of the extended block. -/
def Pkt.range (x : Pkt) (i : Nat) : Range :=
  let b := x.block
  { addr := Bytes.nat b (16 * i) 8, len := Bytes.nat b (16 * i + 8) 4
    space := Bytes.nat b (16 * i + 12) 1, role := Bytes.nat b (16 * i + 13) 1 }
def Pkt.ranges (x : Pkt) : List Range := (List.range (x.u 0x2A 2)).map x.range

/-- b follows a: a higher space, or beyond its end in the same space. -/
def Range.before (a b : Range) : Bool := decide (a.space < b.space) || (a.space = b.space && decide (a.addr + a.len ≤ b.addr))

/-- Ranges of a role ascend and do not overlap. -/
def rangesAscend : List Range → Bool
  | x :: y :: xs => x.before y && rangesAscend (y :: xs)
  | _ => true

/-- R671. -/
def Pkt.rangesOk (x : Pkt) : Bool :=
  let n := x.u 0x2A 2
  decide (n ≤ 256) && (if n = 0 then !x.extSet else x.extSet && x.paramLen = 16 * n) &&
    x.ranges.all (fun r => decide (1 ≤ r.len) && decide (r.space ≤ 1) && decide (r.role ≤ 1)) &&
    rangesAscend (x.ranges.filter (·.role = 0)) && rangesAscend (x.ranges.filter (·.role = 1))

/-- Bytes of the ranges of a role in list order; those in host memory come with the command. -/
def State.rangeBytes (s : State) (p role : Nat) (rs : List Range) (host : List Bytes) : Bytes :=
  ((rs.filter (·.role = role)).foldl (fun (acc : Bytes × List Bytes) r =>
    if r.space = 0 then (acc.1 ++ s.shareRead p r.addr r.len, acc.2)
    else (acc.1 ++ Bytes.sub (acc.2.headD []) 0 r.len, acc.2.drop 1)) ([], host)).1

/-! ## The task (R463, R480) -/

/-- The effective start count: S rounded up to a gate (R88). DESIGN CHOICE (log entry 65): an S above 2^64 − 16 rounds up to 2^64, which no
count reaches, so its launch stays pending. -/
def startGateOf (x : Pkt) : Nat := roundUp (x.u 0x20 8) 16

/-- The task that an accepted run packet makes. -/
def State.newTask (s : State) (id : PktId) (p : Nat) (x : Pkt) (hostIn : List Bytes) : Task :=
  let img := (s.part p).img
  let relaxed := s.relaxes p
  let credit := !Img.scheduled img
  let dig := sha256 (s.rangeBytes p 0 x.ranges hostIn)
  { id := id, hostRef := Bytes.sub x.bytes 0x40 16, ranges := x.ranges, splitSpace := x.u 0x29 1, splitAddr := x.u 0x30 8
    startGate := s.beat.count.toNat, startAt := s.beat.periods * s.m
    profile := effectiveProfile (Img.profile img) relaxed, credit := credit
    mask := natOfBool (credit || Bytes.nat (Img.profile img) 3 1 = 0) + 2 * natOfBool relaxed
    inDigest := dig, prev := BitVec.ofNat 64 (Bytes.nat dig 0 8) }

/-! ## What a run starts from -/

/-- The context of the program that a context of a bench runs: an adopted slot's contexts lie 4 higher (R599). -/
def State.progCtx (s : State) (p b ctx : Nat) : Nat := if s.adoptedCtx p b ctx then ctx - 4 else ctx

/-- Starting credits of a core: 6 × context + link. -/
def State.startCredits (s : State) (p b c : Nat) : List Nat :=
  (List.range 48).map fun i => Img.startCredit (s.part p).img (s.slotOf p b (i / 6)) c (s.progCtx p b (i / 6)) (i % 6)

/-- Token weights of a core: 5 × context + engine. -/
def State.startTokens (s : State) (p b c : Nat) : List Nat :=
  (List.range 40).map fun i => Img.token (s.part p).img (s.slotOf p b (i / 5)) c (s.progCtx p b (i / 5)) (i % 5)

/-- Initial tallies of a core: those of its own slot's map, and an adopted slot's in the upper half (R410, R599). -/
def State.startTallies (s : State) (p b c : Nat) : List (Nat × Nat) :=
  let img := (s.part p).img
  let own := s.ownSlot p b
  let put (ctx k : Nat) (m : List (Nat × Nat)) : List (Nat × Nat) :=
    (Map.init (Img.map img k)).foldl (fun m e => if e.2.1 = c then setNat (s.tallyOf p b ctx e.1) e.2.2 m else m) m
  let m := put 0 own []
  match (s.part p).adopted.find? fun a => a.2 = own with
  | some a => put 4 a.1 m
  | none => m

/-- An array at run start (R825); whether it is gated does not change. -/
def ArraySt.runStart (x : ArraySt) : ArraySt := { gated := x.gated, jogRun := x.jogRun }

/-- A queue at run start: from the first command of its list. -/
def Queue.runStart (x : Queue) : Queue :=
  { x with head := 0, ended := false, inflight := [], arrival := none, stepHeads := [], stepsDone := 0, stepAt := 0, lastDone := 0, since := none }

/-- A core at run start. -/
def Core.runStart (k : Core) (tallies : List (Nat × Nat)) (credits tokens : List Nat) : Core :=
  let k := k.quiet
  { k with
    queues := k.queues.map Queue.runStart, ctxState := List.replicate 8 0, satShadow := []
    mx := { k.mx with arrays := k.mx.arrays.map ArraySt.runStart, gens := List.replicate 4 {}, jogCmdEnd := 0 }
    tallies := tallies, taken := [], credits := credits, creditStart := credits, tokens := tokens
    wrr := List.replicate 5 (0, 0), lastIssue := List.replicate 5 0, idleSince := List.replicate 5 0 }

/-- A bench at run start. -/
def State.benchRunStart (s : State) (p b : Nat) : State :=
  [0, 1].foldl (fun s c => s.modCore b c fun k => k.runStart (s.startTallies p b c) (s.startCredits p b c) (s.startTokens p b c))
    (s.modBench b fun x => { x.quiet with spd := { x.spd with phase := 0 } })

/-- What a core holds now, as a step's start. -/
def State.snapCore (s : State) (b c : Nat) : CoreSnap :=
  let k := s.core b c
  { bench := b, core := c, heads := k.queues.map (·.head), ended := k.queues.map (·.ended), tallies := k.tallies
    credits := k.credits, slots := k.dma.slots, feeders := k.mx.arrays.map (·.feeder), accepted := (s.bench b).port.accepted }

/-- Both cores of every ACTIVE bench. -/
def State.activeCores (s : State) (p : Nat) : List (Nat × Nat) := (s.activeBenches p).flatMap fun b => [(b, 0), (b, 1)]

/-- A bench of the partition was lost without a task, and its replacement is not in force: a run that launches stops for it. -/
def State.takeoverPends (s : State) (p : Nat) : Option Bool :=
  ((s.ring.waiting ++ (match s.ring.window with
    | some w => w.reqs
    | none => [])).filter fun r => r.part = p).findSome? fun r => match r.change with
      | .takeover _ => some true
      | .bypass _ => some false
      | _ => none

/-- What stops a run from its launch on: a buddy load in work, or a replacement that is not in force. -/
def State.launchStop (s : State) (p : Nat) : Stop := match (s.part p).stop with
  | .load e k => .load e k
  | _ => match s.takeoverPends p with
    | some fresh => .takeover fresh
    | none => .none

/-- A run launches at this gate (R94, R674): its state is the run-start state, its load-balancing switch the image's flag (R190), and
class B marks of the gate are set (R63). A run that launches at the gate of an epoch beat begins after the load of that beat, and carries
no mark of it (DESIGN CHOICE, log entry 61). -/
def State.launchRun (s : State) (p : Nat) (t : Task) : State :=
  let t := { t with startGate := s.beat.count.toNat, startAt := s.beat.periods * s.m }
  let t := if s.beat.holdover then t.mark 2 else t
  let s := (s.activeBenches p).foldl (fun s b => s.benchRunStart p b) (s.resetHurdles p)
  let snaps := (s.activeCores p).map fun bc => s.snapCore bc.1 bc.2
  let s := s.modPart p fun x =>
    { x with task := some { t with snaps := snaps, hurdleSnap := x.hurdles }, launch := none, stop := s.launchStop p, state := .running
             circle := s.activeBenches p, balance := Img.balance x.img, classBT := t.classBT, mask := t.mask, shiftGates := 0 }
  s.modGpio fun g => { g with launched := g.launched ++ [p] }

/-! ## RUN -/

/-- A refused launch gives its reserved entry back; no record is written (R95). -/
def State.refuseRun (s : State) (id : PktId) (p status detail : Nat) : State := s.finish id p status detail

/-- The first refusal of a run packet beyond the header, in the order of R675: status and detail. -/
def State.runRefusal (s : State) (p : Nat) (x : Pkt) : Option (Nat × Nat) :=
  let lenient := bitOf (x.u 0x28 1) 1
  if (s.part p).prog.isNone then some (stDEFERRED, 0x53)
  else if (s.part p).audit && (!s.ldg.appends || (s.part p).stream.closed) then some (stSEALED, 0)
  else match s.profileRefusal p lenient with
    | some d => some (stPROFILE, d)
    | none =>
      if !x.rangesOk then some (stSHAPE, 0x51)
      else if 1 < x.u 0x29 1 || x.u 0x38 8 < 32 * Img.splitCount (s.part p).img then some (stSHAPE, 0x52)
      else if bitOf (x.u 0x28 1) 0 then
        if startGateOf x ≤ s.beat.count.toNat then some (stPAST, 0x01)
        else if !s.beat.aligned then some (stLOST, 0x01)
        else if s.beat.armed then some (stLOST, 0x03)
        else none
      else none

/-- An admitted RUN (R674, R675): refused, launched at this gate, or a pending start-count launch. -/
def State.runAdmitted (hostIn : List Bytes) (id : PktId) (p : Nat) (x : Pkt) (s : State) : State :=
  match s.runRefusal p x with
  | some r => s.refuseRun id p r.1 r.2
  | none =>
    let t := s.newTask id p x hostIn
    let s := s.modLdg fun l => { l with reserved := l.reserved + 1 }
    if bitOf (x.u 0x28 1) 0 then s.modPart p fun y => { y with launch := some { t with startGate := startGateOf x } }
    else s.launchRun p t

/-- At a gate, P0 is requested for benches in P1 that the next packet, a RUN, waits for (R712). -/
def State.wakeForRun (s : State) (f : Nat) : State :=
  match (s.fn f).gateBuf with
  | x :: _ =>
    if x.op = 0x11 && s.admitting && s.beforeCut x && s.partExists (x.part f) then
      ((s.arcBenches (x.part f)).filter fun b => (s.bench b).power = 1).foldl (fun s b =>
        s.modBench b fun y => { y with powerReq := 0 }) s
    else s
  | [] => s

/-- RUN. -/
def runEffect (f : Nat) (hostIn : List Bytes) (s : State) : State := (s.wakeForRun f).admitPkt f 0x11 (State.runAdmitted hostIn)
def execRun (f : Nat) (hostIn : List Bytes) (s : State) : Host.Outcome State Fault Refusal := done s (runEffect f hostIn)

/-! ## START_LAUNCH (R94 to R96) -/

/-- The function's next packet is admitted at the next gate at the earliest (R90). -/
def State.launchDecided (s : State) (f : Nat) : State := s.modFn f fun a => { a with afterLaunch := s.beat.periods + 1 }

/-- At gate S' the pending run launches, or is refused; a program lost since its admission is refused as at admission (log entry 29).
Where ALIGNED is clear and a run is still in progress, BEAT_LOST is answered (DESIGN CHOICE, log entry 65: R94 gives no order). -/
def startLaunchEffect (p : Nat) (s : State) : State :=
  match (s.part p).launch with
  | none => s
  | some t =>
    if !s.beat.gateOpen || t.startGate != s.beat.count.toNat then s
    else
      let s := s.launchDecided t.id.f
      if !s.beat.aligned then (s.unreserve.refuseRun t.id p stLOST 0x02).modPart p fun x => { x with launch := none }
      else if (s.part p).hasTask then (s.unreserve.refuseRun t.id p stPAST 0x02).modPart p fun x => { x with launch := none }
      else if (s.part p).prog.isNone then (s.unreserve.refuseRun t.id p stDEFERRED 0x53).modPart p fun x => { x with launch := none }
      else s.launchRun p t
def execStartLaunch (p : Nat) (s : State) : Host.Outcome State Fault Refusal := done s (startLaunchEffect p)

end Sys2Proof.Machine
end

