-- ==== Sys2Proof/Machine/Commit.lean ====
section
/-! DEFINITION. Step commit (14_errors_and_ordering.md R608 to R610; 11 R475 to R482), reruns (07 R317 to R321; 08 R383, R384, R830,
R831), buddy pauses and loads (13 R588 to R600), clamps (13 R562 to R565) and the end of an aborted task (08 R397, R403). -/

namespace Sys2Proof.Machine

/-! ## Scope pages and buddy copies (13_checkpoint_and_recovery.md R552, R553, R587) -/

/-- Store pages of a slot. -/
def slotPages : Nat := 1792

/-- A slot's place on its bench: the bench, and whether it is adopted there. -/
def State.slotHome (s : State) (p k : Nat) : Nat × Bool := (s.slotBench p k, ((s.part p).adopted.lookup k).isSome)

/-- Byte offset of a page of a slot in its store: rack pages 0 to 1,023, then activation pages. -/
def pageOffset (adopted : Bool) (i : Nat) : Nat :=
  if i < 1024 then 65536 * i + (if adopted then 33554432 else 0) else 65536 * (i - 1024) + (if adopted then 25165824 else 0)

/-- The contents of page i of slot k. -/
def State.slotPage (s : State) (p k i : Nat) : Mem :=
  let h := s.slotHome p k
  Memory.slice (if i < 1024 then (s.bench h.1).rack else (s.bench h.1).act) (pageOffset h.2 i) 65536

/-- Page i of slot k is replaced, with new check bits. Bytes beyond the store are none of it. -/
def State.setSlotPage (s : State) (p k i : Nat) (m : Mem) : State :=
  let h := s.slotHome p k
  let o := pageOffset h.2 i
  s.modBench h.1 fun x =>
    if i < 1024 then { x with rack := Memory.splice x.rack o (min 65536 (rackBytes - o)) m, upsets := x.mended true o 65536 }
    else { x with act := Memory.splice x.act o (min 65536 (actBytes - o)) m, upsets := x.mended false o 65536 }

/-- Share offset of a buddy slot of scope page g (log entry 21). -/
def Ckp.buddyAt (k : Ckp) (g slot : Nat) : Nat :=
  k.buddyBase + g / slotPages * 234881024 + (slot * slotPages + g % slotPages) * 65536

/-- Bytes of a partition's share as a store from 0. -/
def State.shareSlice (s : State) (p off n : Nat) : Mem :=
  Memory.slice s.hbm ((s.part p).hbmStart + off) (min n ((s.part p).hbmBytes - off))
/-- Bytes of a partition's share replaced by a store. -/
def State.shareSplice (s : State) (p off n : Nat) (m : Mem) : State :=
  { s with hbm := Memory.splice s.hbm ((s.part p).hbmStart + off) (min n ((s.part p).hbmBytes - off)) m }

/-- Buddy-dirty pages are copied into their non-current buddy slots, and their current-slot bits flip (R589). -/
def State.buddyCopy (s : State) (p : Nat) : State :=
  let k := (s.part p).ckp
  let s := k.buddyDirty.foldl (fun s g =>
    s.shareSplice p (k.buddyAt g (if k.buddySlot1.contains g then 0 else 1)) 65536 (s.slotPage p (g / slotPages) (g % slotPages))) s
  s.modPart p fun x => { x with ckp := { k with
    buddySlot1 := k.buddyDirty.foldl (fun xs g => if xs.contains g then xs.erase g else insertSorted g xs) k.buddySlot1
    buddyDirty := [] } }

/-- Pages of slot k are loaded from their current buddy slots (R595, R600, R702). -/
def State.buddyLoad (s : State) (p k : Nat) (pages : List Nat) : State :=
  let c := (s.part p).ckp
  pages.foldl (fun s i =>
    let g := k * slotPages + i
    s.setSlotPage p k i (s.shareSlice p (c.buddyAt g (natOfBool (c.buddySlot1.contains g))) 65536)) s

/-- Cycles of a buddy pause: 32 times the most dirty pages of any slot (R590). -/
def Ckp.pauseCycles (k : Ckp) : Nat :=
  32 * (List.range k.buddyN).foldl (fun m i => max m (k.buddyDirty.filter fun g => g / slotPages = i).length) 0

/-- Every page of every slot of the buddy area. -/
def Ckp.allBuddy (k : Ckp) : List Nat := List.range (k.buddyN * slotPages)

/-! ## The commit's condition (04 R179; 08 R365) -/

/-- The commands that a queue still holds. -/
def State.restCmds (s : State) (p b c q : Nat) : List Cmd :=
  let x := s.queue b c q
  if x.holds then (List.range x.occupancy).map fun i => s.entryAt p b c q (x.after x.head i) else []

/-- A NOP that ends no step, arrives at no hurdle and waits for no tally: it belongs to no step (DEDUCED, log entry 45). -/
def Cmd.idle (c : Cmd) : Bool := c.opcode = 0x00 && !c.stepEnd && !c.hurdleEn && !c.waitEn

/-- What the queue will still fetch, up to its END, belongs to no step. -/
def State.restTrivial (s : State) (p b c q : Nat) : Bool := ((s.restCmds p b c q).takeWhile fun x => x.opcode != 0x02).all Cmd.idle

/-- The queue has completed its STEP_END command of step k, in credit mode in an earlier cycle, so that its signal has applied (R178,
R608 item 4), or it has no command left. -/
def State.queueDone (s : State) (p k b c q : Nat) : Bool :=
  let x := s.queue b c q
  (decide (k < x.stepsDone) && ((s.part p).scheduledRun || decide (k + 1 < x.stepsDone) || decide (x.stepAt < s.now))) ||
    (decide (x.stepsDone ≤ k) && x.inflight.isEmpty && !x.holds)

/-- No queue holds a command for a later step. -/
def State.queueLast (s : State) (p k b c q : Nat) : Bool :=
  s.restTrivial p b c q && decide ((s.queue b c q).stepHeads.length ≤ k + 1)

/-- All queues of the partition. -/
def State.allQueues (s : State) (p : Nat) (f : Nat → Nat → Nat → Bool) : Bool :=
  (s.activeCores p).all fun bc => (List.range 40).all fun q => f bc.1 bc.2 q

/-- Busy persistent slots of the partition. -/
def State.persistentSlots (s : State) (p : Nat) : List (Nat × Nat × Nat) :=
  (s.activeCores p).flatMap fun bc => (List.range 64).filterMap fun i =>
    let x := (s.core bc.1 bc.2).slot i
    if x.busy && x.persistent then some (bc.1, bc.2, i) else none

/-! ## Split records (11_determinism_and_replay.md R477 to R482) -/

/-- Element (r, c) of a layer, as its two bytes (R477, R481). -/
def State.layerElement (s : State) (p : Nat) (x : Layer) (r c : Nat) : Bytes :=
  match x.places.zipIdx.find? fun y => decide (y.1.2.1 ≤ r) && decide (r < y.1.2.1 + y.1.2.2) with
  | none => [0, 0]
  | some (pl, i) =>
    let h := s.slotHome p (i / 2)
    let base := pl.1 + (if h.2 then 25165824 else 0)
    let j := r - pl.2.1
    let o := if x.layout = 0 then (base / 256 + c / 128 * pl.2.2 + j) * 256 + 2 * (c % 128) else base + (j * x.cols + c) * 2
    s.actRead h.1 o 2

/-- The canonical header of a layer (R478). -/
def Layer.header (x : Layer) (prev : W64) : Bytes :=
  Bytes.sub (leBytes 4 x.layer ++ leBytes 4 x.rows ++ leBytes 4 x.cols ++ leBytes 1 x.eOut ++ [0, 0, 0] ++ leBytes 8 prev.toNat) 0 32

/-- The split digest (R478). -/
def State.splitDigest (s : State) (p : Nat) (x : Layer) (prev : W64) : W64 :=
  (List.range x.rows).foldl (fun d r => (List.range x.cols).foldl (fun d c => crc64 d (s.layerElement p x r c)) d)
    (crc64 0 (x.header prev))

/-- A split record is written in the split buffer (R482), and the task goes on. -/
def State.splitRecord (s : State) (p : Nat) (x : Layer) : State :=
  match (s.part p).task with
  | none => s
  | some t =>
    let d := s.splitDigest p x t.prev
    let count := s.beat.count
    let rec_ := leBytes 4 x.layer ++ leBytes 4 (min t.shift 0xFFFFFFFF) ++ leBytes 8 d.toNat ++ leBytes 8 count.toNat ++
      leBytes 8 (count - BitVec.ofNat 64 t.startGate).toNat
    let at_ := t.splitAddr + 32 * t.splits
    let s := if t.splitSpace = 0 then s.shareWrite p at_ rec_ else s.emit (.hostWrite t.id.pasid at_ rec_)
    s.modPart p fun y => { y with task := some { t with splits := t.splits + 1, chain := d, prev := d } }

/-! ## The step-start state (R608 item 4; 09 R832) -/

/-- HEAD of a queue after its commands of steps up to k. -/
def Queue.headAfter (x : Queue) (k : Nat) : Nat :=
  if k < x.stepHeads.length then x.stepHeads.getD (x.stepHeads.length - 1 - k) x.head else x.head

/-- What a core holds at the start of step k + 1. -/
def State.snapStep (s : State) (k b c : Nat) : CoreSnap :=
  { s.snapCore b c with
    heads := (s.core b c).queues.map fun x => x.headAfter k
    ended := (s.core b c).queues.map fun x => x.ended && x.headAfter k = x.head }

/-- What the shadow counts of a core hold of a kind, for steps up to k. -/
def Core.shadowed (x : Core) (k kind : Nat) : Nat := ((x.satShadow.filter fun e => decide (e.1 ≤ k) && e.2.1 = kind).map (·.2.2)).sum

/-- The shadow counts of the steps up to k are added in cycle now (R230, R450); those of commands issued ahead of their step stay. -/
def Core.commitCounts (x : Core) (k now : Nat) : Core :=
  let added := (List.range 4).map (x.shadowed k)
  { x with sat := List.zipWith satAdd32 x.sat added, satShadow := x.satShadow.filter fun e => decide (k < e.1)
           satAdded := (now + 1, added)
           plb := { x.plb with counts := List.zipWith satAdd32 x.plb.counts ((List.range 4).map fun i => x.shadowed k (4 + i)) } }

/-- The lease phase of a step on every bench (R299). -/
def State.setPhases (s : State) (p step : Nat) : State :=
  (s.activeBenches p).foldl (fun s b => match Img.lease (s.part p).img (s.ownSlot p b) with
    | some l => s.modBench b fun x => { x with spd := { x.spd with phase := leasePhase l step } }
    | none => s) s

/-- Counts, step-start state and hurdles of the commit cycle of step k. -/
def State.recordStep (s : State) (p k : Nat) : State :=
  let now := s.now
  let s := (s.activeBenches p).foldl (fun s b => s.modBench b fun x => { x with cores := x.cores.map fun y => y.commitCounts k now }) s
  let snaps := (s.activeCores p).map fun bc => s.snapStep k bc.1 bc.2
  let s := s.modPart p fun x =>
    let hs := x.hurdles.map fun h => h.settleAcks k
    { x with hurdles := hs, task := x.task.map fun t =>
        { t with snaps := snaps, hurdleSnap := hs.map Hurdle.snapshot, step := k + 1, attempt := 1, paused := false
                 firstIssue := t.nextIssue, nextIssue := none, lastBeat := s.beat.count, flags0 := (t.pivot, t.cap) } }
  s.setPhases p (k + 1)

/-! ## The clamp (R562) -/

/-- Mover of a scope page (R556). -/
def moverOf (n g : Nat) : Nat := if g < n * slotPages then g / slotPages else (g - n * slotPages) % (max 1 n)

/-- A page of the scope, in a store or in the HBM region. -/
def State.scopeData (s : State) (p g : Nat) : Mem :=
  let n := s.nSlots p
  if g < n * slotPages then s.slotPage p (g / slotPages) (g % slotPages)
  else s.shareSlice p ((s.part p).ckp.region + 65536 * (g - n * slotPages)) 65536

/-- With every leg in flight complete, the movers copy each clamp-dirty page to its place in the clamp area, and the clamp's end is
known (R562 step 3, R563). -/
def State.startMovers (s : State) (p : Nat) : State :=
  match (s.part p).stop with
  | .clamp 0 =>
    if !(s.part p).legs.isEmpty then s
    else
      let k := (s.part p).ckp
      let n := s.nSlots p
      let len := 32 * (List.range (max 1 n)).foldl (fun m i => max m (k.dirty.filter fun g => moverOf n g = i).length) 0
      let end_ := s.now + len
      let s := k.dirty.foldl (fun s g => s.shareSplice p (k.clampBase + 65536 * g) 65536 (s.scopeData p g)) s
      s.modPart p fun x => { x with stop := .clamp (max 1 end_), ckp := { x.ckp with pending := insertAll k.dirty k.pending, dirty := [] } }
  | _ => s

/-- The clamp of step k at its commit: skipped while a drain is in progress, or the partition stops for it. -/
def State.clampStep (s : State) (p k : Nat) (t : Task) : State :=
  let c := (s.part p).ckp
  if !c.armed || (k + 1) % (max 1 c.interval) != 0 then s
  else if c.drain.isSome then
    (s.modPart p fun x => { x with ckp := { x.ckp with skips := satAdd32 x.ckp.skips 1 } }).ckpEvent p 4
  else
    let fp := match (s.part p).prog with
      | some g => g.fingerprint
      | none => []
    let d (x : Part) : Drain := { gen := x.ckp.lastGen.toNat + 1, step := k, gate := t.startGate, fingerprint := fp }
    (s.modPart p fun x => { x with stop := .clamp 0, ckp := { x.ckp with clamped := some (d x) } }).startMovers p

/-! ## STEP_COMMIT -/

/-- The task ends PREEMPTED after this commit (R620). -/
def preempted : Ending := { status := stABORTED, detail := 0x69 }

/-- What stopped behind a pause or clamp that has ended takes its place. -/
def Part.proceed (x : Part) : Part := { x with stop := x.after, after := .none }

/-- The commit cycle of step t.step (R608 items 4 to 7). -/
def State.commitNow (s : State) (p : Nat) (t : Task) (last : Bool) (hostOut : List Bytes) : State :=
  let k := t.step
  let s := s.recordStep p k
  let s := ((s.splitTable p).filter fun x => x.step = k).foldl (fun s x => s.splitRecord p x) s
  let s := s.modPart p fun x => { x with stop := .none, task := x.task.map fun u =>
    { u with outDigest := sha256 (s.rangeBytes p 1 u.ranges hostOut) } }
  if last then
    let s := s.closeTask p 0 0 0 0 true .loaded
    let s := if (s.part p).prog.isSome then s.clampStep p k t else s
    s.modPart p fun x => if x.clamping then { x with state := .running } else x
  else
    let s := s.clampStep p k t
    let s := if t.preempt then s.abort p preempted else s
    s.modPart p fun x => match x.stop with
      | .none => x.proceed
      | _ => x

/-- The step may end: nothing else stops the run, and every queue has completed its STEP_END. -/
def State.commitReady (s : State) (p : Nat) : Bool := match (s.part p).task with
  | none => false
  | some t => t.startAt ≤ s.now && t.resumeAt ≤ s.now && (match (s.part p).stop with
      | .none => true
      | .pause _ => t.paused
      | _ => false) && s.allQueues p (s.queueDone p t.step)

/-- STEP_COMMIT: once every queue has completed its STEP_END, every persistent stream of a last step is drained, and the buddy pause
has run. Where that comes about later in the cycle, hostOut is what the host's output ranges hold in it. -/
def stepCommitEffect (p : Nat) (hostOut : List Bytes) (s : State) : State :=
  match (s.part p).task with
  | none => s
  | some t =>
    if !s.commitReady p then s.modPart p fun x => { x with task := some { t with hostOut := (s.now + 1, hostOut) } }
    else
      let last := s.allQueues p (s.queueLast p t.step)
      let open_ := s.persistentSlots p
      if last && !open_.isEmpty then open_.foldl (fun s x => s.drainSlot x.1 x.2.1 x.2.2) s
      else
        let k := (s.part p).ckp
        if k.buddyOn && !t.paused && k.pauseCycles != 0 then s.modPart p fun x => { x with stop := .pause (s.now + k.pauseCycles) }
        else s.commitNow p t last hostOut
def execStepCommit (p : Nat) (hostOut : List Bytes) (s : State) : Host.Outcome State Fault Refusal := done s (stepCommitEffect p hostOut)

/-! ## CLAMP_DONE -/

/-- At the first gate at or after the movers' end, the run resumes and the drain starts (R562 step 4, R564, R817). -/
def clampDoneEffect (p : Nat) (s : State) : State :=
  match (s.part p).stop with
  | .clamp (e + 1) =>
    if !s.beat.gateOpen || s.now < e + 1 then s
    else
      let count := s.beat.count
      let s := (s.modPart p fun x =>
        { x.proceed with state := if x.task.isSome then x.state else .loaded
                         ckp := { x.ckp with clamped := none, drain := x.ckp.clamped.map fun d =>
                   { d with todo := x.ckp.pending, beat := count } } }).ckpEvent p 0
      match (s.part p).task with
      | some t => if t.preempt then s.abort p preempted else s
      | none => s
  | _ => s
def execClampDone (p : Nat) (s : State) : Host.Outcome State Fault Refusal := done s (clampDoneEffect p)

/-! ## Back to the step's start (R317 items 3 and 4, R384, R830, R831) -/

/-- Restart of a slot at a rerun, from what it held at the step's start. -/
def Slot.restart (x : Slot) : Slot :=
  if !x.busy then x.quiet
  else
    let local_ := !farSpace x.dstSpace
    let from_ := if local_ && x.ring then min (x.started - 4) x.landed else x.landed
    { x with started := from_, landed := from_, tiles := [], issued := if x.armBase < from_ then x.issued else 0
             noGate := max x.noGate x.started, noLand := max x.noLand x.landed }

/-- A queue goes back to the first command of step k. -/
def Queue.restart (x : Queue) (head k : Nat) (ended : Bool) : Queue :=
  { x with head := head, ended := ended, inflight := [], arrival := none, since := none
           stepHeads := x.stepHeads.drop (x.stepHeads.length - k), stepsDone := min x.stepsDone k }

/-- A core goes back to the start of step k. -/
def Core.restart (x : Core) (n : CoreSnap) (k : Nat) : Core :=
  { x with
    queues := (x.queues.zipIdx).map fun y => y.1.restart (n.heads.getD y.2 0) k (n.ended.getD y.2 false)
    satShadow := [], returns := [], tallies := n.tallies, credits := n.credits, signals := [], taken := []
    busyUntil := List.replicate 5 0
    dma := { x.dma with slots := n.slots.map Slot.restart, dowels := [], reads := [], writes := [], trans := [] }
    plb := { x.plb with job := none }
    mx := { x.mx with arrays := (x.mx.arrays.zipIdx).map fun y => { y.1.quiet with feeder := n.feeders.getD y.2 [] } } }

/-- A ring port without the BLAPs that it accepted in the abandoned attempt: lists that remain wait again (log entry 60). -/
def RingPort.undo (x : RingPort) (acc : Nat × Nat) : RingPort :=
  let kept (y : LapPart) : Bool := decide (y.no ≤ if y.adopted then acc.2 else acc.1)
  let undone (l : Lap) : Option Lap :=
    if l.parts.all kept then some l
    else if l.parts.any kept then some { l with parts := l.parts.filter kept, started := false } else none
  let started := decide ((x.lap.any fun l => l.started && !l.parts.all kept) = true)
  let ls := [x.lap, x.next].filterMap fun l => l.bind undone
  { x with lap := ls.head?, next := ls[1]?, accepted := acc, laps := min (if started then x.laps - 1 else x.laps) acc.1 }

/-- The ring of a partition without the laps of the abandoned attempt: their batons are dropped, and their arrivals are not
counted. -/
def State.undoLaps (s : State) (p : Nat) (snaps : List CoreSnap) : State :=
  let s := (snaps.filter fun n => n.core = 0).foldl (fun s n => s.modBench n.bench fun x => { x with port := x.port.undo n.accepted }) s
  let x := s.part p
  let stays (home lap : Nat) : Bool := decide (lap ≤ (s.bench (x.benchAt home)).port.laps)
  let s := x.circle.foldl (fun s b => s.modBench b fun y =>
    { y with port := { y.port with arrivals := y.port.arrivals.filter fun a => stays a.2.1 a.2.2 }
             reqs := y.reqs.filter fun r => match r.who with
               | .flit _ id => x.legs.any fun l => l.id = id && stays l.home l.lap
               | _ => true }) s
  s.modPart p fun y => { y with legs := y.legs.filter fun l => stays l.home l.lap }

/-- Where a lost bench is replaced, the ring of the run starts empty: batons that are left are dropped, and every lap accepted before the
step's start counts as sent (DESIGN CHOICE, log entry 60). -/
def State.emptyRing (s : State) (p : Nat) : State := match (s.part p).task with
  | none => s
  | some t =>
    let s := (t.snaps.filter fun n => n.core = 0).foldl (fun s n => s.modBench n.bench fun x =>
      { x with port := { x.port with lap := none, next := none, laps := n.accepted.1, accepted := n.accepted }
               reqs := x.reqs.filter fun r => match r.who with
                 | .flit _ _ => false
                 | _ => true }) s
    s.modPart p fun x => { x with legs := [], ringStop := false }

/-- The jobs and requests of a bench, but for batons and write-backs, are dropped. -/
def Bench.dropWork (x : Bench) : Bench := { x with jobs := [], reqs := x.reqs.filter fun r => r.who.background }

/-- The partition goes back to the start of its step. Nothing of it issues before the given cycle. -/
def State.backToStep (s : State) (p : Nat) (t : Task) (resumeAt : Nat) : State :=
  let s := t.snaps.foldl (fun s n => (s.modBench n.bench Bench.dropWork).modCore n.bench n.core fun x => x.restart n t.step) s
  (s.undoLaps p t.snaps).modPart p fun x =>
    { x with stop := .none, after := .none, hurdles := t.hurdleSnap, task := x.task.map fun u =>
        { u with pivot := u.flags0.1, cap := u.flags0.2, firstIssue := none, nextIssue := none, lateGate := 0, paused := false
                 idleAt := none, resumeAt := resumeAt } }

/-- Every later event of the run is d beats later: commands, tile starts and due cycles (R318, R464, R465). -/
def State.shiftRun (s : State) (p d : Nat) : State :=
  let m := s.m
  (s.modArcCores p fun k => k.modDma fun x => { x with slots := x.slots.map fun y => y.shift 0 d m }).modPart p fun x =>
    { x with task := x.task.map fun t => { t with shift := t.shift + d } }

/-- STEP_RERUN: every engine is idle; in scheduled mode the step runs again D beats late, in credit mode from the next cycle. -/
def stepRerunEffect (p : Nat) (s : State) : State :=
  match (s.part p).stop, (s.part p).task with
  | .rerun b, some t =>
    if !s.partIdle p then s
    else
      let idle := t.idleAt.getD s.beat.periods
      let gate := idle + 16 - (s.beat.count.toNat + 16 * s.beat.periods - (s.beat.periods - idle)) % 16
      let d := roundUp (gate - t.firstIssue.getD idle) 16
      let s := s.backToStep p t (s.now + 1)
      let s := if t.credit then s else (s.shiftRun p d)
      let s := (if t.credit then s else s.mark p 5).modPart p fun x => { x with task := x.task.map fun u =>
        { u with attempt := u.attempt + 1, reruns := u.reruns + 1 } }
      s.modBench b fun x => { x with spd := { x.spd with reruns := satAdd32 x.spd.reruns 1 } }
  | _, _ => s
def execStepRerun (p : Nat) (s : State) : Host.Outcome State Fault Refusal := done s (stepRerunEffect p)

/-! ## TASK_ABORT_COMPLETE (R397, R403) -/

/-- The engines are idle: the entry is staged, the completion joins, and the partition is LOADED. -/
def taskAbortCompleteEffect (p : Nat) (s : State) : State :=
  match (s.part p).stop with
  | .abort e => if s.partIdle p then s.closeTask p (if e.torn then 2 else 1) e.status e.detail e.r1.toNat true .loaded else s
  | _ => s
def execTaskAbortComplete (p : Nat) (s : State) : Host.Outcome State Fault Refusal := done s (taskAbortCompleteEffect p)

end Sys2Proof.Machine
end

