-- ==== Sys2Proof/Machine/Load.lean ====
section
/-! DEFINITION. PROGRAM_LOAD's admission checks (04_engines_queues_programs.md R205 to R211; 10 R836; 07 R298, R300; 09 R417, R418; 03
R105, R120), each as a Bool over the image, and the first that fails. What an image field must hold is log entry 22. -/

namespace Sys2Proof.Machine

/-! ## Lists (R174, R196) -/

/-- The command list of a queue of a core of a slot: the last type-1 segment that names it. -/
def Img.list (img : Bytes) (k c q : Nat) : Option Seg :=
  ((Img.segs img).filter fun g => g.ty = 1 && g.onCore k c && g.queue = q).getLast?

/-- Entries of a list. -/
def Seg.count (g : Seg) : Nat := g.len / 32

/-- The commands of a list. -/
def Seg.cmds (g : Seg) (img : Bytes) : List Cmd := (List.range g.count).map fun i => Cmd.ofBytes (Bytes.sub img (g.src + 32 * i) 32)

/-- The commands of queue q of core c of slot k. -/
def Img.cmds (img : Bytes) (k c q : Nat) : List Cmd := match Img.list img k c q with
  | some g => g.cmds img
  | none => []

/-- Slots, cores and queues of the program. -/
def Img.places (img : Bytes) : List (Nat × Nat × Nat) :=
  (List.range (Img.n img)).flatMap fun k => [0, 1].flatMap fun c => (List.range 40).map fun q => (k, c, q)

/-- Every command of the program satisfies a test of its slot, core and queue. -/
def Img.allCmds (img : Bytes) (f : Nat → Nat → Nat → Cmd → Bool) : Bool :=
  (Img.places img).all fun x => (Img.cmds img x.1 x.2.1 x.2.2).all (f x.1 x.2.1 x.2.2)

/-- Log2 of the queue SIZE that holds a number of entries, 4 to 16. -/
def sizeLog2 (n : Nat) : Nat := ((List.range 17).find? fun i => decide (4 ≤ i) && decide (n ≤ 2 ^ i)).getD 16

/-! ## The checks of R211 -/

/-- 0x01: CRC-32C of the whole image, with the field as zero. -/
def Img.crcOk (img : Bytes) : Bool :=
  (crc32c (img.take 0xFC ++ [0, 0, 0, 0] ++ img.drop 0x100)).toNat = Img.u img 0xFC 4

/-- A segment's type and places are valid, and it lies in the image. -/
def Seg.ok (g : Seg) (img : Bytes) (n : Nat) : Bool :=
  decide (1 ≤ g.ty) && decide (g.ty ≤ 10) && (decide (g.slot < n) || g.slot = 0xFF) && (decide (g.core < 2) || g.core = 0xFF) &&
    decide (g.src + g.len ≤ img.length) &&
    (if g.ty = 1 then decide (g.queue < 40) && g.len % 32 = 0 && decide (g.count ≤ 65536)
     else if g.ty = 4 then Bytes.nat img g.src 2 = 0x4C53 && decide (1 ≤ Bytes.nat img (g.src + 2) 1) &&
       decide (Bytes.nat img (g.src + 2) 1 ≤ 64) && g.len = 16 + 32 * Bytes.nat img (g.src + 2) 1
     else if g.ty = 5 then g.dest % 64 = 0 && g.len % 64 = 0 && decide (g.dest + g.len ≤ 4096)
     else if g.ty = 6 then g.dest % 1088 = 0 && g.len % 1088 = 0 && decide (g.dest + g.len ≤ 32 * 1088)
     else if g.ty = 9 then
       let m := g.data img
       Bytes.nat m 0 2 = 0x4854 && g.len = 16 + 4 * (Map.inits m + Map.rings m + Map.hurdles m) &&
         (Map.ring m).all fun e => e.2.2 != 0
     else if g.ty = 10 then
       let t := g.data img
       g.len = 272 && Bytes.nat t 0 2 = 0x5443 &&
         (List.range 8).all fun c => (List.range 5).all fun e =>
           decide (1 ≤ Bytes.nat t (0x10 + 32 * c + e) 1) && decide (Bytes.nat t (0x10 + 32 * c + e) 1 ≤ 15)
     else true)

/-- At most one segment of a type on each core of each slot. -/
def Img.oneEach (img : Bytes) (ty : Nat) : Bool :=
  (List.range (Img.n img)).all fun k => [0, 1].all fun c =>
    decide (((Img.segs img).filter fun g => g.ty = ty && g.onCore k c).length ≤ 1)

/-- 0x02. -/
def Img.formOk (img : Bytes) : Bool :=
  Img.u img 0 4 = 0x33314E4C && Img.u img 4 2 = 1 && decide (Img.mode img ≤ 1) && Img.length img = img.length &&
    decide (0x100 + 32 * Img.segCount img ≤ img.length) && (Img.segs img).all (fun g => g.ok img (Img.n img)) &&
    Img.oneEach img 4 && Img.oneEach img 9 && Img.oneEach img 10

/-- 0x06 on one command (R174, R175, R186, R207). -/
def Img.cmdOk (img : Bytes) (k c q : Nat) (x : Cmd) : Bool :=
  !x.reserved && x.valid q && decide (x.creditLink ≤ 5) &&
    (if Img.scheduled img then decide (x.issueCc < Img.m img) && !x.waitEn && !x.sigEn && x.creditLink = 0
     else x.creditLink = 0 || Img.startCredit img k c (ctxOf q) x.creditLink != 0)

/-- Ranges, as first number and count, cover 0 to n − 1 exactly once. -/
def coversOnce (rs : List (Nat × Nat)) (n : Nat) : Bool :=
  let xs := rs.filter fun r => r.2 != 0
  xs.all (fun r => decide (r.1 + r.2 ≤ n)) && (xs.map (·.2)).sum = n &&
    pairwiseB (fun x y => decide (x.1 + x.2 ≤ y.1) || decide (y.1 + y.2 ≤ x.1)) xs

/-- One type-7 segment: offsets, indices, halo and bounds. -/
def plumbSegOk (g : Seg) (t : Bytes) : Bool :=
  let w (o : Nat) := Bytes.nat t o 4
  let rows := w 0x10
  let nz := w 0x18
  let halo := w 0x1C
  let ptr (i : Nat) := w (w 0x20 + 4 * i)
  let arrays := [(0, 64), (w 0x20, 4 * (rows + 1)), (w 0x24, 4 * nz), (w 0x28, 2 * nz), (w 0x2C, 4 * halo)]
  Bytes.nat t 0 2 = 0x5350 && decide (2 ≤ Bytes.nat t 2 1) && decide (Bytes.nat t 2 1 ≤ 24) &&
    arrays.all (fun a => decide (g.dest + a.1 + a.2 ≤ actBytes) && decide (a.1 + a.2 ≤ g.len)) &&
    ptr 0 = 0 && ptr rows = nz && (List.range rows).all (fun i => decide (ptr i ≤ ptr (i + 1))) &&
    (List.range nz).all (fun i => decide (w (w 0x24 + 4 * i) < rows + halo)) &&
    (List.range halo).all fun i =>
      let h := w (w 0x2C + 4 * i)
      decide (h < w 4) && !(decide (w 0xC ≤ h) && decide (h < w 0xC + rows))

/-- 0x08: R836. -/
def Img.plumbOk (img : Bytes) : Bool :=
  let gs := (Img.segs img).filter fun g => g.ty = 7
  match gs with
  | [] => true
  | g0 :: _ =>
    let t0 := g0.data img
    let same (t : Bytes) : Bool := Bytes.nat t 2 1 = Bytes.nat t0 2 1 && Bytes.nat t 4 8 = Bytes.nat t0 4 8
    gs.length = Bytes.nat t0 2 1 && Img.oneEach img 7 && gs.all (fun g => same (g.data img) && plumbSegOk g (g.data img)) &&
      coversOnce (gs.map fun g => (Bytes.nat (g.data img) 0xC 4, Bytes.nat (g.data img) 0x10 4)) (Bytes.nat t0 4 4) &&
      coversOnce (gs.map fun g => (Bytes.nat (g.data img) 0x14 4, Bytes.nat (g.data img) 0x18 4)) (Bytes.nat t0 8 4)

/-- 0x10: rack bytes, batons in the rack, and every ring-in buffer at least twice the largest baton (R120). -/
def Img.rackOk (img : Bytes) : Bool :=
  decide (Img.rackNeed img ≤ rackBytes) && ((Img.segs img).filter fun g => g.ty = 2).all (fun g => decide (g.dest + g.len ≤ rackBytes)) &&
    Img.allCmds img fun _ _ _ x => x.opcode != 0xA4 ||
      (decide (Img.maxBaton img ≤ 65536 * x.slotUnits) && (x.lapMode = 1 || decide (x.ringInCw + 2 * x.slotUnits ≤ 1024)) &&
        (x.lapMode = 0 || decide (x.ringInCcw + 2 * x.slotUnits ≤ 1024)))

/-- 0x11: activation bytes, and initial data and structures in the store. -/
def Img.actOk (img : Bytes) : Bool :=
  decide (Img.actNeed img ≤ actBytes) &&
    ((Img.segs img).filter fun g => g.ty = 3 || g.ty = 7).all fun g => decide (g.dest + g.len ≤ actBytes)

/-- 0x12: R105, R106. -/
def Img.batonsOk (img : Bytes) : Bool :=
  ((Img.segs img).filter fun g => g.ty = 2).all fun g =>
    g.len % 65536 = 0 && decide (65536 ≤ g.len) && decide (g.len ≤ 16777216)

/-- 0x13: HBM bytes, and lists and data in the share. -/
def Img.hbmOk (img : Bytes) (share : Nat) : Bool :=
  decide (Img.hbmNeed img ≤ share) && ((Img.segs img).filter fun g => g.ty = 1 || g.ty = 8).all fun g => decide (g.dest + g.len ≤ share)

/-- 0x14: R300. -/
def Img.leasesOk (img : Bytes) : Bool :=
  ((Img.segs img).filter fun g => g.ty = 4).all fun g =>
    let t := g.data img
    (List.range (Bytes.nat t 2 1)).all fun ph =>
      leaseMask t ph 7 = 0 && (List.range 20).all fun bank =>
        decide (((List.range 7).filter fun o => bitOf (leaseMask t ph o) bank).length ≤ 1)

/-- The descriptors of type-5 segments. -/
def Img.descriptors (img : Bytes) : List Bytes :=
  ((Img.segs img).filter fun g => g.ty = 5).flatMap fun g => (List.range (g.len / 64)).map fun i => Bytes.sub img (g.src + 64 * i) 64

/-- The tally indices that the program uses. -/
def Cmd.tallies (x : Cmd) : List Nat :=
  (if x.waitEn then [x.waitTally] else []) ++ (if x.sigEn then [x.sigTally] else []) ++
    (if x.opcode = 0xA4 && x.releaseEn then [x.releaseTally] else [])
def descTallies (d : Bytes) : List Nat :=
  let x : Slot := { raw := d }
  (if x.gateEn then [x.gateTally] else []) ++ (if x.landEn then [x.landTally] else [])

/-- Every tally index of the program lies below a limit (0x20, R408). -/
def Img.talliesBelow (img : Bytes) (limit : Nat) : Bool :=
  Img.allCmds img (fun _ _ _ x => x.tallies.all fun i => decide (i < limit)) &&
    (Img.descriptors img).all (fun d => (descTallies d).all fun i => decide (i < limit)) &&
    (List.range (Img.n img)).all fun k =>
      (Map.init (Img.map img k)).all (fun e => decide (e.1 < limit)) && (Map.ring (Img.map img k)).all fun e => decide (e.1 < limit)

/-- 0x21: hurdles used, and the map's hurdles, within the partition's. -/
def Img.hurdlesOk (img : Bytes) (count : Nat) : Bool := decide (Img.hurdles img ≤ count)

/-- 0x22: the larger of MAX_PARTICIPANTS and the largest count (R418). -/
def Img.participantsOk (img : Bytes) (count : Nat) : Bool :=
  decide ((List.range count).foldl (fun m h => max m (Img.participants img h).length) (Img.maxParts img) ≤ min 120 (10 * Img.n img))

/-- 0x31. -/
def Img.contextsOk (img : Bytes) : Bool :=
  decide (1 ≤ Img.contexts img) && decide (Img.contexts img ≤ 8) &&
    (Img.places img).all fun x => decide (ctxOf x.2.2 < Img.contexts img) || (Img.cmds img x.1 x.2.1 x.2.2).isEmpty

/-- 0x33: on each engine, the scheduled cycles of all contexts differ. -/
def Img.scheduleOk (img : Bytes) : Bool :=
  (List.range (Img.n img)).all fun k => [0, 1].all fun c => (List.range 5).all fun e =>
    pairwiseB (fun x y => x != y)
      ((List.range 8).flatMap fun ctx => (Img.cmds img k c (5 * ctx + e)).map fun x => (x.issueBeat, x.issueCc))

/-- The checks in table order: detail, status, whether it holds. -/
def State.loadChecks (s : State) (p : Nat) (img : Bytes) : List (Nat × Nat × Bool) :=
  let x := s.part p
  let sched := Img.scheduled img
  [(0x01, stSHAPE, decide (0x100 ≤ img.length) && Img.crcOk img), (0x02, stSHAPE, Img.formOk img),
   (0x03, stSHAPE, Img.u img 6 1 = 0 || Img.u img 6 1 = s.fuses.gradeCode),
   (0x04, stSHAPE, Img.n img = (s.activeBenches p).length && decide (Img.minActive img ≤ Img.n img)),
   (0x05, stSHAPE, !sched || Img.bypass img = s.bypassedCount p),
   (0x06, stSHAPE, Img.allCmds img (Img.cmdOk img)),
   (0x07, stPROFILE, !sched || Img.m img = s.m),
   (0x08, stSHAPE, Img.plumbOk img), (0x10, stSPACE, Img.rackOk img), (0x11, stSPACE, Img.actOk img), (0x12, stSPACE, Img.batonsOk img),
   (0x13, stSPACE, Img.hbmOk img x.hbmBytes), (0x14, stSPACE, Img.leasesOk img),
   (0x20, stSYNC, decide (Img.tallyBlocks img ≤ x.tallyBlocks) && Img.talliesBelow img (64 * x.tallyBlocks)),
   (0x21, stSYNC, Img.hurdlesOk img x.hurdleCount), (0x22, stSYNC, Img.participantsOk img x.hurdleCount),
   (0x30, stSTREAMS, decide (Img.streams img ≤ 64)), (0x31, stSTREAMS, Img.contextsOk img),
   (0x32, stSTREAMS, !sched || Config.hbmWindowsHold img), (0x33, stSTREAMS, !sched || Img.scheduleOk img)]

/-- The first failing check: detail and status. -/
def State.loadRefusal (s : State) (p : Nat) (img : Bytes) : Option (Nat × Nat) :=
  ((s.loadChecks p img).find? fun c => !c.2.2).map fun c => (c.2.1, c.1)

/-- The image keeps the limits of R598 for an adopter. -/
def Img.compact (img : Bytes) (blocks : Nat) : Bool :=
  decide (Img.contexts img ≤ 4) && decide (Img.rackNeed img ≤ 33554432) && decide (Img.actNeed img ≤ 25165824) &&
    ((Img.segs img).filter fun g => g.ty = 5).all (fun g => decide (g.dest + g.len ≤ 2048)) &&
    ((Img.segs img).filter fun g => g.ty = 6).all (fun g => decide (g.dest + g.len ≤ 16 * 1088)) &&
    Img.allCmds img (fun _ _ _ x => (x.opcode != 0x45 || decide (x.table < 16)) &&
      ((x.opcode != 0x12 && x.opcode != 0x13) || decide (x.genSlot < 2)) &&
      ((x.opcode != 0xA0 && x.opcode != 0xA1 && x.opcode != 0xA2) || decide (x.a 5 0 < 32))) &&
    Img.talliesBelow img (64 * (blocks / 2))

end Sys2Proof.Machine
end

