-- ==== Sys2Proof/Machine/Program.lean ====
section
/-! DEFINITION. PROGRAM_LOAD and its end (04_engines_queues_programs.md R196, R208 to R214; 05 R234; 08 R341; 10 R451, R452), buddy copies
(13_checkpoint_and_recovery.md R587 to R600), PART_BALANCE (04 R190, R191) and PART_PREEMPT (14 R617 to R624). -/

namespace Sys2Proof.Machine

/-! ## PROGRAM_LOAD -/

/-- The image of a PROGRAM_LOAD: host bytes that the command brings, or bytes of the share. -/
def State.imageOf (s : State) (p : Nat) (x : Pkt) (host : Xfer) : Option Bytes :=
  let a := x.u 0x28 8
  let n := x.u 0x30 8
  if x.u 0x20 1 = 0 then (match host with
    | .ok d => if d.length = n then some d else none
    | _ => none)
  else if x.u 0x20 1 = 1 && decide (a + n ≤ (s.part p).hbmBytes) then some (s.shareRead p a n)
  else none

/-- An admitted PROGRAM_LOAD (R210 to R212): refused, or a load in work. -/
def State.loadAdmitted (host : Xfer) (id : PktId) (p : Nat) (x : Pkt) (s : State) : State :=
  let st := (s.part p).shownState
  if (st != .idle && st != .loaded) || (s.part p).load.isSome then s.refuse id p stDEFERRED 0
  else match s.imageOf p x host with
    | none => s.refuse id p stSHAPE 0x52
    | some img => match s.loadRefusal p img with
      | some r => s.refuse id p r.1 r.2
      | none => s.modPart p fun y =>
          { y with load := some { id := id, image := img, reply := x.u 0x38 8 }, stop := match y.stop with
            | .load _ _ => .none
            | z => z }

/-- PROGRAM_LOAD. -/
def programLoadEffect (f : Nat) (host : Xfer) (s : State) : State := s.admitPkt f 0x10 (State.loadAdmitted host)
def execProgramLoad (f : Nat) (image : Xfer) (s : State) : Host.Outcome State Fault Refusal := done s (programLoadEffect f image)

/-! ## The end of a load -/

/-- The queues of a core as the loader leaves them (R196): a list sets BASE and SIZE of its queue. STATUS stays (R8). DESIGN CHOICE (log
entry 63): TAIL stands behind the list's entries, HEAD before them, and a queue without a list keeps BASE and SIZE and is empty. -/
def loadedQueues (old : List Queue) (img : Bytes) (k c : Nat) : List Queue :=
  (List.range 40).map fun q =>
    let x := old.getD q {}
    match Img.list img k c q with
    | some g => { status := x.status, base := BitVec.ofNat 64 g.dest, log2 := sizeLog2 g.count, tail := g.count }
    | none => { status := x.status, base := x.base, log2 := x.log2 }

/-- The stream slots of a core after a load: the descriptors of type-5 segments (R341). -/
def loadedSlots (img : Bytes) (k c : Nat) : List Slot :=
  (List.range 64).map fun i =>
    match ((Img.segs img).filter fun g => g.ty = 5 && g.onCore k c && decide (g.dest ≤ 64 * i) && decide (64 * i < g.dest + g.len)).getLast? with
    | some g => { raw := Bytes.sub img (g.src + (64 * i - g.dest)) 64 }
    | none => {}

/-- The function tables of a core after a load; slots that no type-6 segment loads are zero (R234, R237). -/
def loadedTables (img : Bytes) (k c : Nat) : List Bytes :=
  (List.range 32).map fun i =>
    match ((Img.segs img).filter fun g => g.ty = 6 && g.onCore k c && decide (g.dest ≤ 1088 * i) &&
        decide (1088 * i < g.dest + g.len)).getLast? with
    | some g => Bytes.sub img (g.src + (1088 * i - g.dest)) 1088
    | none => []

/-- DEST of a core's resident structure. -/
def loadedPlumb (img : Bytes) (k c : Nat) : Option Nat :=
  ((Img.segs img).find? fun g => g.ty = 7 && g.onCore k c).map (·.dest)

/-- A core's configuration after a load. -/
def Core.program (x : Core) (img : Bytes) (k c : Nat) : Core :=
  let x := x.quiet
  { x with queues := loadedQueues x.queues img k c, tables := loadedTables img k c, dma := { x.dma with slots := loadedSlots img k c }
           plb := { x.plb with resident := loadedPlumb img k c } }

/-- The store segments of a slot are written in its bench. -/
def State.writeStores (s : State) (img : Bytes) (k b : Nat) : State :=
  ((Img.segs img).filter fun g => g.onSlot k).foldl (fun s g =>
    if g.ty = 2 then s.rackWrite b g.dest (g.data img)
    else if g.ty = 3 || g.ty = 7 then s.actWrite b g.dest (g.data img)
    else s) s

/-- The list and data segments are written in the share. -/
def State.writeShare (s : State) (p : Nat) (img : Bytes) : State :=
  (Img.segs img).foldl (fun s g => if g.ty = 1 || g.ty = 8 then s.hbmWrite p g.dest (g.data img) else s) s

/-- Every slot of the program is set up on its bench. -/
def State.setUpSlots (s : State) (p : Nat) (img : Bytes) : State :=
  ((s.activeBenches p).zipIdx).foldl (fun s y =>
    (s.writeStores img y.2 y.1).modBench y.1 fun b =>
      { b with cores := (b.cores.zipIdx).map fun z => z.1.program img y.2 z.2, port := {} }) s

/-- The partition's record of a loaded program. -/
def Part.program (x : Part) (img : Bytes) (seats : List Nat) : Part :=
  { x with
    prog := some { image := img, fingerprint := sha256 img, compact := Img.compact img x.tallyBlocks }
    credit := !Img.scheduled img, shrink := Img.shrinkable img, minActive := Img.minActive img, balance := Img.balance img
    slotSeats := seats, adopted := [], dropProg := false
    hurdles := (List.range x.hurdleCount).map fun h => { parts := Img.participants img h } }

/-- The load's completion, with the fingerprint in host memory (R213). -/
def State.loadEnd (s : State) (p : Nat) : State := match (s.part p).load with
  | none => s
  | some j =>
    let fp := match (s.part p).prog with
      | some g => g.fingerprint
      | none => []
    ((s.emit (.hostWrite j.id.pasid j.reply fp)).finish j.id p stOK 0 (Bytes.nat fp 0 8)).modPart p fun x =>
      { x with load := none, state := .loaded }

/-- Every buddy-dirty bit is set, and the partition stops for the buddy pause that copies every page (R588, R590). -/
def State.copyAll (s : State) (p : Nat) : State :=
  let now := s.now
  s.modPart p fun x => { x with stop := .pause (now + 32 * slotPages), ckp := { x.ckp with buddyDirty := x.ckp.allBuddy } }

/-- The image is written: the partition's memory and its program are replaced. -/
def programLoadDoneEffect (p : Nat) (s : State) : State :=
  match (s.part p).load with
  | none => s
  | some j =>
    if j.copying || (s.part p).hasTask then s
    else
      let seats := (s.arcSeats p).filter fun k => (s.bench (s.seatBench k)).state = .active
      let s := s.modPart p fun x => { x.program j.image seats with load := some { j with copying := true } }
      let s := (s.writeShare p j.image).setUpSlots p j.image
      if (s.part p).ckp.buddyOn then s.copyAll p else s.loadEnd p
def execProgramLoadDone (p : Nat) (s : State) : Host.Outcome State Fault Refusal := done s (programLoadDoneEffect p)

/-! ## BUDDY_SET and the buddy pause -/

/-- Slots that a buddy area serves. -/
def State.buddySlots (s : State) (p : Nat) : Nat := (s.activeBenches p).length + (s.part p).adopted.length

/-- An admitted BUDDY_SET (R587). -/
def State.buddyAdmitted (id : PktId) (p : Nat) (x : Pkt) (s : State) : State :=
  let base := x.u 0x28 8
  let n := s.buddySlots p
  if (s.part p).hasTask || (s.part p).hasLaunch || (s.part p).load.isSome || (s.part p).await.isSome then s.refuse id p stDEFERRED 0
  else if base = 0 then
    (s.modPart p fun y => { y with ckp := { y.ckp with buddyOn := false, buddyDirty := [], buddyBase := 0, buddyN := 0,
                                                       buddySlot1 := [] } }).finish id p stOK 0
  else if base % 65536 != 0 || decide ((s.part p).hbmBytes < base + n * 234881024) then s.refuse id p stSPACE 0
  else
    (s.modPart p fun y => { y with
      await := some (id, 0, 0)
      ckp := { y.ckp with buddyOn := true, buddyBase := base, buddyN := n, buddySlot1 := [] } }).copyAll p

/-- BUDDY_SET. -/
def buddySetEffect (f : Nat) (s : State) : State := s.admitPkt f 0x1B State.buddyAdmitted
def execBuddySet (f : Nat) (s : State) : Host.Outcome State Fault Refusal := done s (buddySetEffect f)

/-- A BUDDY_SET, CKP_RESTORE or PART_DESTROY completes. -/
def State.endAwait (s : State) (p : Nat) : State := match (s.part p).await with
  | some (id, r0, r1) => (s.finish id p stOK 0 r0.toNat r1.toNat).modPart p fun x => { x with await := none }
  | none => s

/-- BUDDY_PAUSE_END: the pages are in their buddy slots; the step may commit, or the packet completes (R588, R589). -/
def buddyPauseEndEffect (p : Nat) (s : State) : State :=
  match (s.part p).stop with
  | .pause e =>
    if s.now < e then s
    else match (s.part p).task with
      | some t =>
        if t.paused then s
        else (s.buddyCopy p).modPart p fun x => { x with task := some { t with paused := true } }
      | none =>
        let s := (s.buddyCopy p).modPart p Part.proceed
        if (s.part p).load.isSome then s.loadEnd p else s.endAwait p
  | _ => s
def execBuddyPauseEnd (p : Nat) (s : State) : Host.Outcome State Fault Refusal := done s (buddyPauseEndEffect p)

/-! ## The buddy load (R594 to R600, R702) -/

/-- The beat in which the first command that waits in the partition's queues is due in scheduled mode. -/
def State.stepDue (s : State) (p : Nat) (t : Task) : Option Nat :=
  ((s.activeBenches p).flatMap fun b => [0, 1].flatMap fun c => (List.range 40).filterMap fun q =>
    (s.headCmd b c q).map fun x => s.scheduledAt t x.2 / s.m).min?

/-- The run goes on after a buddy load: back to the step's start; in scheduled mode every later event D beats late, counted from the
step's first issue beat, or from the beat it was due in where nothing of the step has issued (R595 steps 4 to 6, R596, R600). A
takeover sets mask bit 6 (R463). -/
def State.resumeAfterLoad (s : State) (p : Nat) (t : Task) (kind : Nat) : State :=
  let s := ((s.backToStep p t (s.now + 1)).emptyRing p).modPart p fun x =>
    { x with task := x.task.map fun u => { u with takeovers := if kind = 0 then u.takeovers + 1 else u.takeovers } }
  let s := if kind = 0 then s.mark p 6 else s
  match t.firstIssue.or (s.stepDue p t) with
  | some f => if t.credit then s else
      let g := s.beat.periods + (16 - s.beat.count.toNat % 16)
      s.shiftRun p (roundUp (g - f) 16)
  | none => s

/-- BUDDY_LOAD_DONE. -/
def buddyLoadDoneEffect (p : Nat) (s : State) : State :=
  match (s.part p).stop with
  | .load e kind =>
    if s.now < e then s
    else
      let s := if kind = 1 then s.ckpEvent p 5 else s
      let s := s.modPart p Part.proceed
      match (s.part p).task with
      | some t => if (s.part p).recovering then s else s.resumeAfterLoad p t kind
      | none => s.modPart p fun x => { x with state := if x.prog.isSome then .loaded else x.state }
  | _ => s
def execBuddyLoadDone (p : Nat) (s : State) : Host.Outcome State Fault Refusal := done s (buddyLoadDoneEffect p)

/-! ## PART_BALANCE and PART_PREEMPT -/

/-- PART_BALANCE (R190, R191). -/
def State.balanceAdmitted (id : PktId) (p : Nat) (x : Pkt) (s : State) : State :=
  if (s.part p).hasTask || (s.part p).hasLaunch then s.refuse id p stDEFERRED 0
  else (s.modPart p fun y => { y with balance := bitOf (x.u 0x20 1) 0 }).finish id p stOK 0
def partBalanceEffect (f : Nat) (s : State) : State := s.admitPkt f 0x04 State.balanceAdmitted
def execPartBalance (f : Nat) (s : State) : Host.Outcome State Fault Refusal := done s (partBalanceEffect f)

/-- A pending start-count launch is cancelled, and no entry is written (R622, R677). -/
def State.cancelLaunch (s : State) (p : Nat) : State := match (s.part p).launch with
  | some t => (s.unreserve.finish t.id p stABORTED 0x69 0xFFFFFFFFFFFFFFFF).modPart p fun x => { x with launch := none }
  | none => s

/-- A task in progress that PART_PREEMPT may still end. -/
def Part.preemptible (x : Part) : Bool := x.task.isSome && (match x.stop with
  | .abort _ => false
  | _ => true)

/-- PART_PREEMPT (R617 to R624). -/
def State.preemptAdmitted (id : PktId) (p : Nat) (x : Pkt) (s : State) : State :=
  let s := s.cancelLaunch p
  if !(s.part p).preemptible then s.finish id p stOK 0
  else
    let s := s.modPart p fun y => { y with preempts := y.preempts ++ [id] }
    if bitOf (x.u 0x20 1) 0 then
      let e := s.cutEnding (s.arcCores p) 0x69 preempted
      (s.dropClamp p).abort p e
    else s.modPart p fun y => { y with task := y.task.map fun t => { t with preempt := true } }
def partPreemptEffect (f : Nat) (s : State) : State := s.admitPkt f 0x05 State.preemptAdmitted
def execPartPreempt (f : Nat) (s : State) : Host.Outcome State Fault Refusal := done s (partPreemptEffect f)

end Sys2Proof.Machine
end

