-- ==== Sys2Proof/Machine/Glue.lean ====
section
/-! DEFINITION. Glued settings (17_resets_power_states_glue.md R722 to R727): GLUE_WRITE, RING_SPARE_SET (03 R160), the spare's updates (03
R163, R166) and the end of a slot program. -/

namespace Sys2Proof.Machine

/-! ## Settings (R722) -/

/-- One-time slots of a setting. -/
def glueSlots (n : Nat) : Nat := if n = 2 || n = 15 then 1 else 8
def Glue.value (g : Glue) (n : Nat) : Nat := g.values.getD n 0
def Glue.left (g : Glue) (n : Nat) : Nat := glueSlots n - g.used.getD n 0

/-- The value lies in the setting's range; FW_MIN_VERSION is never lowered, bits of FW_SIGNER_REVOKE are only added, and neither
excludes the running firmware (18 R768). -/
def State.glueRange (s : State) (n v : Nat) : Bool :=
  let cur := s.glue.value n
  if n = 0 then decide (80 ≤ v) && decide (v ≤ 110)
  else if n = 1 then decide (v < s.nSeats) || v = 0xF
  else if n = 2 then decide (v ≤ 65535)
  else if n = 3 then decide (cur ≤ v) && decide (v ≤ s.mgmt.version)
  else if n = 4 then decide (v < 16) && !bitOf v s.mgmt.signer && (List.range 4).all fun i => !bitOf cur i || bitOf v i
  else if n = 5 then decide (v ≤ 3)
  else if n = 6 then decide (v ≤ 0xFFFF)
  else if n = 7 || n = 8 then decide (v < 2 ^ 48) && !bitOf v 40
  else if n = 9 then decide (400 ≤ v) && decide (v ≤ 1600) && v % 200 = 0
  else if n = 10 then decide (1 ≤ v) && decide (v ≤ 4)
  else if n = 11 then decide (8 ≤ v) && decide (v ≤ 0x77)
  else if n = 12 || n = 13 then true
  else if n = 14 then decide (1 ≤ v) && decide (v ≤ 500)
  else n = 15 && decide (v ≤ 1)

/-! ## Seats that no other use may take -/

/-- A run of seats, modulo N. -/
def State.seatRun (s : State) (first count : Nat) : List Nat := (List.range count).map fun i => (first + i) % s.nSeats

/-- Seats of partitions in force, in creation or being destroyed, and seats that a resize adds (log entry 23). -/
def State.claimedSeats (s : State) : List Nat :=
  ((List.range 6).flatMap (fun p => s.arcSeats p) ++ s.ring.requests.flatMap fun r => match r.change with
    | .resize first count _ => s.seatRun first count
    | _ => []).eraseDups

/-- A bench's seat is claimed. -/
def State.claims (s : State) (b : Nat) : Bool := s.claimedSeats.contains (s.benchSeat b)

/-! ## The spare -/

/-- Bench b becomes SPARE. -/
def State.makeSpare (s : State) (b : Nat) : State :=
  (s.modBench b fun x => { x with state := .spare }).modRing fun r => { r with spareLive := b }

/-- The refusal of a RING_SPARE_SET before any slot is looked at (R160 steps 1 and 2). -/
def State.spareSetRefusal (s : State) (b : Nat) : Option (Nat × Nat) :=
  if s.ring.spareLive != 0xF then some (stDEFERRED, 0)
  else if s.nSeats ≤ b || (s.bench b).state != .unassigned || s.claims b then some (stSHAPE, 0x52)
  else none

/-! ## Decisions, one at a time (R724, R725) -/

/-- The next slot of a setting is consumed: its program begins. -/
def State.beginSlot (s : State) (n : Nat) : State := s.modGlue fun g => { g with used := g.used.modify n (· + 1) }

/-- The value is in force. -/
def State.setGlue (s : State) (n v : Nat) : State :=
  let s := s.modGlue fun g => { g with values := g.values.set n v }
  if n = 2 then s.modLdg fun l => { l with anchorDue := true } else s

/-- The decision on the first job: none while a slot is to be programmed, else the state after it. -/
def State.decideJob (s : State) (j : GlueJob) : Option State :=
  let n := j.setting
  let same := s.glue.value n = j.value
  let left := s.glue.left n
  match j.who with
  | .packet id =>
    if !s.glueRange n j.value then some (s.refuse id 0xFF stSHAPE 0x52)
    else if same then some (s.finish id 0xFF stOK 0 left)
    else if left = 0 && glueSlots n = 1 then some ((s.writeLocked (0x300000 + 8 * n) 0).refuse id 0xFF stLOCKED 0)
    else if left = 0 then some ((s.glueEvent 1).refuse id 0xFF stGLUE 0)
    else none
  | .spare none => if same then some s else if left = 0 then some (s.ringEvent 5) else none
  | .spare (some id) => match s.spareSetRefusal j.value with
    | some r => some (s.refuse id 0xFF r.1 r.2)
    | none =>
      if same then some ((s.makeSpare j.value).finish id 0xFF stOK 0 left)
      else if left = 0 then some ((s.glueEvent 1).refuse id 0xFF stGLUE 0)
      else none

/-- Jobs at the front are decided until one needs a slot. -/
def State.glueStart (s : State) : Nat → State
  | 0 => s
  | n + 1 => match s.glue.jobs with
    | [] => s
    | j :: rest => match s.decideJob j with
      | some t => (t.modGlue fun g => { g with jobs := rest }).glueStart n
      | none =>
        let s := s.beginSlot j.setting
        match j.who with
        | .spare (some _) => s.makeSpare j.value
        | _ => s

/-- An update joins the queue of updates. -/
def State.glueUpdate (s : State) (j : GlueJob) : State :=
  let idle := s.glue.jobs.isEmpty
  let s := s.modGlue fun g => { g with jobs := g.jobs ++ [j] }
  if idle then s.glueStart 64 else s

/-- SPARE_GLUED is to become a bench's number (R163, R166). -/
def State.glueSpare (s : State) (b : Nat) : State := s.glueUpdate { setting := 1, value := b, who := .spare none }

/-! ## GLUE_WRITE, RING_SPARE_SET, GLUE_SLOT_PROGRAMMED -/

/-- GLUE_WRITE: a setting above 15 is refused at once, any other joins the updates (R724, R725). -/
def glueWriteEffect (f : Nat) (s : State) : State := s.admitPkt f 0x31 fun id _ x s =>
  let n := x.u 0x20 1
  if 15 < n then s.refuse id 0xFF stSHAPE 0x52
  else s.glueUpdate { setting := n, value := x.u 0x28 8, who := .packet id }
def execGlueWrite (f : Nat) (s : State) : Host.Outcome State Fault Refusal := done s (glueWriteEffect f)

/-- RING_SPARE_SET (R160): its refusals first, then the update of SPARE_GLUED. -/
def ringSpareSetEffect (f : Nat) (s : State) : State := s.admitPkt f 0x08 fun id _ x s =>
  match s.spareSetRefusal (x.u 0x20 1) with
  | some r => s.refuse id 0xFF r.1 r.2
  | none => s.glueUpdate { setting := 1, value := x.u 0x20 1, who := .spare (some id) }
def execRingSpareSet (f : Nat) (s : State) : Host.Outcome State Fault Refusal := done s (ringSpareSetEffect f)

/-- A slot has been programmed with a valid check: its value is in force, and the next update is decided (R724 step 5, R725). -/
def glueSlotProgrammedEffect (s : State) : State :=
  match s.glue.jobs with
  | [] => s
  | j :: rest =>
    let s := (s.setGlue j.setting j.value).modGlue fun g => { g with jobs := rest }
    let s := match j.who with
      | .packet id => s.finish id 0xFF stOK 0 (s.glue.left j.setting)
      | .spare (some id) => s.finish id 0xFF stOK 0 (s.glue.left j.setting)
      | .spare none => s
    s.glueStart 64
def execGlueSlotProgrammed (s : State) : Host.Outcome State Fault Refusal := done s glueSlotProgrammedEffect

end Sys2Proof.Machine
end

