-- ==== Sys2Proof/Machine/Part.lean ====
section
/-! DEFINITION. Partitions, splice windows and rejoin (03_ring_benches_partitions.md R134 to R166; 08 R331, R332; 09 R407; 12 R485; 13 R587;
15 R667 to R670; 14 R635; 17 R728, R729). -/

namespace Sys2Proof.Machine

/-! ## Limits (R136) and free resources (R142, R407, R669) -/

/-- Seats per arc, and in all arcs, at most. -/
def State.maxArc (s : State) : Nat := if s.isC then 8 else 12

/-- The partition entry is in use: in force, in creation or being destroyed. -/
def Part.used (x : Part) : Bool := x.seats != 0

/-- Tally blocks in use. -/
def State.blocksUsed (s : State) : Nat :=
  (s.parts.map fun x => 2 * x.seats * x.tallyBlocks).sum + (s.ring.requests.map fun r => match r.change with
    | .resize _ n _ => 2 * (n - (s.part r.part).seats) * (s.part r.part).tallyBlocks
    | _ => 0).sum
/-- Hurdles in use. -/
def State.hurdlesUsed (s : State) : Nat := (s.parts.map (·.hurdleCount)).sum

/-- The lowest run of free GiB (R669). -/
def State.freeHbm (s : State) (n : Nat) : Option Nat :=
  (List.range (s.hbmGiB + 1)).find? fun b => decide (b + n ≤ s.hbmGiB) &&
    s.parts.all fun x => !x.used || decide (x.hbmBase + x.hbmSize ≤ b) || decide (b + n ≤ x.hbmBase)

/-- The named seats may join an arc: their benches are UNASSIGNED and nothing else claims them. -/
def State.seatsFree (s : State) (seats : List Nat) : Bool :=
  seats.all fun k => !s.claimedSeats.contains k && (s.bench (s.seatBench k)).state = .unassigned

/-! ## PART_CREATE -/

/-- Bandwidth units: 10, 6 and 4 where all are zero (R331, R669). -/
def splitUnits (u : List Nat) : List Nat := if u.all (· = 0) then [10, 6, 4] else u

/-- The refusal of a PART_CREATE: status and detail. -/
def State.createRefusal (s : State) (p : Nat) (x : Pkt) : Option (Nat × Nat) :=
  let first := x.u 0x20 1
  let n := x.u 0x21 1
  let units := splitUnits [x.u 0x26 1, x.u 0x27 1, x.u 0x28 1]
  if s.nParts ≤ p || (s.part p).used then some (stSHAPE, 0x52)
  else if bitOf (x.u 0x23 1) 0 && !s.ldg.appends then some (stSEALED, 0)
  else if s.nSeats ≤ first || n < 2 || s.maxArc < n || s.maxArc < s.claimedSeats.length + n || !s.seatsFree (s.seatRun first n) then
    some (stSHAPE, 0)
  else if (s.freeHbm (x.u 0x2C 2)).isNone then some (stSPACE, 0)
  else if 128 < s.blocksUsed + 2 * n * x.u 0x22 1 || 256 < s.hurdlesUsed + x.u 0x24 2 then some (stSYNC, 0)
  else if units.any (fun u => decide (20 < u)) || units.sum != 20 then some (stSTREAMS, 0)
  else none

/-- An accepted PART_CREATE: the entry is claimed, the stream is opened and the change is pending. -/
def State.createAdmitted (id : PktId) (p : Nat) (x : Pkt) (s : State) : State :=
  match s.createRefusal p x with
  | some r => s.refuse id p r.1 r.2
  | none =>
    let sid := s.ldg.nextStream
    let s := s.modLdg fun l => { l with nextStream := l.nextStream + 1, anchorDue := true, dir := l.dir ++ [(sid, p, false, 0)] }
    let base := (s.freeHbm (x.u 0x2C 2)).getD 0
    let s := s.modPart p fun y =>
      { ckp := { event := y.ckp.event, skips := y.ckp.skips, nvme := y.ckp.nvme, lastGen := y.ckp.lastGen, tornLba := y.ckp.tornLba }
        first := x.u 0x20 1, seats := x.u 0x21 1, hbmBase := base, hbmSize := x.u 0x2C 2
        bw := splitUnits [x.u 0x26 1, x.u 0x27 1, x.u 0x28 1], tallyBlocks := x.u 0x22 1, hurdleCount := x.u 0x24 2
        audit := bitOf (x.u 0x23 1) 0, stream := { id := sid, closed := false } }
    (s.stageOpen p).requestSplice { part := p, change := .create, id := some id }

/-- PART_CREATE. -/
def partCreateEffect (f : Nat) (s : State) : State := s.admitPkt f 0x01 State.createAdmitted
def execPartCreate (f : Nat) (s : State) : Host.Outcome State Fault Refusal := done s (partCreateEffect f)

/-! ## PART_RESIZE (R144, R145) -/

/-- The new arc: FIRST_SEAT and SEAT_COUNT as integers. -/
def State.resizeArc (s : State) (p : Nat) (x : Pkt) : Int × Int :=
  let a := signedOf (x.u 0x20 1) 8
  let z := signedOf (x.u 0x21 1) 8
  (((s.part p).first - a) % (s.nSeats : Int), (s.part p).seats + a + z)

/-- The partition has a packet in work or a change pending: PART_RESIZE is turned away (log entry 23). -/
def State.partBusy (s : State) (p : Nat) : Bool :=
  let x := s.part p
  x.load.isSome || x.await.isSome || x.recovering || s.ring.requests.any fun r => r.part = p

/-- Buddy copies are disabled. -/
def Ckp.buddyOff (k : Ckp) : Ckp := { k with buddyOn := false, buddyDirty := [], buddyBase := 0, buddyN := 0, buddySlot1 := [] }

/-- An admitted PART_RESIZE. -/
def State.resizeAdmitted (id : PktId) (p : Nat) (x : Pkt) (s : State) : State :=
  if (s.part p).hasTask || (s.part p).hasLaunch || s.partBusy p then s.refuse id p stDEFERRED 0
  else
    let a := s.resizeArc p x
    let old := s.arcSeats p
    let new := s.seatRun a.1.toNat a.2.toNat
    let added := new.filter fun k => !old.contains k
    let fa := signedOf (x.u 0x20 1) 8
    let za := signedOf (x.u 0x21 1) 8
    if a.2 < 2 || decide ((s.maxArc : Int) < a.2) || decide (s.maxArc < s.claimedSeats.length - old.length + new.length) ||
        decide (fa < -((s.part p).seats : Int)) || decide (za < -((s.part p).seats : Int)) || !s.seatsFree added then
      s.refuse id p stSHAPE 0
    else if 128 < s.blocksUsed + 2 * (new.length - old.length) * (s.part p).tallyBlocks then s.refuse id p stSYNC 0
    else
      let s := (s.unload p).modPart p fun y => { y with ckp := y.ckp.buddyOff }
      s.requestSplice { part := p, change := .resize a.1.toNat new.length (old.filter fun k => !new.contains k), id := some id }

/-- PART_RESIZE. -/
def partResizeEffect (f : Nat) (s : State) : State := s.admitPkt f 0x02 State.resizeAdmitted
def execPartResize (f : Nat) (s : State) : Host.Outcome State Fault Refusal := done s (partResizeEffect f)

/-! ## PART_DESTROY (R146, R147) -/

/-- The change opens the switches of a destroyed arc. -/
def SpliceReq.opens (r : SpliceReq) : Bool := match r.change with
  | .destroy _ => true
  | _ => false

/-- Packets of the partition that can no longer take effect complete DEFERRED, and its pending changes are withdrawn (log entry 23). -/
def State.dropPackets (s : State) (p : Nat) : State :=
  let ids := (match (s.part p).load with
    | some j => [j.id]
    | none => []) ++ (match (s.part p).await with
    | some a => [a.1]
    | none => []) ++ s.ring.requests.filterMap fun r => if r.part = p then r.id else none
  let keep (r : SpliceReq) : Bool := r.part != p || r.opens
  let s := s.modRing fun r => { r with waiting := r.waiting.filter keep
                                       window := r.window.map fun w => { w with reqs := w.reqs.filter keep } }
  (ids.foldl (fun s id => s.finish id p stDEFERRED 0) s).modPart p fun x => { x with load := none, await := none }

/-- The checkpoint is disarmed (R561): the session and the dirty bits are given up. -/
def Ckp.disarm (k : Ckp) : Ckp :=
  { k with armed := false, dirty := [], pending := [], drain := none, clamped := none, held := [] }

/-- An admitted PART_DESTROY: its drain fails, its program goes, and the zeroing runs. -/
def State.destroyAdmitted (id : PktId) (p : Nat) (_x : Pkt) (s : State) : State :=
  if (s.part p).hasTask || (s.part p).hasLaunch then s.refuse id p stDEFERRED 0
  else
    let s := if (s.part p).ckp.drain.isSome then s.failDrain p 0 else s
    ((s.dropPackets p).unload p).modPart p fun x =>
      { x with destroying := some id, stop := .none, ckp := (x.ckp.disarm).buddyOff }

/-- PART_DESTROY. -/
def partDestroyEffect (f : Nat) (s : State) : State := s.admitPkt f 0x03 State.destroyAdmitted
def execPartDestroy (f : Nat) (s : State) : Host.Outcome State Fault Refusal := done s (partDestroyEffect f)

/-- A seat is released (R145): ACTIVE to UNASSIGNED, BYPASSED to FENCED. -/
def Bench.release (x : Bench) : Bench :=
  { x.quiet with state := match x.state with
      | .active => .unassigned
      | .bypassed => .fenced
      | z => z }

/-- Switches in force: switch k is closed when seats k and k + 1 lie in one arc (R134, R135), a destroyed one until its window (R149). -/
def State.switchesNow (s : State) : W32 :=
  let closed := (List.range 6).flatMap fun p =>
    if (s.part p).valid then (s.arcSeats p).take ((s.part p).seats - 1) else []
  let held := s.ring.waiting.flatMap fun r => match r.change with
    | .destroy seats => seats.dropLast
    | _ => []
  BitVec.ofNat 32 ((List.range 13).foldl (fun acc k => acc + (if closed.contains k || held.contains k then 0 else 2 ^ k)) 0)

/-- PARTITION_ZEROED: the zeroing ends, CLOSE is staged, the benches are released, and the partition is gone, as in the worked
example of chapter 17; the switches of its arc open in the next splice window (R149; DEDUCED, log entry 62). -/
def partitionZeroedEffect (p : Nat) (s : State) : State :=
  match (s.part p).destroying with
  | none => s
  | some id =>
    let s := { s with hbm := Memory.clear s.hbm (s.part p).hbmStart (s.part p).hbmBytes }
    let seats := s.arcSeats p
    let s := (s.arcBenches p).foldl (fun s b => s.modBench b fun x => x.zeroFill.release) s
    let s := (s.stageClose p).modLdg fun l => { l with
      anchorDue := true, dir := l.dir.map fun d => if d.1 = (s.part p).stream.id then (d.1, d.2.1, true, d.2.2.2) else d }
    let s := s.modPart p fun x => { stream := x.stream, ckp := { event := x.ckp.event, skips := x.ckp.skips, nvme := x.ckp.nvme
                                                                 lastGen := x.ckp.lastGen, tornLba := x.ckp.tornLba } }
    (s.modRing fun r => { r with waiting := r.waiting ++ [{ part := p, change := .destroy seats }] }).finish id p stOK 0
def execPartitionZeroed (p : Nat) (s : State) : Host.Outcome State Fault Refusal := done s (partitionZeroedEffect p)

/-! ## Splice windows (R149 to R155) -/

/-- A takeover, which stops a scheduled run (R151 item 3). -/
def SpliceReq.replaces (r : SpliceReq) : Bool := match r.change with
  | .takeover _ => true
  | .bypass _ => true
  | _ => false

/-- Every transfer that still completes after a stop has completed. -/
def State.writesDone (s : State) (p : Nat) : Bool :=
  (s.activeBenches p).all fun b => (s.bench b).cores.all fun k => k.dma.writes.isEmpty

/-- The affected partition has stopped for a change (R151): in credit mode its ring has, and in scheduled mode a replacement stops the
run, which any other change waits for. -/
def State.stopped (s : State) (r : SpliceReq) : Bool :=
  let x := s.part r.part
  decide (r.notBefore ≤ s.beat.periods) &&
    (if !x.hasTask then true
     else if x.scheduledRun then r.replaces && x.ringIdle && s.writesDone r.part
     else x.ringStop && x.ringIdle)

/-- SPLICE_WINDOW_OPEN: at a gate with no window open, the changes whose partitions have stopped are taken. -/
def spliceWindowOpenEffect (s : State) : State :=
  let now := s.ring.waiting.filter s.stopped
  if !s.beat.gateOpen || s.ring.window.isSome || now.isEmpty then s
  else s.modRing fun r => { r with waiting := r.waiting.filter fun q => !s.stopped q
                                   window := some { closeAt := s.beat.periods + 64, reqs := now } }
def execSpliceWindowOpen (s : State) : Host.Outcome State Fault Refusal := done s spliceWindowOpenEffect

/-! ## What a closed window puts in force -/

/-- A creation is in force (R143, R153). -/
def State.closeCreate (s : State) (p : Nat) (id : Option PktId) : State :=
  let s := (s.arcBenches p).foldl (fun s b => s.modBench b fun x =>
    { x with state := if x.state = .unassigned then .active else x.state, port := {} }) s
  let s := s.modPart p fun x => { x with valid := true, state := .idle }
  match id with
  | some i => s.finish i p stOK 0 (s.part p).stream.id (s.part p).hbmBase
  | none => s

/-- A resize is in force. -/
def State.closeResize (s : State) (p first count : Nat) (released : List Nat) (id : Option PktId) : State :=
  let s := released.foldl (fun s k => s.modBench (s.seatBench k) Bench.release) s
  let s := s.modPart p fun x => { x with first := first, seats := count }
  let s := (s.arcBenches p).foldl (fun s b => s.modBench b fun x =>
    { x with state := if x.state = .unassigned then .active else x.state, port := {} }) s
  match id with
  | some i => s.finish i p stOK 0 (first + 16 * count)
  | none => s

/-- Two seats exchange their benches. -/
def Ring.exchange (r : Ring) (i j : Nat) : Ring :=
  { r with seatMap := (r.seatMap.set i (r.seatMap.getD j 0xF)).set j (r.seatMap.getD i 0xF) }

/-- A new bench's core takes the lost core's lists, tables, tallies, credits and weights (R408, R595 steps 3 and 4), and its arrays are
as at run start (R825); its own counters and fault registers stay. -/
def Core.replaces (mine lost : Core) : Core :=
  { mine with queues := lost.queues.map Queue.quiet, ctxState := List.replicate 8 0, tables := lost.tables, tallies := lost.tallies
              credits := lost.credits, creditStart := lost.creditStart, tokens := lost.tokens, wrr := lost.wrr
              dma := { mine.dma with slots := lost.dma.slots }, plb := { mine.plb with resident := lost.plb.resident }
              mx := { mine.mx with arrays := mine.mx.arrays.map ArraySt.runStart, gens := List.replicate 4 {}, jogCmdEnd := 0 } }

/-- The step-start record of a lost bench names the new one. -/
def CoreSnap.moved (n : CoreSnap) (lost new : Nat) : CoreSnap := if n.bench = lost then { n with bench := new } else n

/-- The buddy load of a lost slot begins, where the partition waits for it; its contents are those of the current buddy slots. -/
def State.beginLoad (s : State) (p k : Nat) (pages : List Nat) (kind : Nat) : State :=
  let e := s.now + 32 * pages.length
  (s.buddyLoad p k pages).modPart p fun x => match x.stop with
    | .takeover _ => { x with stop := .load e kind }
    | .none => { x with stop := .load e kind }
    | .load f j => { x with stop := .load (max e f) (min kind j), after := .none }
    | _ => x

/-- A takeover is in force (R162, R163, R593 to R595). The new bench has the lost one's place in the ring, and its lease phase is that
of the step (R299). -/
def State.closeTakeover (s : State) (p lost : Nat) : State :=
  let new := s.ring.spareLive
  let k := s.ownSlot p lost
  let i := s.benchSeat lost
  let j := s.benchSeat new
  let old := s.bench lost
  let s := s.modRing fun r => { r.exchange i j with spareLive := 0xF }
  let s := s.modBench new fun x =>
    { x.zeroFill with state := .active, power := 0, powerMove := none, port := old.port, jobs := [], reqs := []
                      cores := List.zipWith Core.replaces x.zeroFill.cores old.cores }
  let s := s.modBench lost fun x => { x.quiet with state := .fenced }
  let s := (s.ringEvent 1).glueSpare lost
  let s := s.modPart p fun x => { x with circle := x.circle.map fun b => if b = lost then new else b
                                         task := x.task.map fun t => { t with snaps := t.snaps.map fun n => n.moved lost new } }
  let s := match (s.part p).task with
    | some t => (s.setPhases p t.step).emptyRing p
    | none => s
  if (s.part p).ckp.buddyOn && (s.part p).prog.isSome then s.beginLoad p k (List.range slotPages) 0
  else s.modPart p fun x => { x with stop := match x.stop with
    | .takeover _ => .none
    | z => z }

/-- The upper half of an adopter's core is the lost core (R599). -/
def Core.adopts (mine lost : Core) (shift : Nat) : Core :=
  { mine with
    queues := mine.queues.take 20 ++ (lost.queues.take 20).map Queue.quiet
    ctxState := mine.ctxState.take 4 ++ List.replicate 4 0
    tables := mine.tables.take 16 ++ lost.tables.take 16
    tallies := lost.tallies.foldl (fun m t => setNat (t.1 + shift) t.2 m) mine.tallies
    credits := mine.credits.take 24 ++ lost.credits.take 24, creditStart := mine.creditStart.take 24 ++ lost.creditStart.take 24
    tokens := mine.tokens.take 20 ++ lost.tokens.take 20
    dma := { mine.dma with slots := mine.dma.slots.take 32 ++ lost.dma.slots.take 32 } }

/-- The step-start record of an adopter with that of the lost slot's core. -/
def CoreSnap.adopts (mine lost : CoreSnap) (shift : Nat) : CoreSnap :=
  { mine with
    heads := mine.heads.take 20 ++ lost.heads.take 20, ended := mine.ended.take 20 ++ lost.ended.take 20
    tallies := lost.tallies.foldl (fun m t => setNat (t.1 + shift) t.2 m) mine.tallies
    credits := mine.credits.take 24 ++ lost.credits.take 24, slots := mine.slots.take 32 ++ lost.slots.take 32
    feeders := List.zipWith (· ++ ·) mine.feeders lost.feeders, accepted := (mine.accepted.1, lost.accepted.1) }

/-- The step-start records after an adoption. -/
def adoptSnaps (snaps : List CoreSnap) (lost adopter shift : Nat) : List CoreSnap :=
  (snaps.filter fun n => n.bench != lost).map fun n =>
    if n.bench = adopter then (match snaps.find? fun m => m.bench = lost && m.core = n.core with
      | some m => n.adopts m shift
      | none => n)
    else n

/-- Pages of a slot that an adopter loads (R600). -/
def shrinkPages : List Nat := List.range 512 ++ (List.range 384).map (· + 1024)

/-- An adopter's ring port has the ring-in buffers of the lost slot beside its own (R599, R126). -/
def RingPort.adopts (mine lost : RingPort) : RingPort :=
  { mine with buffers := mine.buffers ++ (lost.buffers.filter fun x => !x.1).map fun x => (true, x.2)
              arrivals := mine.arrivals.map fun a => (a.1, 0, 0) }

/-- A bypass is in force (R156, R598 to R600). -/
def State.closeBypass (s : State) (p lost : Nat) : State :=
  let k := s.ownSlot p lost
  match s.adopterOf p (s.part p).adopted k with
  | none => s.abortAndDrop p 0x6B
  | some a =>
    let adopter := s.seatBench ((s.slotSeatsOf p).getD a 0xF)
    let shift := 64 * ((s.part p).tallyBlocks / 2)
    let old := s.bench lost
    let s := s.modBench adopter fun x =>
      { x with cores := List.zipWith (fun c d => c.adopts d shift) x.cores old.cores, port := x.port.adopts old.port }
    let s := s.modBench lost fun x => { x.quiet with state := .bypassed }
    let s := s.modPart p fun x =>
      { x with adopted := x.adopted ++ [(k, a)], circle := x.circle.filter fun b => b != lost
               task := x.task.map fun t => { t with snaps := adoptSnaps t.snaps lost adopter shift } }
    ((s.emptyRing p).ringEvent 2).beginLoad p k shrinkPages 1

/-- One change is in force. -/
def State.closeChange (s : State) (r : SpliceReq) : State := match r.change with
  | .create => s.closeCreate r.part r.id
  | .resize first count released => s.closeResize r.part first count released r.id
  | .takeover lost => s.closeTakeover r.part lost
  | .bypass lost => s.closeBypass r.part lost
  | .destroy _ => s

/-- SPLICE_WINDOW_CLOSE: at cc 0 of beat g + 64 (R153); the cycle does not pass without it (log entry 35). -/
def spliceWindowCloseEffect (s : State) : State :=
  match s.ring.window with
  | none => s
  | some w =>
    if s.beat.periods < w.closeAt then s
    else
      let s := s.modRing fun r => { r with window := none, lastSplice := s.beat.count }
      let s := (w.reqs.foldl State.closeChange s).ringEvent 0
      s.modRing fun r => { r with switches := s.switchesNow }
def execSpliceWindowClose (s : State) : Host.Outcome State Fault Refusal := done s spliceWindowCloseEffect

/-! ## Self-tests of a bench, and rejoin (R164 to R166, R728, R729) -/

/-- A test begins: a BCH reset, then 50,000 beats in state TESTING. -/
def State.beginTest (s : State) (b : Nat) (why : TestWhy) : State :=
  let now := s.beat.periods
  s.modBench b fun x =>
    { x.resetAll with state := .testing, test := some { why := why, former := x.state, endAt := now + 50000 }
                      power := 0, powerMove := none, testDeferred := false }

/-- A test ends with a zero-fill: its result, and the bench in a state. -/
def State.endTest (s : State) (b : Nat) (pass : Bool) (st : BState) : State :=
  s.modBench b fun x => { x.zeroFill with state := st, test := none, testPass := pass }

/-- A unit is latched as disagreeing (R635). -/
def State.latched (s : State) (bit : Nat) : Bool := s.glb.disLatch.getLsbD bit

/-- A bench state's code (R137). -/
def BState.code : BState → Nat
  | .unassigned => 0
  | .spare => 1
  | .active => 2
  | .bypassed => 3
  | .fenced => 4
  | .testing => 5

/-- RING_REJOIN (R164, R635). -/
def ringRejoinEffect (f : Nat) (s : State) : State := s.admitPkt f 0x09 fun id _ x s =>
  let b := x.u 0x20 1
  if s.nSeats ≤ b then s.refuse id 0xFF stSHAPE 0x52
  else if s.latched b then s.refuse id 0xFF stDISAGREE 0
  else if s.claims b then s.refuse id 0xFF stDEFERRED 0
  else if (s.bench b).state != .fenced then s.refuse id 0xFF stSHAPE 0x52
  else s.beginTest b (.rejoin id)
def execRingRejoin (f : Nat) (s : State) : Host.Outcome State Fault Refusal := done s (ringRejoinEffect f)

/-- REJOIN_DONE: the bench is SPARE, UNASSIGNED or still FENCED (R165, R166). -/
def rejoinDoneEffect (b : Nat) (pass : Bool) (s : State) : State :=
  match (s.bench b).test with
  | some { why := .rejoin id, former := _, endAt := e } =>
    if s.beat.periods < e then s
    else
      let good := pass && (s.bench b).state = .testing
      let spare := good && s.ring.spareLive = 0xF
      let st : BState := if !good then .fenced else if spare then .spare else .unassigned
      let s := (s.endTest b pass st).ringEvent 3
      let s := if spare then (s.modRing fun r => { r with spareLive := b }).glueSpare b else s
      s.finish id 0xFF stOK 0 st.code
  | _ => s
def execRejoinDone (b : Nat) (pass : Bool) (s : State) : Host.Outcome State Fault Refusal := done s (rejoinDoneEffect b pass)

end Sys2Proof.Machine
end

