-- ==== Sys2Proof/Machine/Media.lean ====
section
/-! DEFINITION. The ledger's pages as bytes (12_nderil_ledger.md R505 to R515): slots, sector headers, the BCH parity, P and Q pages, and
the member of each page; and how a slot reads from raw bits (R521 to R525): the search for the sync mark, the decoder, and the checks. -/

namespace Sys2Proof.Machine

/-! ## BCH over GF(2^16) (R508) -/

/-- Doubling in GF(2^16) with x^16 + x^12 + x^3 + x + 1. -/
def gf16Double (a : Nat) : Nat := if 32768 ≤ a then (2 * a) ^^^ 0x1100B else 2 * a

/-- Product in GF(2^16). -/
def gf16Mul (a b : Nat) : Nat :=
  ((List.range 16).foldl (fun (acc : Nat × Nat) i => (if bitOf b i then acc.1 ^^^ acc.2 else acc.1, gf16Double acc.2)) (0, a)).1

/-- α^n. -/
def gf16Pow (n : Nat) : Nat := Nat.repeat gf16Double n 1

/-- A polynomial over GF(2^16), constant term first, times (x + r). -/
def gf16Linear (p : List Nat) (r : Nat) : List Nat :=
  List.zipWith (· ^^^ ·) (p.map (gf16Mul r) ++ [0]) (0 :: p)

/-- The minimal polynomial of α^i: the product over its conjugates. -/
def gf16Minimal (i : Nat) : List Nat :=
  (List.range 16).foldl (fun p k => gf16Linear p (gf16Pow (i * 2 ^ k % 65535))) [1]

/-- Product of polynomials over GF(2) held as numbers. -/
def binMul (a b : Nat) (n : Nat) : Nat :=
  (List.range n).foldl (fun acc i => if bitOf b i then acc ^^^ (a * 2 ^ i) else acc) 0

/-- A polynomial with coefficients 0 and 1 as a number. -/
def binPoly (p : List Nat) : Nat := (p.zipIdx.map fun x => x.1 * 2 ^ x.2).sum

/-- The generator, of degree 640: the minimal polynomials of α, α^3, …, α^79. -/
def bchGenerator : Nat := (List.range 40).foldl (fun g k => binMul g (binPoly (gf16Minimal (2 * k + 1))) 17) 1

/-- One bit enters the remainder register. -/
def bchBit (r : Nat) (bit : Bool) : Nat :=
  let r' := 2 * r % 2 ^ 640
  if bitOf r 639 != bit then r' ^^^ (bchGenerator % 2 ^ 640) else r'

/-- The 80 parity bytes of a byte string, bits most significant first. -/
def bchParity (bs : Bytes) : Bytes :=
  (leBytes 80 (bs.foldl (fun r b => (List.range 8).foldl (fun r i => bchBit r (b.getLsbD (7 - i))) r) 0)).reverse

/-! ## Slots (R506, R507, R509) -/

/-- Payload of a sector. -/
def Sector.payload (x : Sector) : Bytes := x.entries.flatten

/-- The sector header: LSN, STRIPE, KIND, FLAGS, PAYLOAD_LEN, AUX, HEADER_CRC. -/
def sectorHeader (lsn stripe kind flags len aux : Nat) : Bytes :=
  let h := leBytes 8 lsn ++ leBytes 4 stripe ++ leBytes 1 kind ++ leBytes 1 flags ++ leBytes 2 len ++ leBytes 4 aux
  h ++ leBytes 4 (crc32c h).toNat

/-- A data slot of 4,148 bytes. -/
def dataSlot (header payload : Bytes) : Bytes :=
  let body := header ++ payload ++ leBytes 4 (crc32c (header ++ payload)).toNat ++ List.replicate (4032 - payload.length) 0
  (leBytes 8 0xA5C396E15A3C691E).reverse ++ body ++ bchParity body

/-- AUX of a sector. -/
def Stripe.auxOf (x : Stripe) : Nat := x.aux.getD 0xFFFFFFFF

/-- The slot of sector k of a stripe (R515). -/
def Stripe.slotBytes (x : Stripe) (k : Nat) : Bytes :=
  let y := x.sectors.getD k {}
  dataSlot (sectorHeader (32 * x.num + k) x.num y.kind (natOfBool y.lost + 2 * natOfBool y.reloc) y.payload.length x.auxOf) y.payload

/-! ## Parity (R514) -/

/-- Doubling in GF(2^8) with x^8 + x^4 + x^3 + x^2 + 1. -/
def gf8Double (b : Byte) : Byte := if b.getLsbD 7 then (b <<< 1) ^^^ 0x1D#8 else b <<< 1

/-- The xor of byte strings. -/
def xorBytes (a b : Bytes) : Bytes := List.zipWith (· ^^^ ·) a b

/-- P and Q of a slot position from its eight data slots: bytes 0 to 4,067, then their ECC. -/
def paritySlot (q : Bool) (ds : List Bytes) : Bytes :=
  let zero : Bytes := List.replicate 4068 0
  let b := ds.foldr (fun d acc => xorBytes (d.take 4068) (if q then acc.map gf8Double else acc)) zero
  b ++ bchParity (b.drop 8)

/-! ## Pages (R505, R513) -/

/-- Member of the P page, the Q page and data page d of a stripe. -/
def memberP (n : Nat) : Nat := n % 10
def memberQ (n : Nat) : Nat := (n + 1) % 10
def memberD (n d : Nat) : Nat := (n + 2 + d) % 10

/-- Slot j of a stripe on a member. A LOST_FILL slot is a PAD sector, on a parity member with the LSN of pages 8 and 9 (R535; DESIGN
CHOICE, log entry 24). -/
def Stripe.memberSlot (x : Stripe) (m j : Nat) : Bytes :=
  if x.fills.contains (m, j) then
    dataSlot (sectorHeader (32 * x.num + 4 * ((m + 18 - x.num % 10) % 10) + j) x.num 0 1 0 x.auxOf) []
  else if m = memberP x.num then paritySlot false ((List.range 8).map fun d => x.slotBytes (4 * d + j))
  else if m = memberQ x.num then paritySlot true ((List.range 8).map fun d => x.slotBytes (4 * d + j))
  else x.slotBytes (4 * ((m + 18 - x.num % 10) % 10) + j)

/-- The page of a stripe on a member. -/
def Stripe.page_ (x : Stripe) (m pageBytes : Nat) : Bytes :=
  (List.range 4).flatMap (x.memberSlot m) ++ List.replicate (pageBytes - 16592) 0xFF#8

/-! ## The BCH decoder (R508) -/

/-- The inverse in GF(2^16): the product of the powers 2 to 2^15. -/
def gf16Inv (a : Nat) : Nat :=
  ((List.range 15).foldl (fun (acc : Nat × Nat) _ =>
    let sq := gf16Mul acc.2 acc.2
    (gf16Mul acc.1 sq, sq)) (1, a)).1

/-- The value of a polynomial over GF(2^16), constant term first. -/
def gf16Eval (p : List Nat) (x : Nat) : Nat := p.foldr (fun c v => gf16Mul v x ^^^ c) 0

/-- The value at α^k of the polynomial over GF(2) whose 640 coefficients are the bits of r. -/
def bchSyndrome (r k : Nat) : Nat :=
  let a := gf16Pow k
  (List.range 640).foldl (fun v i => gf16Mul v a ^^^ natOfBool (bitOf r (639 - i))) 0

/-- The sum of two polynomials. -/
def gf16Add : List Nat → List Nat → List Nat
  | [], q => q
  | p, [] => p
  | a :: p, b :: q => (a ^^^ b) :: gf16Add p q

/-- The error locator as it is built, syndrome by syndrome: the locator and its length, the one before its last change of length with
that step's discrepancy, and the steps since. -/
structure Locator where
  sigma : List Nat := [1]
  len   : Nat := 0
  prev  : List Nat := [1]
  disc  : Nat := 1
  gap   : Nat := 1
  deriving DecidableEq, Repr

/-- The locator after syndrome number n, counted from 0. -/
def Locator.step (syn : List Nat) (x : Locator) (n : Nat) : Locator :=
  let d := (List.range (x.len + 1)).foldl (fun v i => v ^^^ gf16Mul (x.sigma.getD i 0) (syn.getD (n - i) 0)) 0
  let moved := List.replicate x.gap 0 ++ x.prev.map (gf16Mul (gf16Mul d (gf16Inv x.disc)))
  if d = 0 then { x with gap := x.gap + 1 }
  else if 2 * x.len ≤ n then { sigma := gf16Add x.sigma moved, len := n + 1 - x.len, prev := x.sigma, disc := d, gap := 1 }
  else { x with sigma := gf16Add x.sigma moved, gap := x.gap + 1 }

/-- Bits of a word: 4,060 bytes and their 80 parity bytes. -/
def eccBits : Nat := 33120

/-- The powers of x at which a locator puts errors. -/
def Locator.places (x : Locator) : List Nat :=
  ((List.range eccBits).foldl (fun (acc : List Nat × Nat) i =>
    (if gf16Eval x.sigma acc.2 = 0 then i :: acc.1 else acc.1, gf16Mul acc.2 (gf16Inv 2))) ([], 1)).1

/-- The word next to 4,140 bytes, with the bits corrected, where at most 40 are. -/
def eccDecode (bs : Bytes) : Option (Bytes × Nat) :=
  let r := beNat (xorBytes (bchParity (bs.take 4060)) (bs.drop 4060))
  if r = 0 then some (bs.take 4060, 0)
  else
    let x := (List.range 80).foldl (Locator.step ((List.range 80).map fun k => bchSyndrome r (k + 1))) {}
    let at_ := x.places
    if 40 < x.len || at_.length != x.len then none
    else some ((beBytes 4140 (at_.foldl (fun w i => w ^^^ 2 ^ i) (beNat bs))).take 4060, x.len)

/-! ## Reading a slot (R521 to R524) -/

/-- Bits of a page's four slots; what lies beyond them is ignored (R505). -/
def rawBits : Nat := 132736
/-- The raw bits of a page, first bit highest, with 1,024 zero bits behind them. -/
def rawOf (bs : Bytes) : Nat := beNat (Bytes.sub bs 0 16592) * 2 ^ 1024
/-- n bits of the raw page from a bit position on. -/
def rawAt (raw pos n : Nat) : Nat := raw / 2 ^ (rawBits + 1024 - pos - n) % 2 ^ n

/-- Bits of 64 that differ. -/
def differing64 (a b : Nat) : Nat := ((List.range 64).filter (bitOf (a ^^^ b))).length

/-- The checks of an accepted candidate beyond its ECC (R522). -/
def bodyOk (body : Bytes) (lsn stripe : Nat) : Bool :=
  let n := 24 + Bytes.nat body 0xE 2
  (crc32c (body.take 0x14)).toNat = Bytes.nat body 0x14 4 && Bytes.nat body 0 8 = lsn && Bytes.nat body 8 4 = stripe &&
    decide (n ≤ 4056) && (crc32c (body.take n)).toNat = Bytes.nat body n 4

/-- What the candidate at a bit position yields: header, payload and CRC, with the bits corrected. -/
def candidateAt (raw pos lsn stripe : Nat) : Option (Bytes × Nat) :=
  if differing64 (rawAt raw pos 64) 0xA5C396E15A3C691E ≤ 2 then
    match eccDecode (beBytes 4140 (rawAt raw (pos + 64) eccBits)) with
    | some x => if bodyOk x.1 lsn stripe then some x else none
    | none => none
  else none

/-- The first accepted candidate within w bits of a slot's start, in ascending position order (R521, R522). -/
def searchSlot (raw j w lsn stripe : Nat) : Option (Bytes × Nat) :=
  (List.range (2 * w + 1)).findSome? fun i =>
    let pos := 33184 * j + i
    if pos < w || rawBits < pos - w then none else candidateAt raw (pos - w) lsn stripe

/-- How a slot reads: its body, unless it is an erasure, the corrected bits, and the widened rereads. -/
structure SlotSeen where
  body      : Option Bytes
  corrected : Nat := 0
  rereads   : Nat := 0
  deriving DecidableEq, Repr

/-- Header, payload and CRC of data sector k as they were programmed. -/
def Stripe.bodyOf (x : Stripe) (k : Nat) : Bytes := ((x.slotBytes k).drop 8).take 4060

/-- Slot j of a stripe is read on a member (R521 to R524). Where the first read yields nothing, both rereads are made, and the first
candidate that they show counts (DEDUCED, log entry 64). -/
def Stripe.readSlot (x : Stripe) (pages : List PageRead) (m j : Nat) : SlotSeen :=
  let k := 4 * ((m + 18 - x.num % 10) % 10) + j
  let parity := m = memberP x.num || m = memberQ x.num
  match pages.find? fun r => r.member = m && r.row = x.row && r.page = x.page with
  | none => { body := some (if parity then ((x.memberSlot m j).drop 8).take 4060 else x.bodyOf k) }
  | some r =>
    let raw (n : Nat) : Nat := rawOf (match r.reads[n]? with
      | some bs => bs
      | none => x.page_ m 16592)
    if parity then
      match eccDecode (beBytes 4140 (rawAt (raw 0) (33184 * j + 64) eccBits)) with
      | some y => { body := some y.1, corrected := y.2 }
      | none => { body := none }
    else match searchSlot (raw 0) j 64 (32 * x.num + k) x.num with
      | some y => { body := some y.1, corrected := y.2 }
      | none =>
        let y := (searchSlot (raw 1) j 512 (32 * x.num + k) x.num).or (searchSlot (raw 2) j 512 (32 * x.num + k) x.num)
        { body := y.map (·.1), corrected := (y.map (·.2)).getD 0, rereads := 2 }

/-- The sector that a body holds (R507, R509). -/
def sectorOf (body : Bytes) : Sector :=
  let n := Bytes.nat body 0xE 2
  let payload := Bytes.sub body 24 n
  let kind := Bytes.nat body 0xC 1
  { kind := kind, lost := bitOf (Bytes.nat body 0xD 1) 0, reloc := bitOf (Bytes.nat body 0xD 1) 1
    entries := if kind = 1 then (List.range (n / 256)).map fun i => Bytes.sub payload (256 * i) 256 else if n = 0 then [] else [payload] }

end Sys2Proof.Machine
end

