-- ==== Sys2Proof/Machine/Ledger.lean ====
section
/-! DEFINITION. The ledger's media work (12_nderil_ledger.md R489, R504, R510 to R551): stripe programs and anchor copies, erases, member
failures, scrub and relocation, rebuild, mounting, and the LDG packets. -/

namespace Sys2Proof.Machine

/-! ## States and events (R530, R532, R536) -/

/-- A member takes programs: ONLINE, or REBUILDING (R534). -/
def Ledger.takes (l : Ledger) (m : Nat) : Bool :=
  l.members.getD m .absent = .online || l.members.getD m .absent = .rebuilding

/-- A completion that waits for a staged entry of an audit-mode partition is posted without it (R610), LEDGER_SEALED in its place of R676. -/
def Compl.unheld (stage : List StageEnt) (c : Compl) : Compl := match c.cond with
  | .durable stream seq =>
    if stage.any fun e => e.audit && e.stream = stream && e.seq = seq then
      { c with cond := .ready, status := if c.status = 0 || c.status = 0x12 || c.status = 0x13 then stSEALED else c.status }
    else c
  | _ => c

/-- Every completion of a staged audit-mode entry is posted (R610). -/
def State.postHeld (s : State) : State := { s with fns := s.fns.map fun a => { a with compl := a.compl.map (Compl.unheld s.ldg.stage) } }

/-- After a change of the ledger: SEALED_DEGRADED is entered, SEALED and FULL are raised on entry, and what waits for audit-mode entries is
posted. -/
def State.ldgSettle (before : State) (s : State) : State :=
  let s := if s.ldg.mounted && s.ldg.anchor.isSome && s.ldg.mustSeal && !s.ldg.sealed then
    (s.modLdg fun l => { l with sealed := true }).ldgEvent 3 else s
  let s := if s.ldg.mounted && s.ldg.status = 4 && !(before.ldg.mounted && before.ldg.status = 4) then s.ldgEvent 4 else s
  if s.ldg.mounted && (s.ldg.status = 3 || s.ldg.status = 4) && s.ldg.status != before.ldg.status then s.postHeld else s

/-- A member changes state, and the anchor is due. -/
def State.setMember (s : State) (m : Nat) (st : MState) : State :=
  s.modLdg fun l => { l with members := l.members.set m st, anchorDue := true }

/-- A stripe enters the loss map (R535). -/
def State.loseStripe (s : State) (n : Nat) : State :=
  (s.modLdg fun l => { l with lossMap := insertSorted n l.lossMap, lossCount := satAdd32 l.lossCount 1, anchorDue := true }).ldgEvent 2

/-- The stripe belongs to the log: no later stripe's AUX names it (R527). -/
def Ledger.inLog (l : Ledger) (x : Stripe) : Bool := !(l.stripes.any fun y => y.aux = some x.num)
/-- The log, in stripe order. -/
def Ledger.log (l : Ledger) : List Stripe := l.stripes.filter l.inLog
/-- The entries of a stripe. -/
def Stripe.entries (x : Stripe) : List Bytes := x.sectors.flatMap fun y => if y.kind = 1 && !y.lost then y.entries else []

/-! ## Rows (R511, R512, R543, R544) -/

/-- Released SEQ of a stream. -/
def Ledger.releasedOf (l : Ledger) (stream : Nat) : Nat :=
  ((l.dir.find? fun d => d.1 = stream).map fun d => d.2.2.2.toNat).getD 0

/-- Every entry of the stripe is released, or the stripe is not of the log. -/
def Ledger.freeable (l : Ledger) (x : Stripe) : Bool :=
  !l.inLog x || x.entries.all fun e => decide (Bytes.nat e 8 8 ≤ l.releasedOf (Bytes.nat e 4 4))

/-- The oldest row may be reclaimed (R543). -/
def State.reclaimable (s : State) : Option Nat :=
  let l := s.ldg
  match l.rows.foldl (fun best r => match best with
      | none => some r
      | some b => if r.2.1 < b.2.1 then some r else some b) none with
  | none => none
  | some r =>
    if l.freeRows.length ≤ 3 && l.curRow != some r.1 && (l.stripes.filter fun x => x.row = r.1).all l.freeable &&
        decide (s.glue.value 2 * 864000000000 ≤ (l.age - r.2.2).toNat) then some r.1 else none

/-- The row that a new stripe opens; the reserve is for relocations, and for rewrites when no other row is free. -/
def Ledger.rowToOpen (l : Ledger) (reserve : Bool) : Option Nat :=
  if 2 < l.freeRows.length || reserve then l.freeRows.head? else none

/-! ## Stripe programs (R510, R512, R513, R516 to R519) -/

/-- Up to n lists of at most k elements. -/
def groups {α : Type} (k : Nat) : Nat → List α → List (List α)
  | 0, _ => []
  | n + 1, xs => if xs.isEmpty then [] else xs.take k :: groups k n (xs.drop k)

/-- The 32 data sectors of a stripe that holds entries: 15 to a sector, then PAD. -/
def entrySectors (es : List Bytes) : List Sector :=
  let xs : List Sector := (groups 15 32 es).map fun g => { kind := 1, entries := g }
  xs ++ List.replicate (32 - xs.length) ({} : Sector)

/-- Data members of a stripe that take programs, and its parity members. -/
def Ledger.dataMembers (l : Ledger) (n : Nat) : List Nat := ((List.range 8).map (memberD n)).filter l.takes
def Ledger.parityMembers (l : Ledger) (n : Nat) : List Nat := [memberP n, memberQ n].filter l.takes

/-- Pages of a stripe go to their members. -/
def State.programPages (s : State) (x : Stripe) (ms : List Nat) : State :=
  ms.foldl (fun s m => s.emit (.nandProgram m x.row x.page (x.page_ m s.ldg.geometry.pageBytes))) s

/-- The pages of a stripe that are issued at once, and those that follow one by one: the data pages, then the parity pages. Where no parity
member takes programs, the highest data page is the final one and follows the others (R517, R518; DEDUCED, log entry 24). -/
def Ledger.order (l : Ledger) (n : Nat) : List Nat × List Nat :=
  let ds := l.dataMembers n
  let all := ds ++ l.parityMembers n
  let now := max 1 (if (l.parityMembers n).isEmpty then ds.length - 1 else ds.length)
  (all.take now, all.drop now)

/-- A stripe program begins: the first pages are issued. -/
def State.beginProgram (s : State) (g : StripeProg) : State :=
  let y := s.ldg.order g.stripe.num
  (s.programPages g.stripe y.1).modLdg fun l => { l with prog := some { g with issued := y.1, rest := y.2, since := s.beat.periods } }

/-- A new stripe takes the next free page, opening a row where needed. -/
def State.newStripe (s : State) (sectors : List Sector) (aux : Option Nat) (reserve : Bool) : Option (State × Stripe) :=
  let l := s.ldg
  let x (row page : Nat) : Stripe := { num := l.nextStripe, row := row, page := page, aux := aux, sectors := sectors }
  if l.rowOpen then
    (l.curRow.map fun r => (s.modLdg fun l => { l with curPage := l.curPage + 1, nextStripe := l.nextStripe + 1 }, x r l.curPage))
  else (l.rowToOpen reserve).map fun r =>
    (s.modLdg fun l => { l with curRow := some r, curPage := 1, nextStripe := l.nextStripe + 1
                                rows := l.rows ++ [(r, l.nextStripe, l.age)] }, x r 0)

/-- Staged entries that a stripe may take. -/
def Ledger.staged (l : Ledger) : List StageEnt := (l.stage.filter fun e => e.inStripe.isNone).take 480

/-- A stripe of staged entries begins. -/
def State.stageStripe (s : State) : State :=
  let es := s.ldg.staged
  if es.isEmpty then s
  else match s.newStripe (entrySectors (es.map (·.bytes))) s.ldg.abandoned s.ldg.abandoned.isSome with
    | none => s
    | some (s, x) =>
      (s.modLdg fun l => { l with abandoned := none, stage := l.stage.map fun e =>
        { e with inStripe := if es.any (fun y => y.stream = e.stream && y.seq = e.seq) then some x.num else e.inStripe } }).beginProgram
          { stripe := x }

/-- What is relocated of the sectors that read: those that hold entries (R540). -/
def relocated (ys : List Sector) : List Sector :=
  let xs := (ys.filter fun y => y.kind = 1 && !y.lost).map fun y => { y with reloc := true }
  xs ++ List.replicate (32 - xs.length) ({} : Sector)

/-- A relocation begins (R540, R544). -/
def State.relocate (s : State) (n : Nat) (ys : List Sector) : State :=
  let s := s.modLdg fun l => { l with toRelocate := l.toRelocate.drop 1 }
  match s.ldg.log.find? fun x => x.num = n with
  | none => s
  | some _ => match s.newStripe (relocated ys) (some n) true with
    | none => s
    | some (s, y) => s.beginProgram { stripe := y, moves := some n }

/-! ## The anchor (R526, R530, R531) -/

/-- The anchor as it would be written now. -/
def State.anchorNow (s : State) (gen : Nat) : Anchor :=
  let l := s.ldg
  { gen := gen, nextStream := l.nextStream, streams := l.dir, lossMap := l.lossMap, tailHint := l.tail, age := l.age
    retainDays := s.glue.value 2, rows := l.rows, retired := l.retired, geometry := l.geometry }

/-- The anchor row that does not hold the newest copy. -/
def Ledger.anchorRow (l : Ledger) : Nat := match l.anchors with
  | [some a, some b] => if a.gen < b.gen then 0 else 1
  | [some _, none] => 1
  | _ => 0

/-- Sectors of one kind of an anchor copy that hold a number of bytes, the first of them with number k (R509). -/
def anchorPart (gen kind k bytes : Nat) : List Sector :=
  (List.range ((bytes + 4031) / 4032)).map fun i =>
    { kind := kind, entries := [Bytes.sub (Config.anchorPayload gen (k + i)) 0 (min 4032 (bytes - 4032 * i))] }

/-- Sectors of an anchor copy: ANCHOR, then LOSS_MAP. Their number follows from what is recorded: 64 bytes, 16 for each row, 4 for each
retired row and each lost stripe, 24 for each stream (DESIGN CHOICE, log entry 24). -/
def Anchor.sectors (a : Anchor) : List Sector :=
  let xs := anchorPart a.gen 2 0 (64 + 16 * a.rows.length + 4 * a.retired.length + 24 * a.streams.length)
  xs ++ anchorPart a.gen 3 xs.length (4 * a.lossMap.length)

/-- The whole stripes of row 0 or 1 that an anchor copy occupies, from its page on (R531). -/
def Anchor.stripes (a : Anchor) (row : Nat) : List Stripe :=
  let xs := a.sectors
  (groups 32 xs.length xs).zipIdx.map fun y =>
    { num := a.page + y.2, row := row, page := a.page + y.2, aux := some a.gen
      sectors := y.1 ++ List.replicate (32 - y.1.length) ({} : Sector) }

/-- An erase begins on every member that takes programs. -/
def State.beginErase (s : State) (why : EraseWhy) (ms : List Nat) : State :=
  (ms.foldl (fun s m => s.emit (.nandErase m)) s).modLdg fun l => { l with erase := some { why := why, members := ms, since := s.beat.periods } }

/-- An anchor copy begins, or the erase before it where the row has too few free pages (R531). -/
def State.beginAnchor (s : State) (id : Option PktId) : State :=
  let l := s.ldg
  let row := l.anchorRow
  let page := l.anchorPages.getD row 0
  let a := { s.anchorNow ((l.anchor.map (·.gen)).getD 0 + 1) with page := page }
  match a.stripes row with
  | [] => s
  | x :: more =>
    if page != 0 && decide (l.geometry.pages < page + more.length + 1) then
      s.beginErase (.anchorRow row) ((List.range 10).filter l.takes)
    else
      (s.modLdg fun l =>
        { l with anchorDue := false, anchorPages := l.anchorPages.modify row (· + (more.length + 1)) }).beginProgram
        { stripe := x, anchor := some row, id := id, more := more, copy := some a }

/-! ## STRIPE_START -/

/-- With no program or erase in progress: a due anchor copy, a relocation, a reclaim, or a stripe of staged entries begins. -/
def State.mediaStart (s : State) : State :=
  let l := s.ldg
  let free := l.prog.isNone && l.erase.isNone
  if !l.mounted || !free || l.anchor.isNone then s
  else if l.anchorDue then s.beginAnchor none
  else if l.status = 3 then s
  else match l.toRelocate with
    | x :: _ => s.relocate x.1 x.2
    | [] => match s.reclaimable with
      | some r => s.beginErase (.reclaim r) ((List.range 10).filter l.takes)
      | none => if l.appends || l.abandoned.isSome then s.stageStripe else s

/-- STRIPE_START (R516). -/
def stripeStartEffect (s : State) : State := State.ldgSettle s s.mediaStart
def execStripeStart (s : State) : Host.Outcome State Fault Refusal := done s stripeStartEffect

/-! ## Page programs -/

/-- Entries of a complete stripe are durable (R495). -/
def State.makeDurable (s : State) (n : Nat) : State :=
  let es := s.ldg.stage.filter fun e => e.inStripe = some n
  let s := s.modLdg fun l => { l with stage := l.stage.filter fun e => e.inStripe != some n }
  es.foldl (fun s e => { s with parts := s.parts.map fun x =>
    if x.stream.id = e.stream then { x with stream := { x.stream with durable := BitVec.ofNat 64 (max x.stream.durable.toNat e.seq) } } else x }) s

/-- A stripe is complete: it joins the log, or the anchor copy goes on and, after its last stripe, is in force. -/
def State.completeStripe (s : State) (g : StripeProg) : State :=
  let s := s.modLdg fun l => { l with prog := none }
  match g.anchor with
  | some row => match g.more with
    | x :: more => s.beginProgram { g with stripe := x, more := more }
    | [] =>
      let s := s.modLdg fun l => { l with anchors := l.anchors.set row g.copy }
      match g.id with
      | some id => s.finish id 0xFF stOK 0 s.ldg.freeRows.length
      | none => s
  | none => (s.modLdg fun l => { l with
      stripes := l.stripes ++ [g.stripe], tail := g.stripe.num
      relocates := if g.moves.isSome then satAdd32 l.relocates 1 else l.relocates }).makeDurable g.stripe.num

/-- The program goes on: the next parity page, or the end (R517, R518). -/
def State.continueProgram (s : State) (g : StripeProg) : State :=
  if !g.issued.isEmpty then s.modLdg fun l => { l with prog := some g }
  else match g.rest with
    | m :: r => (s.programPages g.stripe [m]).modLdg fun l => { l with prog := some { g with issued := [m], rest := r, since := s.beat.periods } }
    | [] => s.completeStripe g

/-- The stripe is abandoned, its row retired, and its entries wait for a new stripe that names it (R519). A relocation is made again, and
its new stripe names the old one (R540). -/
def State.abandonStripe (s : State) (g : StripeProg) : State :=
  (s.modLdg fun l => { l with
    prog := none, retired := insertSorted g.stripe.row l.retired, anchorDue := true
    abandoned := if g.moves.isSome then l.abandoned else some g.stripe.num
    stage := l.stage.map fun e => if e.inStripe = some g.stripe.num then { e with inStripe := none } else e
    toRelocate := l.toRelocate ++ g.moves.toList.map fun n => (n, g.stripe.sectors) }).ldgEvent 5

/-- A member becomes FAILED (R532): MEMBER_FAILED; what it was rebuilding stops. -/
def State.failMember (s : State) (m : Nat) : State :=
  ((s.setMember m .failed).modLdg fun l => { l with rebuild := match l.rebuild with
    | some r => if r.1 = m then none else some r
    | none => none }).ldgEvent 0

/-- A page of the running program fails on a member. -/
def State.pageFailed (s : State) (g : StripeProg) (m : Nat) (status : Bool) : State :=
  match g.anchor with
  | some _ =>
    let g := { g with issued := g.issued.erase m, rest := g.rest.erase m }
    (if s.ldg.takes m then s.failMember m else s).continueProgram g
  | none =>
    let s := s.abandonStripe g
    if !status then s
    else
      let s := s.modLdg fun l => { l with grownBad := l.grownBad.modify m (· + 1) }
      if 65 ≤ s.ldg.grownBad.getD m 0 then s.failMember m else s

/-- NAND_PROGRAM_DONE: a page program reports its status. -/
def nandProgramDoneEffect (m : Nat) (pass : Bool) (s : State) : State :=
  match s.ldg.prog with
  | none => s
  | some g =>
    if !g.issued.contains m then s
    else State.ldgSettle s (if pass then s.continueProgram { g with issued := g.issued.erase m } else s.pageFailed g m true)
def execNandProgramDone (m : Nat) (pass : Bool) (s : State) : Host.Outcome State Fault Refusal := done s (nandProgramDoneEffect m pass)

/-! ## Erases -/

/-- The log's head: its first stripe. -/
def Ledger.head (l : Ledger) : Nat := (l.log.head?.map (·.num)).getD 0

/-- An erase is done on every member. -/
def State.eraseDone (s : State) (j : EraseJob) : State :=
  let s := s.modLdg fun l => { l with erase := none }
  match j.why with
  | .anchorRow row => (s.modLdg fun l => { l with anchorPages := l.anchorPages.set row 0 }).beginAnchor none
  | .reclaim row => s.modLdg fun l =>
      let gone := (l.stripes.filter fun x => x.row = row).map (·.num)
      { l with stripes := l.stripes.filter (fun x => x.row != row), rows := l.rows.filter (fun r => r.1 != row)
               lossMap := l.lossMap.filter (fun n => !gone.contains n), anchorDue := true }
  | .format id => (s.modLdg fun l => { l with anchorPages := [0, 0] }).beginAnchor (some id)
  | .replace id =>
    let m := (j.members ++ ((List.range 10).filter fun i => s.ldg.members.getD i .absent = .rebuilding)).headD 0
    if s.ldg.members.getD m .absent != .rebuilding then s.finish id 0xFF stABORTED 0
    else if s.ldg.log.isEmpty then
      ((s.setMember m .online).ldgEvent 1).finish id 0xFF stOK 0
    else (s.modLdg fun l => { l with rebuild := some (m, l.head, l.tail) }).finish id 0xFF stOK 0

/-- An erase fails: in rows 0 and 1, or of a whole member, the member is FAILED; a failed reclaim retires the row (R531). -/
def State.eraseFailed (s : State) (why : EraseWhy) (m : Nat) : State := match why with
  | .reclaim row =>
    let s := s.modLdg fun l => { l with retired := insertSorted row l.retired, grownBad := l.grownBad.modify m (· + 1), anchorDue := true }
    if 65 ≤ s.ldg.grownBad.getD m 0 then s.failMember m else s
  | _ => s.failMember m

/-- NAND_ERASE_DONE. -/
def nandEraseDoneEffect (m : Nat) (pass : Bool) (s : State) : State :=
  match s.ldg.erase with
  | none => s
  | some j =>
    if !j.members.contains m then s
    else
      let s' := if pass then s else s.eraseFailed j.why m
      let j' := { j with members := j.members.erase m }
      State.ldgSettle s (if j'.members.isEmpty then s'.eraseDone j' else s'.modLdg fun l => { l with erase := some j' })
def execNandEraseDone (m : Nat) (pass : Bool) (s : State) : Host.Outcome State Fault Refusal := done s (nandEraseDoneEffect m pass)

/-! ## MEMBER_FAILED, timers -/

/-- MEMBER_FAILED: no ready status; what the member was doing has failed (R532). -/
def State.loseMember (s : State) (m : Nat) : State :=
  let s := s.failMember m
  let s := match s.ldg.prog with
    | some g => if g.issued.contains m then s.pageFailed g m false
        else s.modLdg fun l => { l with prog := some { g with rest := g.rest.erase m } }
    | none => s
  match s.ldg.erase with
  | some j =>
    if !j.members.contains m then s
    else
      let j' := { j with members := j.members.erase m }
      if j'.members.isEmpty then s.eraseDone j' else s.modLdg fun l => { l with erase := some j' }
  | none => s
/-- The member has an operation in work whose 65,536 beats have not passed (R532). -/
def State.memberWaits (s : State) (m : Nat) : Bool :=
  (s.ldg.prog.any fun g => g.issued.contains m && decide (s.beat.periods < g.since + 65536)) ||
    s.ldg.erase.any fun j => j.members.contains m && decide (s.beat.periods < j.since + 65536)
def memberFailedEffect (m : Nat) (s : State) : State :=
  if s.ldg.takes m && !s.memberWaits m then State.ldgSettle s (s.loseMember m) else s
def execMemberFailed (m : Nat) (s : State) : Host.Outcome State Fault Refusal := done s (memberFailedEffect m)

/-- SIGNATURE_TIMER (R489). -/
def signatureTimerEffect (p : Nat) (s : State) : State :=
  let x := (s.part p).stream
  if x.isOpen && x.bundleOpen && decide (x.bundleBeat + 16777216 ≤ s.beat.periods) && !s.discards p then s.stageSignature p else s
def execSignatureTimer (p : Nat) (s : State) : Host.Outcome State Fault Refusal := done s (signatureTimerEffect p)

/-- The newest anchor copy, one in work included. -/
def Ledger.newest (l : Ledger) : Option Anchor := match l.prog with
  | some g => g.copy.or l.anchor
  | none => l.anchor

/-- ANCHOR_TIMER: every 2^32 beats of LDG_AGE_BEATS the anchor is due (R530). -/
def anchorTimerEffect (s : State) : State := match s.ldg.newest with
  | some a => if s.ldg.mounted && s.ldg.age.toNat / 2 ^ 32 != a.age.toNat / 2 ^ 32 then s.modLdg fun l => { l with anchorDue := true } else s
  | none => s
def execAnchorTimer (s : State) : Host.Outcome State Fault Refusal := done s anchorTimerEffect

/-! ## Reads (R521 to R525, R539, R540) -/

/-- How slot j of a stripe reads on a member; nothing reads on one that is not ONLINE. -/
def Ledger.seen (l : Ledger) (x : Stripe) (pages : List PageRead) (m j : Nat) : SlotSeen :=
  if l.members.getD m .absent = .online then x.readSlot pages m j else { body := none }

/-- Erasures of a slot position of a stripe (R525). A LOST_FILL sector holds nothing to reconstruct from, and counts as one
(DEDUCED from the worked example of chapter 12, log entry 64). -/
def Ledger.erasuresAt (l : Ledger) (x : Stripe) (pages : List PageRead) (j : Nat) : Nat :=
  ((List.range 10).filter fun m => (l.seen x pages m j).body.isNone || x.fills.contains (m, j)).length

/-- Data sector k of a stripe as it reads: the one accepted, or the one reconstructed from P and Q where its slot position has at most two
erasures. What is reconstructed is what was programmed (DEDUCED, log entry 64). -/
def Ledger.readSector (l : Ledger) (x : Stripe) (pages : List PageRead) (k : Nat) : Option Sector :=
  match (l.seen x pages (memberD x.num (k / 4)) (k % 4)).body with
  | some b => some (sectorOf b)
  | none => if l.erasuresAt x pages (k % 4) ≤ 2 then some (x.sectors.getD k {}) else none

/-- The sectors of a stripe that read, in order. -/
def Ledger.readSectors (l : Ledger) (x : Stripe) (pages : List PageRead) : List Sector := (List.range 32).filterMap (l.readSector x pages)

/-- Every slot of the stripe on its ONLINE members as it reads, with its member. -/
def Ledger.seenAll (l : Ledger) (x : Stripe) (pages : List PageRead) : List (Nat × SlotSeen) :=
  ((List.range 10).filter fun m => l.members.getD m .absent = .online).flatMap fun m =>
    (List.range 4).map fun j => (m, x.readSlot pages m j)

/-- The stripe is to be relocated (R540). -/
def Ledger.mustRelocate (l : Ledger) (x : Stripe) (pages : List PageRead) : Bool :=
  x.lost || (l.seenAll x pages).any fun y => y.2.body.isNone || decide (24 < y.2.corrected)

/-- A stripe has been read: its widened rereads and erased data sectors are counted (R523), and a stripe of the log that needs it waits
for its relocation, with the sectors that read (R540). -/
def State.noteRead (s : State) (x : Stripe) (pages : List PageRead) : State :=
  s.modLdg fun l =>
    let seen := l.seenAll x pages
    let move := l.inLog x && l.mustRelocate x pages && !l.toRelocate.any fun y => y.1 = x.num
    { l with
      syncRetry := satAdd32 l.syncRetry (seen.map (·.2.rereads)).sum
      erasures := satAdd32 l.erasures (seen.filter fun y => y.2.body.isNone && y.1 != memberP x.num && y.1 != memberQ x.num).length
      toRelocate := if move then l.toRelocate ++ [(x.num, l.readSectors x pages)] else l.toRelocate }

/-- The next stripe of the log at or after a number; the head, after a wrap. -/
def Ledger.scrubStripe (l : Ledger) : Option (Stripe × Bool) :=
  match l.log.find? fun x => decide (l.scrubNext ≤ x.num) with
  | some x => some (x, false)
  | none => l.log.head?.map fun x => (x, true)

/-- SCRUB_READ: the due stripe is read. -/
def scrubReadEffect (pages : List PageRead) (s : State) : State :=
  let l := s.ldg
  if !l.mounted || l.scrubInterval = 0 || l.scrubDue = 0 || s.glb.asleep then s
  else match l.scrubStripe with
    | none => s
    | some (x, wrapped) =>
      let s := (s.noteRead x pages).modLdg fun l =>
        { l with scrubNext := x.num + 1, scrubDue := l.scrubDue - 1
                 scrubPass := if wrapped then satAdd32 l.scrubPass 1 else l.scrubPass }
      if s.ldg.prog.isNone && s.ldg.erase.isNone && s.ldg.status != 3 then State.ldgSettle s s.mediaStart else s
def execScrubRead (pages : List PageRead) (s : State) : Host.Outcome State Fault Refusal := done s (scrubReadEffect pages)

/-! ## Rebuild (R533 to R535) -/

/-- Slot positions of a stripe that cannot be reconstructed. -/
def Ledger.lostSlots (l : Ledger) (x : Stripe) (pages : List PageRead) : List Nat :=
  (List.range 4).filter fun j => decide (2 < l.erasuresAt x pages j)

/-- A stripe after its rebuild on member m: in lost positions the member's sector is LOST_FILL. -/
def Stripe.rebuilt (x : Stripe) (m : Nat) (lost : List Nat) : Stripe :=
  { x with lost := x.lost || !lost.isEmpty
           fills := (x.fills.filter fun y => y.1 != m) ++ lost.map fun j => (m, j)
           sectors := x.sectors.zipIdx.map fun y =>
             if lost.contains (y.2 % 4) && memberD x.num (y.2 / 4) = m then { y.1 with kind := 0, entries := [], lost := true } else y.1 }

/-- The rebuild ends when no stripe of its range is left. -/
def State.rebuildNext (s : State) (m next tail : Nat) : State :=
  if s.ldg.log.any fun x => decide (next ≤ x.num) && decide (x.num ≤ tail) then s.modLdg fun l => { l with rebuild := some (m, next, tail) }
  else ((s.setMember m .online).modLdg fun l => { l with rebuild := none, lastRebuild := next }).ldgEvent 1

/-- REBUILD_STRIPE: the next stripe of the rebuild. -/
def rebuildStripeEffect (pages : List PageRead) (s : State) : State :=
  match s.ldg.rebuild with
  | none => s
  | some (m, next, tail) => match s.ldg.log.find? fun x => decide (next ≤ x.num) with
    | none => State.ldgSettle s (s.rebuildNext m next tail)
    | some x =>
      if tail < x.num then State.ldgSettle s (s.rebuildNext m next tail)
      else
        let lost := s.ldg.lostSlots x pages
        let s' := s.noteRead x pages
        let s' := if lost.isEmpty then s' else s'.loseStripe x.num
        let s' := s'.modLdg fun l => { l with stripes := l.stripes.map fun y => if y.num = x.num then y.rebuilt m lost else y }
        let y := (s'.ldg.stripes.find? fun y => y.num = x.num).getD x
        State.ldgSettle s ((s'.programPages y [m]).rebuildNext m (x.num + 1) tail)
def execRebuildStripe (pages : List PageRead) (s : State) : Host.Outcome State Fault Refusal := done s (rebuildStripeEffect pages)

/-! ## Mounting (R526 to R528, R541) -/

/-- The stream directory after mounting: the anchor's, and the streams that only the stripes found or the kept stage show. -/
def Ledger.keepDir (l : Ledger) (streams : List (Nat × Nat × Bool × W64)) (found : List Stripe) : List (Nat × Nat × Bool × W64) :=
  let shown (n : Nat) : Bool := l.stage.any (fun e => e.stream = n) || found.any fun x => x.entries.any fun e => Bytes.nat e 4 4 = n
  streams ++ (l.dir.filter fun d => (!streams.any fun e => e.1 = d.1) && shown d.1).map fun d => (d.1, d.2.1, d.2.2.1, 0)

/-- The anchor copies whose sectors all read (R526). -/
def Ledger.readAnchors (l : Ledger) (pages : List PageRead) : List (Option Anchor) :=
  l.anchors.zipIdx.map fun y => y.1.bind fun a =>
    if (a.stripes y.2).all fun x => (List.range 32).all fun k => (l.readSector x pages k).isSome then some a else none

/-- The stripes that the scan finds: those up to the tail hint, and on from it to a stripe with no accepted sector (R527). -/
def Ledger.scanned (l : Ledger) (hint : Nat) (pages : List PageRead) : List Stripe :=
  l.stripes.filter (fun x => decide (x.num ≤ hint)) ++
    (l.stripes.filter fun x => decide (hint < x.num)).takeWhile fun x => (List.range 32).any fun k =>
      (l.seen x pages (memberD x.num (k / 4)) (k % 4)).body.isSome

/-- The ledger after mounting: what the anchor and the scan give. Rows beside the anchor's table are those that the scan shows. -/
def State.mount (s : State) : State :=
  let l := s.ldg
  let present := (List.range 10).map fun m =>
    if !s.start.present.getD m true then MState.absent else if l.members.getD m .online = .absent then .failed else l.members.getD m .online
  let changed := present != l.members
  let l : Ledger := { l with members := present }
  let l : Ledger := { l with anchors := l.readAnchors s.start.pages }
  let a : Option Anchor := l.anchor
  let torn := match l.prog with
    | some g => if g.anchor.isNone then some g.stripe.num else l.abandoned
    | none => l.abandoned
  let found := (a.map fun a => l.scanned a.tailHint s.start.pages).getD l.stripes
  let n : Ledger := { l with
    stripes := found, rows := if a.isSome then l.rows else [], retired := (a.map (·.retired)).getD []
    lossMap := (a.map (·.lossMap)).getD [], geometry := (a.map (·.geometry)).getD l.geometry
    nextStream := if a.isSome then l.nextStream else 1, dir := (a.map fun a => l.keepDir a.streams found).getD []
    mounted := true, stage := l.stage.map (fun e => { e with inStripe := none, at_ := none }), prog := none, abandoned := torn
    tail := (found.getLast?.map (·.num)).getD l.tail, age := (a.map (·.age)).getD 0, scrubIn := l.scrubInterval, anchorDue := l.anchorDue || changed, sealed := false }
  let n := { n with rebuild := ((List.range 10).find? fun m => present.getD m .online = .rebuilding).map fun m => (m, n.head, n.tail) }
  State.ldgSettle s { s with ldg := n, glue := { s.glue with onfiRate := s.glue.value 9 } }

/-! ## Packets -/

/-- All members keep one geometry with pages of at least 16,592 bytes (R504). -/
def geometryOk (g : Geometry) (gs : List Geometry) : Bool :=
  gs.all (· = g) && decide (1 ≤ g.luns) && decide (g.luns ≤ 4) && decide (16592 ≤ g.pageBytes)

/-- LDG_FORMAT (R546, R547). -/
def State.formatAdmitted (media : MediaEnv) (id : PktId) (_p : Nat) (_x : Pkt) (s : State) : State :=
  let g := media.geometry.headD { luns := 1, blocks := 0, pages := 0, pageBytes := 0 }
  if s.glue.value 2 != 0 && s.ldg.anchor.isSome then s.refuse id 0xFF stLOCKED 0
  else if s.parts.any (·.used) || s.ldg.erase.isSome || s.ldg.prog.isSome || s.ldg.rebuild.isSome then s.refuse id 0xFF stDEFERRED 0
  else if media.geometry.length != 10 || !geometryOk g media.geometry then s.refuse id 0xFF stSHAPE 0
  else
    let s := s.modLdg fun l =>
      { l with stripes := [], anchors := [none, none], rows := [], retired := media.badRows, lossMap := [], dir := [], tail := 0
               nextStripe := 0, nextStream := (l.anchor.map fun a => max a.nextStream l.nextStream).getD 1
               grownBad := List.replicate 10 0, members := List.replicate 10 .online, sealed := false, curRow := none, curPage := 0
               abandoned := none, toRelocate := [], scrubNext := 0, geometry := { g with luns := min g.luns (s.glue.value 10) } }
    s.beginErase (.format id) (List.range 10)
def ldgFormatEffect (f : Nat) (media : MediaEnv) (s : State) : State := s.admitPkt f 0x28 (State.formatAdmitted media)
def execLdgFormat (f : Nat) (media : MediaEnv) (s : State) : Host.Outcome State Fault Refusal := done s (ldgFormatEffect f media)

/-- LDG_MEMBER_REPLACE (R504, R533, R635). -/
def State.replaceAdmitted (media : MediaEnv) (id : PktId) (_p : Nat) (x : Pkt) (s : State) : State :=
  let m := x.u 0x20 1
  let st := s.ldg.members.getD m .online
  if 10 ≤ m then s.refuse id 0xFF stSHAPE 0x52
  else if s.latched (16 + m) then s.refuse id 0xFF stDISAGREE 0
  else if st != .failed && st != .absent then s.refuse id 0xFF stSHAPE 0x52
  else if s.ldg.rebuild.isSome || s.ldg.erase.isSome then s.refuse id 0xFF stDEFERRED 0
  else if media.geometry.any fun g => !geometryOk g [g] || g.blocks != s.ldg.geometry.blocks || g.pages != s.ldg.geometry.pages ||
      g.pageBytes != s.ldg.geometry.pageBytes || min g.luns (s.glue.value 10) != s.ldg.geometry.luns then s.refuse id 0xFF stSHAPE 0
  else ((s.setMember m .rebuilding).modLdg fun l => { l with grownBad := l.grownBad.set m 0 }).beginErase (.replace id) [m]
def ldgMemberReplaceEffect (f : Nat) (media : MediaEnv) (s : State) : State := s.admitPkt f 0x29 (State.replaceAdmitted media)
def execLdgMemberReplace (f : Nat) (media : MediaEnv) (s : State) : Host.Outcome State Fault Refusal :=
  done s (ldgMemberReplaceEffect f media)

/-- LDG_UNSEAL (R538). -/
def ldgUnsealEffect (f : Nat) (s : State) : State := s.admitPkt f 0x2A fun id _ _ s =>
  if s.ldg.mustSeal then s.refuse id 0xFF stSEALED 0
  else (s.modLdg fun l => { l with sealed := false }).finish id 0xFF stOK 0
def execLdgUnseal (f : Nat) (s : State) : Host.Outcome State Fault Refusal := done s (ldgUnsealEffect f)

/-- LDG_RELEASE (R542): the released SEQ rises and never falls; a stream that the directory lacks is out of range. -/
def ldgReleaseEffect (f : Nat) (s : State) : State := s.admitPkt f 0x2B fun id _ x s =>
  let sid := x.u 0x20 4
  let seq := x.u 0x28 8
  if !s.ldg.dir.any (fun d => d.1 = sid) then s.refuse id 0xFF stSHAPE 0x52
  else
    let s := s.modLdg fun l => { l with dir := l.dir.map fun d =>
      if d.1 = sid then (d.1, d.2.1, d.2.2.1, BitVec.ofNat 64 (max d.2.2.2.toNat seq)) else d }
    s.finish id 0xFF stOK 0 (s.ldg.releasedOf sid)
def execLdgRelease (f : Nat) (s : State) : Host.Outcome State Fault Refusal := done s (ldgReleaseEffect f)

/-! ## LDG_EXPORT (R548 to R551) -/

/-- Durable entries of a stream that read, with SEQ from lo to hi, in ascending SEQ; of two copies the one in the lower sector. -/
def Ledger.exported (l : Ledger) (stream lo hi : Nat) (pages : List PageRead) : List (Nat × Bytes) :=
  let all := l.log.flatMap fun x => (l.readSectors x pages).flatMap fun y => if y.kind = 1 && !y.lost then y.entries else []
  let mine := all.filter fun e => Bytes.nat e 4 4 = stream && decide (lo ≤ Bytes.nat e 8 8) && decide (Bytes.nat e 8 8 ≤ hi)
  let put (e : Bytes) (xs : List (Nat × Bytes)) : List (Nat × Bytes) :=
    let n := Bytes.nat e 8 8
    if xs.any (fun x => x.1 = n) then xs
    else xs.filter (fun x => decide (x.1 < n)) ++ [(n, e)] ++ xs.filter (fun x => decide (n < x.1))
  mine.foldl (fun xs e => put e xs) []

/-- A GAP entry for SEQ a to b. -/
def gapEntry (p stream a b : Nat) : Bytes := entryBytes 5 p stream a [] (leBytes 8 a ++ leBytes 8 b)

/-- Entries from a SEQ on, GAP entries in place of what is missing. -/
def withGaps (p stream hi : Nat) : Nat → List (Nat × Bytes) → List Bytes
  | next, [] => if next ≤ hi then [gapEntry p stream next hi] else []
  | next, (n, e) :: xs =>
    if next < n then gapEntry p stream next (n - 1) :: e :: withGaps p stream hi (n + 1) xs else e :: withGaps p stream hi (n + 1) xs

/-- An admitted LDG_EXPORT. -/
def State.exportAdmitted (pages : List PageRead) (f : Nat) (id : PktId) (p : Nat) (x : Pkt) (s : State) : State :=
  let stream := x.u 0x20 4
  let first := x.u 0x28 8
  let count := x.u 0x30 8
  let part := if f = 0 then 0xFF else p
  if f != 0 && (s.part p).stream.id != stream then s.refuse id part stSHAPE 0x55
  else
    let s := (s.ldg.log.filter fun x => decide (count != 0) && x.entries.any fun e =>
      Bytes.nat e 4 4 = stream && decide (first ≤ Bytes.nat e 8 8) && decide (Bytes.nat e 8 8 < first + count)).foldl
        (fun s x => s.noteRead x pages) s
    let es := if count = 0 then [] else s.ldg.exported stream first (first + count - 1) pages
    let owner := ((s.ldg.dir.find? fun d => d.1 = stream).map fun d => d.2.1).getD 0
    let all := if count = 0 then [] else withGaps owner stream (first + count - 1) first es
    if x.u 0x40 8 < 256 * all.length then s.refuse id part stSHAPE 0x52
    else
      let s := if all.isEmpty then s else s.emit (.hostWrite id.pasid (x.u 0x38 8) all.flatten)
      s.finish id part stOK 0 es.length (if count = 0 then 0 else first + count - 1) (all.length - es.length)
def ldgExportEffect (f : Nat) (pages : List PageRead) (s : State) : State := s.admitPkt f 0x2C (State.exportAdmitted pages f)
def execLdgExport (f : Nat) (pages : List PageRead) (s : State) : Host.Outcome State Fault Refusal :=
  done s (ldgExportEffect f pages)

end Sys2Proof.Machine
end

