-- ==== Sys2Proof/Machine/Store.lean ====
section
/-! DEFINITION. Checkpoints on the shared store (13_checkpoint_and_recovery.md R552, R558 to R561, R567 to R586): CKP_ARM, CKP_DISARM,
CKP_RESTORE, the drain, the container's layout, and the store ports and sessions. -/

namespace Sys2Proof.Machine

/-! ## Container layout (R579 to R582) -/

/-- E of a scope of P pages, and the LBAs of a container. -/
def extentLbas (pages : Nat) : Nat := ceilDiv pages 256
def containerLbas (pages : Nat) : Nat := 3 + 2 * extentLbas pages + 32 * pages
/-- LBA, in the container, of slot sl of scope page q. -/
def pageLba (pages sl q : Nat) : Nat := 3 + 2 * extentLbas pages + 16 * (sl * pages + q)

/-- P of the armed partition. -/
def State.scopePages (s : State) (p : Nat) : Nat := s.nSlots p * slotPages + (s.part p).ckp.regionPages

/-- 4,092 bytes and their CRC-32C. -/
def sealed4k (bs : Bytes) : Bytes :=
  let b := Bytes.sub bs 0 0xFFC
  b ++ leBytes 4 (crc32c b).toNat

/-- The superblock (R580). -/
def superblockBytes (n region pages id : Nat) (key fp : Bytes) : Bytes :=
  sealed4k ([0x4C, 0x4E, 0x31, 0x33, 0x43, 0x4B, 0x50, 0x54] ++ leBytes 2 1 ++ leBytes 2 n ++ leBytes 4 region ++ leBytes 4 pages ++
    leBytes 4 (extentLbas pages) ++ leBytes 8 id ++ Bytes.sub key 0 8 ++ Bytes.sub fp 0 32)

/-- Maximal runs of consecutive pages with one slot, ascending (R581): first page, count, slot. -/
def extentRuns : List (Nat × Nat) → List (Nat × Nat × Nat)
  | [] => []
  | (q, sl) :: rest => match extentRuns rest with
    | (f, n, sl') :: rs => if f = q + 1 && sl' = sl then (q, n + 1, sl) :: rs else (q, 1, sl) :: (f, n, sl') :: rs
    | [] => [(q, 1, sl)]

/-- Extent records of the pages that a generation holds. -/
def extentBytes (held : List (Nat × Nat)) : Bytes :=
  (extentRuns held).flatMap fun r => leBytes 4 r.1 ++ leBytes 4 r.2.1 ++ leBytes 1 r.2.2 ++ List.replicate 7 0

/-- A generation header (R580). -/
def headerBytes (d : Drain) (container written : Nat) (held : List (Nat × Nat)) : Bytes :=
  sealed4k ([0x4C, 0x4E, 0x31, 0x33, 0x43, 0x4B, 0x47, 0x48] ++ leBytes 8 d.gen ++ leBytes 8 container ++ leBytes 8 d.beat.toNat ++
    leBytes 8 d.gate ++ leBytes 4 d.step ++ leBytes 4 (extentRuns held).length ++ leBytes 4 written ++ leBytes 4 held.length ++
    leBytes 4 (crc32c (extentBytes held)).toNat ++ Bytes.sub d.fingerprint 0 32)

/-- The superblock found is one of the shape named (R559, R584). -/
def superblockOk (sb : Bytes) (n region pages : Nat) : Bool :=
  Bytes.sub sb 0 8 = [0x4C, 0x4E, 0x31, 0x33, 0x43, 0x4B, 0x50, 0x54] && Bytes.nat sb 8 2 = 1 &&
    (crc32c (Bytes.sub sb 0 0xFFC)).toNat = Bytes.nat sb 0xFFC 4 &&
    Bytes.nat sb 0xA 1 = n && Bytes.nat sb 0xC 4 = region && Bytes.nat sb 0x10 4 = pages

/-- Extent area of a generation. -/
def foundArea (c : Container) (gen : Nat) : Bytes := c.extents.getD (gen % 2) []

/-- A header is valid (R582). -/
def foundHeaderOk (c : Container) (h : Bytes) : Bool :=
  let gen := Bytes.nat h 8 8
  Bytes.sub h 0 8 = [0x4C, 0x4E, 0x31, 0x33, 0x43, 0x4B, 0x47, 0x48] &&
    (crc32c (Bytes.sub h 0 0xFFC)).toNat = Bytes.nat h 0xFFC 4 && Bytes.sub h 0x10 8 = Bytes.sub c.superblock 0x18 8 &&
    (crc32c (Bytes.sub (foundArea c gen) 0 (16 * Bytes.nat h 0x2C 4))).toNat = Bytes.nat h 0x38 4

/-- The newest valid header. -/
def foundNewest (c : Container) : Option Bytes :=
  (c.headers.filter fun h => foundHeaderOk c h).foldl (fun best h => match best with
    | none => some h
    | some b => if Bytes.nat b 8 8 < Bytes.nat h 8 8 then some h else some b) none

/-- Pages that a header's generation holds, with their slots. -/
def foundHeld (c : Container) (h : Bytes) : List (Nat × Nat) :=
  let t := foundArea c (Bytes.nat h 8 8)
  (List.range (Bytes.nat h 0x2C 4)).flatMap fun i =>
    (List.range (Bytes.nat t (16 * i + 4) 4)).map fun j => (Bytes.nat t (16 * i) 4 + j, Bytes.nat t (16 * i + 8) 1)

/-- The data of a page in a slot of the container, in the canonical form of a store. -/
def foundPage (c : Container) (sl q : Nat) : Mem :=
  (((c.pages.find? fun x => x.1 = sl && x.2.1 = q).map fun x => x.2.2).getD []).foldl (fun m x => Memory.write m x.1 [x.2]) []

/-! ## CKP_ARM, CKP_DISARM (R558 to R561) -/

/-- What a CKP_ARM names. -/
def Pkt.armSession (x : Pkt) : Nat := x.u 0x20 1
def Pkt.armNew (x : Pkt) : Bool := bitOf (x.u 0x21 1) 0
def Pkt.armUnits (x : Pkt) : Nat := x.u 0x22 2
def Pkt.armInterval (x : Pkt) : Nat := x.u 0x24 4
def Pkt.armLba (x : Pkt) : Nat := x.u 0x28 8
def Pkt.armRegion (x : Pkt) : Nat := x.u 0x30 8
def Pkt.armPages (x : Pkt) : Nat := x.u 0x38 4
def Pkt.armClamp (x : Pkt) : Nat := x.u 0x40 8

/-- The refusal of a CKP_ARM: status and detail (R559, R723). -/
def State.armRefusal (s : State) (p : Nat) (x : Pkt) (found : Container) : Option (Nat × Nat) :=
  let n := s.nSlots p
  let pages := n * slotPages + x.armPages
  let i := x.armSession
  let e := s.session i
  let share := (s.part p).hbmBytes
  if x.armUnits = 0 || decide (min 500 (s.glue.value 14) < x.armUnits) || x.armInterval = 0 || x.armRegion % 65536 != 0 ||
      x.armClamp % 65536 != 0 then some (stSHAPE, 0x52)
  else if (s.part p).hasTask || (s.part p).hasLaunch || (s.part p).ckp.drain.isSome then some (stDEFERRED, 0)
  else if decide (share < x.armRegion + 65536 * x.armPages) || decide (share < x.armClamp + 65536 * pages) ||
      !(decide (x.armRegion + 65536 * x.armPages ≤ x.armClamp) || decide (x.armClamp + 65536 * pages ≤ x.armRegion)) then some (stSPACE, 0)
  else if 8 ≤ i || e.owner != p || e.state != .connected || decide (e.sizeLbas < x.armLba + containerLbas pages) ||
      (!x.armNew && !superblockOk found.superblock n x.armPages pages) then some (stSHAPE, 0)
  else none

/-- An admitted CKP_ARM. -/
def State.armAdmitted (found : Container) (id : PktId) (p : Nat) (x : Pkt) (s : State) : State :=
  match s.armRefusal p x found with
  | some r => s.refuse id p r.1 r.2
  | none =>
    let n := s.nSlots p
    let pages := n * slotPages + x.armPages
    let count := s.beat.count.toNat
    let fp := match (s.part p).prog with
      | some g => g.fingerprint
      | none => []
    let h := (foundNewest found).getD []
    let gen := if x.armNew then 0 else Bytes.nat h 8 8
    let s := s.modPart p fun y => { y with ckp := { y.ckp with
      armed := true, lastGen := BitVec.ofNat 64 gen, session := x.armSession, lba := x.armLba
      containerId := if x.armNew then count else Bytes.nat found.superblock 0x18 8
      region := x.armRegion, regionPages := x.armPages, clampBase := x.armClamp, interval := x.armInterval, units := x.armUnits
      dirty := List.range pages, pending := [], held := if x.armNew then [] else foundHeld found h } }
    let s := if x.armNew then
      let sb := superblockBytes n x.armPages pages count (Config.keyId s.fuses.serial) fp
      (s.modSession x.armSession fun e => { e with others := e.others + 1 }).emit
        (.nvmeWrite x.armSession x.armLba (Memory.ofBytes 0 sb) 4096) else s
    s.finish id p stOK 0 gen pages
def ckpArmEffect (f : Nat) (found : Container) (s : State) : State := s.admitPkt f 0x18 (State.armAdmitted found)
def execCkpArm (f : Nat) (found : Container) (s : State) : Host.Outcome State Fault Refusal := done s (ckpArmEffect f found)

/-- CKP_DISARM ends clamps; a drain in progress goes on (R561). -/
def ckpDisarmEffect (f : Nat) (s : State) : State := s.admitPkt f 0x19 fun id p _ s =>
  (s.modPart p fun y => { y with ckp := { y.ckp with armed := false, dirty := [] } }).finish id p stOK 0
def execCkpDisarm (f : Nat) (s : State) : Host.Outcome State Fault Refusal := done s (ckpDisarmEffect f)

/-! ## CKP_RESTORE (R583 to R586) -/

/-- A page of the scope is replaced in its place: a store page, or a page of the region. -/
def State.setScopePage (s : State) (p q : Nat) (m : Mem) : State :=
  let n := s.nSlots p
  if q < n * slotPages then s.setSlotPage p (q / slotPages) (q % slotPages) m
  else s.shareSplice p ((s.part p).ckp.region + 65536 * (q - n * slotPages)) 65536 m

/-- An admitted CKP_RESTORE. -/
def State.restoreAdmitted (found : Container) (id : PktId) (p : Nat) (_x : Pkt) (s : State) : State :=
  let k := (s.part p).ckp
  if !k.armed || (s.part p).shownState != .loaded || (s.part p).load.isSome || (s.part p).await.isSome ||
      (s.activeBenches p).length != s.nSlots p then s.refuse id p stDEFERRED 0
  else match foundNewest found with
    | none => s.refuse id p stSHAPE 0
    | some h =>
      if !superblockOk found.superblock (s.nSlots p) k.regionPages (s.scopePages p) then s.refuse id p stSHAPE 0
      else
        let gen := Bytes.nat h 8 8
        let held := foundHeld found h
        let s := held.foldl (fun s x => s.setScopePage p x.1 (foundPage found x.2 x.1)) s
        let s := s.modPart p fun y => { y with ckp := { y.ckp with dirty := [], lastGen := BitVec.ofNat 64 gen, held := held } }
        if k.buddyOn then
          (s.modPart p fun y => { y with await := some (id, BitVec.ofNat 64 gen, BitVec.ofNat 64 held.length) }).copyAll p
        else s.finish id p stOK 0 gen held.length
def ckpRestoreEffect (f : Nat) (found : Container) (s : State) : State := s.admitPkt f 0x1A (State.restoreAdmitted found)
def execCkpRestore (f : Nat) (found : Container) (s : State) : Host.Outcome State Fault Refusal := done s (ckpRestoreEffect f found)

/-! ## The drain (R571 to R578) -/

/-- Slot of a pending page in the generation being drained: not its current one (R574 step 1). -/
def Ckp.target (k : Ckp) (q : Nat) : Nat := match k.held.lookup q with
  | some sl => 1 - sl
  | none => 0

/-- Pages held by the generation being drained. -/
def Ckp.nextHeld (k : Ckp) : List (Nat × Nat) :=
  (insertAll k.pending (k.held.map (·.1))).map fun q => (q, if k.pending.contains q then k.target q else (k.held.lookup q).getD 0)

/-- The pages of the drain's next Write: one, or two consecutive pages of one slot. -/
def Ckp.nextPages (k : Ckp) (d : Drain) : List Nat := match d.todo with
  | q :: r :: _ => if r = q + 1 && k.target r = k.target q then [q, r] else [q]
  | xs => xs

/-- NVMe commands that a drain's I/O queue holds at most (R567). -/
def queueDepth : Nat := 64

/-- One command of the drain, where it may issue now (R573, R574). -/
def State.drainIssue (s : State) (p : Nat) : Option State :=
  let k := (s.part p).ckp
  match k.drain with
  | none => none
  | some d =>
    let pages := s.scopePages p
    let put (s : State) (d : Drain) : State := s.modPart p fun x => { x with ckp := { x.ckp with drain := some d } }
    if (s.session k.session).state != .connected || queueDepth ≤ d.inWork.length then none
    else if d.stage = 0 then
      let qs := k.nextPages d
      let len := 65536 * qs.length
      match qs with
      | [] => some (put s { d with stage := 1 })
      | q :: _ =>
        if d.allowance < len then none
        else
          let lba := k.lba + pageLba pages (k.target q) q
          let s := s.emit (.nvmeWrite k.session lba (s.shareSlice p (k.clampBase + 65536 * q) len) len)
          some (put s { d with todo := d.todo.drop qs.length, inWork := d.inWork ++ [(lba, 16 * qs.length)], allowance := d.allowance - len })
    else if d.stage = 1 then
      let bs := extentBytes k.nextHeld
      let len := 4096 * max 1 (ceilDiv bs.length 4096)
      if d.allowance < min len 262144 then none
      else
        let lba := k.lba + 3 + (d.gen % 2) * extentLbas pages
        let s := s.emit (.nvmeWrite k.session lba (Memory.ofBytes 0 bs) len)
        some (put s { d with stage := 2, inWork := d.inWork ++ [(lba, len / 4096)], allowance := d.allowance - min len 262144 })
    else if d.stage = 2 || d.stage = 4 then
      if !d.inWork.isEmpty then none
      else some (put (s.emit (.nvmeFlush k.session)) { d with stage := d.stage + 1, inWork := [(0, 0)] })
    else if d.stage = 3 then
      if !d.inWork.isEmpty || d.allowance < 4096 then none
      else
        let lba := k.lba + 1 + d.gen % 2
        let s := s.emit (.nvmeWrite k.session lba (Memory.ofBytes 0 (headerBytes d k.containerId k.pending.length k.nextHeld)) 4096)
        some (put s { d with stage := 4, inWork := [(lba, 1)], allowance := d.allowance - 4096 })
    else none

/-- Every command that may issue at this gate. -/
def State.drainAll (s : State) (p : Nat) : Nat → State
  | 0 => s
  | n + 1 => match s.drainIssue p with
    | some t => t.drainAll p n
    | none => s

/-- The generation is committed (R575). -/
def State.commitGen (s : State) (p : Nat) (d : Drain) : State :=
  (s.modPart p fun x => { x with ckp := { x.ckp with drain := none, held := x.ckp.nextHeld, pending := [], lastGen := BitVec.ofNat 64 d.gen } })
    |>.ckpEvent p 1

/-- A completion that the gate admits: the oldest command in work has ended, or the drain fails (R575, R576). -/
def State.drainCompletion (s : State) (p status : Nat) : State :=
  match (s.part p).ckp.drain with
  | none => s
  | some d =>
    if status != 0 then s.failDrain p status
    else
      let d := { d with inWork := d.inWork.drop 1 }
      if d.stage = 5 && d.inWork.isEmpty then s.commitGen p d
      else s.modPart p fun x => { x with ckp := { x.ckp with drain := some d } }

/-- What a session received before the open gate's cut: admitted now, to the drain that it serves; a status that no drain waits for has no
effect, and the first statuses answer the commands that serve none (R76, R79, R571; log entry 25). -/
def State.storeGate (s : State) (i : Nat) : State :=
  let now := s.beat.periods
  let rx := ((s.session i).rx.filter fun x => decide (x.1 + 2 < now)).map (·.2)
  let others := (s.session i).others
  let s := s.modSession i fun e => { e with rx := e.rx.filter (fun x => !decide (x.1 + 2 < now)), others := others - rx.length }
  match (List.range 6).find? fun p => (s.part p).ckp.drain.isSome && (s.part p).ckp.session = i with
  | some p => (rx.drop others).foldl (fun s st => s.drainCompletion p st) s
  | none => s

/-- A partition's drain at a gate: the allowance, and what it issues (R571, R573). -/
def State.drainGate (s : State) (p : Nat) : State :=
  let i := (s.part p).ckp.session
  if (s.part p).ckp.drain.isNone then s
  else
    match (s.part p).ckp.drain with
    | none => s
    | some d =>
      if (s.session i).state != .connected then s.failDrain p 0
      else
        let a := min 262144 (d.allowance + (s.part p).ckp.units * 160)
        (s.modPart p fun x => { x with ckp := { x.ckp with drain := some { d with allowance := a } } }).drainAll p 256

/-- A drain that an FLR meets: CKP_TORN_LBA, DRAIN_TORN, then a failure (R577). -/
def State.tearDrain (s : State) (p : Nat) : State :=
  let k := (s.part p).ckp
  match k.drain with
  | none => s
  | some d =>
    let pages := s.scopePages p
    let lba := k.lba + (match d.todo with
      | q :: _ => pageLba pages (k.target q) q
      | [] => if d.stage ≤ 1 then 3 + (d.gen % 2) * extentLbas pages else 1 + d.gen % 2)
    ((s.modPart p fun x => { x with ckp := { x.ckp with tornLba := BitVec.ofNat 64 lba } }).ckpEvent p 3).failDrain p 0

/-- NVME_COMPLETION: received on a connected session; a gate admits it (R571). -/
def nvmeCompletionEffect (i status : Nat) (s : State) : State :=
  if (s.session i).state = .connected then s.modSession i fun e => { e with rx := e.rx ++ [(s.beat.periods, status)] } else s
def execNvmeCompletion (i : Nat) (status : Nat) (s : State) : Host.Outcome State Fault Refusal := done s (nvmeCompletionEffect i status)

/-! ## Store ports and sessions (R567 to R570; 15 R668) -/

/-- STORE_PORT_SET. -/
def storePortSetEffect (f : Nat) (s : State) : State := s.admitPkt f 0x20 fun id _ x s =>
  let port := x.u 0x20 1
  let fam := x.u 0x21 1
  let mtu := x.u 0x24 2
  if 1 < port || (fam != 4 && fam != 6) || (if fam = 4 then 32 else 128) < x.u 0x22 1 || mtu < 1500 || 9000 < mtu || 4094 < x.u 0x26 2 then
    s.refuse id 0xFF stSHAPE 0x52
  else if s.sessions.any fun e => e.port = port && e.state != .down then s.refuse id 0xFF stDEFERRED 0
  else
    let y : StorePort := { family := fam, prefixLen := x.u 0x22 1, mtu := mtu, vlan := x.u 0x26 2, ip := Bytes.sub x.bytes 0x28 16
                           gateway := Bytes.sub x.bytes 0x38 16, mac := BitVec.ofNat 48 (s.glue.value (7 + port)) }
    { s with ports := s.ports.set port y }.finish id 0xFF stOK 0
def execStorePortSet (f : Nat) (s : State) : Host.Outcome State Fault Refusal := done s (storePortSetEffect f)

/-- STORE_CONNECT (R567, R635). -/
def storeConnectEffect (f : Nat) (s : State) : State := s.admitPkt f 0x21 fun id _ x s =>
  let i := x.u 0x20 1
  let fam := x.u 0x23 1
  if 7 < i || 1 < x.u 0x21 1 || (fam != 4 && fam != 6) || x.paramLen != 512 || !s.partExists (x.u 0x22 1) then s.refuse id 0xFF stSHAPE 0x52
  else if s.latched (32 + i) then s.refuse id 0xFF stDISAGREE 0
  else if (s.session i).state != .down then s.refuse id 0xFF stDEFERRED 0
  else (s.modSession i fun e => { e with state := .connecting, port := x.u 0x21 1, owner := x.u 0x22 1, id := some id, rx := [] }).emit (.connect i)
def execStoreConnect (f : Nat) (s : State) : Host.Outcome State Fault Refusal := done s (storeConnectEffect f)

/-- STORE_SESSION_CONNECTED: the outcome of a session that is opening (R568, R569). -/
def storeSessionConnectedEffect (i : Nat) (r : Connect) (s : State) : State :=
  match (s.session i).state, (s.session i).id with
  | .connecting, some id =>
    let down := s.modSession i fun e => { e with state := .down, id := none }
    match r with
    | .failed => down.finish id 0xFF stABORTED 0x6D
    | .connected lba meta_ digests size alive =>
      if !digests then down.finish id 0xFF stABORTED 0x6D
      else if lba != 4096 || meta_ then down.finish id 0xFF stSHAPE 0
      else
        let now := s.beat.periods
        (s.modSession i fun e => { e with state := .connected, id := none, sizeLbas := size, keepAlive := alive, aliveAt := now }).finish id 0xFF
          stOK 0 size
  | _, _ => s
def execStoreSessionConnected (i : Nat) (r : Connect) (s : State) : Host.Outcome State Fault Refusal :=
  done s (storeSessionConnectedEffect i r)

/-- STORE_DISCONNECT. -/
def storeDisconnectEffect (f : Nat) (s : State) : State := s.admitPkt f 0x22 fun id _ x s =>
  let i := x.u 0x20 1
  if 7 < i then s.refuse id 0xFF stSHAPE 0x52
  else if s.parts.any fun y => y.ckp.session = i && y.ckp.drain.isSome then s.refuse id 0xFF stDEFERRED 0
  else ((s.sessionDown i 0).emit (.disconnect i)).finish id 0xFF stOK 0
def execStoreDisconnect (f : Nat) (s : State) : Host.Outcome State Fault Refusal := done s (storeDisconnectEffect f)

/-- SESSION_CLOSE (R570): a digest error, which is counted, or a TCP reset. -/
def sessionCloseEffect (i : Nat) (why : CloseWhy) (s : State) : State :=
  if (s.session i).state = .down then s
  else
    let s := if why = .digest then s.modSession i fun e => { e with digestErrors := satAdd32 e.digestErrors 1 } else s
    s.sessionDown i 0
def execSessionClose (i : Nat) (why : CloseWhy) (s : State) : Host.Outcome State Fault Refusal := done s (sessionCloseEffect i why)

/-- KEEP_ALIVE: half the negotiated timeout after the last one (R568). -/
def keepAliveEffect (i : Nat) (s : State) : State :=
  let e := s.session i
  let now := s.beat.periods
  if e.state = .connected && decide (e.aliveAt + e.keepAlive / 2 ≤ now) then
    (s.modSession i fun e => { e with aliveAt := now }).emit (.keepAlive i)
  else s
def execKeepAlive (i : Nat) (s : State) : Host.Outcome State Fault Refusal := done s (keepAliveEffect i)

/-- Every Keep Alive that is due. -/
def State.keepAlives (s : State) : State :=
  (List.range 8).foldl (fun s i => if (s.session i).keepAlive = 0 then s else keepAliveEffect i s) s

/-- KEEP_ALIVE_TIMEOUT: the session closes (R570). -/
def keepAliveTimeoutEffect (i : Nat) (s : State) : State := if (s.session i).state = .connected then s.sessionDown i 0 else s
def execKeepAliveTimeout (i : Nat) (s : State) : Host.Outcome State Fault Refusal := done s (keepAliveTimeoutEffect i)

end Sys2Proof.Machine
end

