-- ==== Sys2Proof/Machine/Aivia.lean ====
section
/-! DEFINITION. Aivia queues, completions and BAR2 (15_host_interface_and_aivia.md R643 to R658, R661; 14 R623; 12 R496; 17 R718, R738), and
IDENT_CERT (18 R770). -/

namespace Sys2Proof.Machine

/-! ## Windows and indices (R645, R649) -/

/-- A function reaches window f of a running device, and the grade has it (R645, R816). -/
def State.aiviaOpen (s : State) (fn f : Nat) : Bool := s.running && (fn = 0 || fn = f) && decide (f ≤ s.nParts)

def Aivia.sqSize (a : Aivia) : Nat := 2 ^ a.sqLog2
def Aivia.cqSize (a : Aivia) : Nat := 2 ^ a.cqLog2
/-- Entries between two indices modulo 2 × SIZE. -/
def occupied (tail head size : Nat) : Nat := (tail + 2 * size - head % (2 * size)) % (2 * size)

/-! ## AIVIA_DOORBELL and PACKET_CAPTURE -/

/-- A write of AIVIA_SQ_TAIL (R649, R652). -/
def aiviaDoorbellEffect (fn f : Nat) (word : W32) (s : State) : State :=
  if !s.aiviaOpen fn f then s
  else
    let a := s.fn f
    let t := word.toNat % 8192 % (2 * a.sqSize)
    if a.sqSize < occupied t a.sqHead a.sqSize then (s.modFn f fun a => { a with badDoorbell := true }).raise (aiviaKey f) 1
    else s.modFn f fun a => { a with sqTail := t }
def execAiviaDoorbell (fn f : Nat) (word : W32) (s : State) : Host.Outcome State Fault Refusal := done s (aiviaDoorbellEffect fn f word)

/-- The function fetches: enabled, with entries, and room in the gate buffer (R651). -/
def Aivia.fetches (a : Aivia) : Bool := a.enable && a.sqTail != a.sqHead && decide (a.gateBuf.length < 128)

/-- A capture completes, or queue memory cannot be translated (R651, R653). -/
def packetCaptureEffect (f : Nat) (cap : Capture) (s : State) : State :=
  let now := s.beat.periods
  if !(s.fn f).fetches || s.life != .up then s
  else match cap with
    | .packet bytes ext => s.modFn f fun a =>
        { a with gateBuf := a.gateBuf ++ [{ bytes := bytes, ext := ext, at_ := now }], sqHead := (a.sqHead + 1) % (2 * a.sqSize) }
    | .unresolvable => (s.modFn f fun a =>
        { a with fetchFault := true, enable := false, ready := !a.gateBuf.isEmpty || a.inWork != 0 }).raise (aiviaKey f) 3
def execPacketCapture (f : Nat) (cap : Capture) (s : State) : Host.Outcome State Fault Refusal := done s (packetCaptureEffect f cap)

/-! ## AIVIA_ENABLE and AIVIA_DISABLE (R657) -/

/-- ENABLE is set: both queues' indices are zero, and READY is set. -/
def aiviaEnableEffect (fn f : Nat) (s : State) : State :=
  if !s.aiviaOpen fn f || (s.fn f).enable then s
  else s.modFn f fun a => { a with enable := true, ready := true, sqHead := 0, sqTail := 0, cqHead := 0, cqTail := 0 }
def execAiviaEnable (fn f : Nat) (s : State) : Host.Outcome State Fault Refusal := done s (aiviaEnableEffect fn f)

/-- READY clears when ENABLE is clear and no captured packet remains. -/
def Aivia.rest (a : Aivia) : Aivia := { a with ready := a.ready && (a.enable || !a.gateBuf.isEmpty || a.inWork != 0) }

/-- ENABLE is cleared: fetching stops, and uncaptured entries are ignored. -/
def aiviaDisableEffect (fn f : Nat) (s : State) : State :=
  if s.aiviaOpen fn f then s.modFn f fun a => Aivia.rest { a with enable := false } else s
def execAiviaDisable (fn f : Nat) (s : State) : Host.Outcome State Fault Refusal := done s (aiviaDisableEffect fn f)

/-! ## COMPLETION_POST (R654, R656, R661) -/

/-- An entry is durable: it is staged no more (R495, R496). -/
def State.durable (s : State) (stream seq : Nat) : Bool := !s.ldg.stage.any fun e => e.stream = stream && e.seq = seq

/-- Completions of a partition's runs that are not written. -/
def State.runCompletions (s : State) (p : Nat) : Bool := s.fns.any fun a => a.compl.any fun c => c.part = p && c.id.op = 0x11

/-- The completion may be written. A refusal is posted at its gate (R95, R605); a task's completion waits for the end of the run's task, its clamp included (R817). -/
def State.complReady (s : State) (c : Compl) : Bool :=
  !(c.ofTask && (s.part c.part).clamping) && match c.cond with
    | .ready => true
    | .durable stream seq => s.durable stream seq
    | .posted p => !s.runCompletions p

/-- The completion of a run whose DECISION entry is waited for. -/
def Compl.awaits (c : Compl) : Bool := c.ofTask && match c.cond with
  | .durable _ _ => true
  | _ => false

/-- The first completion of a list that may be written: those of runs go in the order in which their entries were staged (R604), so
behind one that still waits no other is taken. -/
def State.nextPost (s : State) (held : Bool) : List Compl → Option Compl
  | [] => none
  | c :: cs => if s.complReady c && !(held && c.awaits) then some c else s.nextPost (held || c.awaits) cs

/-- The completion queue is full. -/
def Aivia.cqFull (a : Aivia) : Bool := decide (a.cqSize ≤ occupied a.cqTail a.cqHead a.cqSize)

/-- AIVIA_STATUS.CQ_STALL: a completion that may be written waits for room. -/
def State.cqStall (s : State) (f : Nat) : Bool := (s.fn f).cqFull && (s.nextPost false (s.fn f).compl).isSome

/-- The 32 bytes of a completion at a tail index. -/
def complBytes (c : Compl) (a : Aivia) : Bytes :=
  leBytes 4 c.id.tag.toNat ++ leBytes 2 c.status ++ leBytes 1 c.detail ++ leBytes 1 (natOfBool (!bitOf a.cqTail a.cqLog2)) ++
    leBytes 8 c.r0.toNat ++ leBytes 8 c.r1.toNat ++ leBytes 4 c.r2.toNat ++ leBytes 1 c.id.op ++ leBytes 1 c.part ++ leBytes 2 a.sqHead

/-- The function's oldest completion that may be written is written at AIVIA_CQ_TAIL, and its message follows. -/
def completionPostEffect (f : Nat) (s : State) : State :=
  let a := s.fn f
  if a.cqFull then s
  else match s.nextPost false a.compl with
    | none => s
    | some c =>
      let s := s.emit (.hostWrite none (a.cqBase.toNat + 32 * (a.cqTail % a.cqSize)) (complBytes c a))
      let next := s.beat.periods + 1
      let s := s.modFn f fun a => Aivia.rest
        { a with compl := a.compl.erase c, cqTail := (a.cqTail + 1) % (2 * a.cqSize), inWork := a.inWork - 1
                 notBefore := if c.ends then next else a.notBefore }
      if f = 0 then (s.modIrq fun i => { i with pfCompletion := true }).raise 13 0 else s.emit (.msix f)
def execCompletionPost (f : Nat) (s : State) : Host.Outcome State Fault Refusal := done s (completionPostEffect f)

/-- A write of AIVIA_CQ_HEAD frees entries. -/
def completionQueueFreeEffect (fn f : Nat) (word : W32) (s : State) : State :=
  if s.aiviaOpen fn f then s.modFn f fun a => { a with cqHead := word.toNat % 8192 % (2 * a.cqSize) } else s
def execCompletionQueueFree (fn f : Nat) (word : W32) (s : State) : Host.Outcome State Fault Refusal :=
  done s (completionQueueFreeEffect fn f word)

/-! ## BAR2 (R643, R644, R646, R718, R738) -/

/-- The HBM address of a BAR2 offset of a function, where it exists. -/
def State.bar2Addr (s : State) (fn off : Nat) : Option Nat :=
  if fn = 0 then (if off < s.hbmGiB * gib then some off else none)
  else if (s.part (fn - 1)).valid && decide (off < (s.part (fn - 1)).hbmBytes) then some ((s.part (fn - 1)).hbmStart + off) else none

/-- The partition whose share holds an HBM address. -/
def State.shareOf (s : State) (a : Nat) : Option Nat :=
  (List.range 6).find? fun p => (s.part p).valid && decide ((s.part p).hbmStart ≤ a) && decide (a < (s.part p).hbmStart + (s.part p).hbmBytes)

/-- The running beat lies in a refresh window of the partition's scheduled run, or no such run holds its share (R646). -/
def State.bar2Window (s : State) (p : Nat) : Bool := match (s.part p).task with
  | some t => t.credit || Config.refreshWindow (s.part p).img (s.beat.periods - t.startAt / max 1 s.m - t.shift)
  | none => true

/-- The HBM is retrained: BAR2 waits (R738). -/
def State.retraining (s : State) : Bool := match s.glb.cal with
  | some j => j.kind = 1 && j.begun.isSome
  | none => false

/-- The access waits. -/
def State.bar2Holds (s : State) (fn off : Nat) : Bool :=
  s.retraining || (match s.bar2Addr fn off with
    | some a => (match s.shareOf a with
      | some p => !s.bar2Window p
      | none => false)
    | none => false)

/-- A BAR2 access is served. Bytes beyond the space read zero and are not written. -/
def State.bar2Serve (s : State) (fn off : Nat) (acc : Bar2) : State :=
  match acc with
  | .read n => s.emit (.bar2Read fn (if s.glb.asleep then List.replicate n 0
      else (List.range n).map fun i => match s.bar2Addr fn (off + i) with
        | some a => Memory.get s.hbm a
        | none => 0))
  | .write data =>
    if s.glb.asleep then s
    else match s.bar2Addr fn off with
      | none => s
      | some a =>
        let room := if fn = 0 then s.hbmGiB * gib - off else (s.part (fn - 1)).hbmBytes - off
        let bs := data.take room
        let s' := { s with hbm := Memory.write s.hbm a bs }
        match s.shareOf a with
        | some p => s'.touchShare p (a - (s.part p).hbmStart) bs.length
        | none => s'

/-- BAR2_ACCESS: served on arrival, or waiting behind an earlier one or for its window. -/
def bar2AccessEffect (fn off : Nat) (acc : Bar2) (s : State) : State :=
  if s.life != .up then s
  else if s.bar2Wait.any (fun w => w.1 = fn) || s.bar2Holds fn off then { s with bar2Wait := s.bar2Wait ++ [(fn, off, acc)] }
  else s.bar2Serve fn off acc
def execBar2Access (fn off : Nat) (acc : Bar2) (s : State) : Host.Outcome State Fault Refusal := done s (bar2AccessEffect fn off acc)

/-- Waiting BAR2 accesses that no longer wait are served in order, at most n. -/
def State.bar2Flush (s : State) : Nat → State
  | 0 => s
  | n + 1 =>
    let rec go (seen : List Nat) : List (Nat × Nat × Bar2) → Option (Nat × Nat × Bar2)
      | [] => none
      | w :: ws => if seen.contains w.1 || s.bar2Holds w.1 w.2.1 then go (w.1 :: seen) ws else some w
    match go [] s.bar2Wait with
    | some w => ({ s with bar2Wait := s.bar2Wait.erase w }.bar2Serve w.1 w.2.1 w.2.2).bar2Flush n
    | none => s

/-! ## IDENT_CERT (18 R770; R820) -/

/-- The identity certificate goes to host memory; a buffer too small is refused with the required length. -/
def identCertEffect (f : Nat) (s : State) : State := s.admitPkt f 0x30 fun id _ x s =>
  let cert := Config.certificate s.fuses.serial
  if x.u 0x30 4 < cert.length then s.finish id 0xFF stSHAPE 0x52 cert.length
  else (s.emit (.hostWrite id.pasid (x.u 0x28 8) cert)).finish id 0xFF stOK 0 cert.length (Bytes.nat (Config.keyId s.fuses.serial) 0 8)
def execIdentCert (f : Nat) (s : State) : Host.Outcome State Fault Refusal := done s (identCertEffect f)

end Sys2Proof.Machine
end

