-- ==== Sys2Proof/Machine/Selftest.lean ====
section
/-! DEFINITION. Self-test and calibration (17_resets_power_states_glue.md R714, R728 to R740), firmware staging (18 R763 to R768) and the two
views of a unit (14_errors_and_ordering.md R632 to R637). -/

namespace Sys2Proof.Machine

/-! ## Self-test of unowned benches (R728 to R734) -/

/-- A test of a bench begins. From P1 the bench is in P0 after 16 beats, and the exit from P2 takes 10,000 beats beside the 50,000 of
the test (R709, R728). -/
def State.startTest (s : State) (b : Nat) (why : TestWhy) : State :=
  let wake := if (s.bench b).power = 2 then 10000 else if (s.bench b).power = 1 then 16 else 0
  (s.beginTest b why).modBench b fun x => { x with test := x.test.map fun t => { t with endAt := t.endAt + wake } }

/-- The bench may be tested now: no partition's seats hold it, and it is SPARE, UNASSIGNED or FENCED. -/
def State.testable (s : State) (b : Nat) : Bool :=
  !s.claims b && ((s.bench b).state = .spare || (s.bench b).state = .unassigned || (s.bench b).state = .fenced)

/-- A test that counts for a SELF_TEST packet is running (R728). -/
def Bench.testCounts (x : Bench) : Bool := match x.test with
  | some t => t.why = .selfTest || t.why = .p2exit
  | none => false

/-- One bench named by an admitted SELF_TEST: tested at once, or deferred; the Bool says deferred. -/
def State.nameTest (s : State) (b : Nat) : State × Bool :=
  if (s.bench b).testCounts then (s, false)
  else if s.testable b then (s.startTest b .selfTest, false)
  else (s.modBench b fun x => { x with testDeferred := true }, true)

/-- An admitted SELF_TEST. -/
def State.selfTestAdmitted (id : PktId) (_p : Nat) (x : Pkt) (s : State) : State :=
  let mask := x.u 0x20 2 % 2 ^ 13
  if 2 ^ s.nSeats ≤ mask then s.refuse id 0xFF stSHAPE 0x52
  else
    let (s, d) := ((List.range 13).filter fun b => bitOf mask b).foldl (fun (acc : State × Bool) b =>
      let r := acc.1.nameTest b
      (r.1, acc.2 || r.2)) (s, false)
    (s.modGlb fun g => { g with tests := g.tests ++ [{ id := id, left := mask, deferred := d }] }).endTests

/-- SELF_TEST. -/
def selfTestEffect (f : Nat) (s : State) : State := s.admitPkt f 0x32 State.selfTestAdmitted
def execSelfTest (f : Nat) (s : State) : Host.Outcome State Fault Refusal := done s (selfTestEffect f)

/-- DEFERRED_SELF_TEST_START: at a gate at which no partition owns the bench (R730). -/
def deferredSelfTestStartEffect (b : Nat) (s : State) : State :=
  if s.beat.gateOpen && (s.bench b).testDeferred && s.testable b then s.startTest b .selfTest else s
def execDeferredSelfTestStart (b : Nat) (s : State) : Host.Outcome State Fault Refusal := done s (deferredSelfTestStartEffect b)

/-- The end of a self-test or of a P2 exit: the result is recorded, and the bench returns to its former state (R714, R729, R733). -/
def selfTestDoneEffect (b : Nat) (pass : Bool) (s : State) : State :=
  match (s.bench b).test with
  | none => s
  | some t =>
    if !(s.bench b).testCounts || decide (s.beat.periods < t.endAt) then s
    else
      let st := if (s.bench b).state = .testing then t.former else (s.bench b).state
      let count := s.beat.count
      ((s.endTest b pass st).modGlb fun g => { g with tests := g.tests.map fun j => j.tested b pass count }).endTests
def execSelfTestDone (b : Nat) (pass : Bool) (s : State) : Host.Outcome State Fault Refusal := done s (selfTestDoneEffect b pass)

/-! ## Calibration (R735 to R740) -/

/-- No partition has a task, a pending launch, a drain, a clamp or a buddy pause. -/
def Part.quiescent (x : Part) : Bool := !x.hasTask && !x.hasLaunch && x.ckp.drain.isNone && (match x.stop with
  | .pause _ => false
  | _ => true)
def State.quiescent (s : State) : Bool := s.parts.all Part.quiescent

/-- Beats of a calibration. -/
def calBeats (kind : Nat) : Nat := if kind = 0 then 20000 else 1024

/-- The calibration begins now; KIND 0 clears LOCKED. -/
def State.beginCal (s : State) (j : CalJob) : State :=
  let s' := s.modGlb fun g => { g with cal := some { j with begun := some (s.beat.count, s.beat.periods + calBeats j.kind) } }
  if j.kind = 0 then s'.modBeat fun b => { b with locked := false } else s'

/-- An admitted CALIBRATE; a second one while one waits or runs is turned away (log entry 23). -/
def State.calibrateAdmitted (id : PktId) (_p : Nat) (x : Pkt) (s : State) : State :=
  let kind := x.u 0x20 1
  if 1 < kind then s.refuse id 0xFF stSHAPE 0x52
  else if s.glb.cal.isSome then s.refuse id 0xFF stDEFERRED 0
  else if s.quiescent then s.beginCal { id := id, kind := kind }
  else s.modGlb fun g => { g with cal := some { id := id, kind := kind, deferred := true } }

/-- CALIBRATE. -/
def calibrateEffect (f : Nat) (s : State) : State := s.admitPkt f 0x33 State.calibrateAdmitted
def execCalibrate (f : Nat) (s : State) : Host.Outcome State Fault Refusal := done s (calibrateEffect f)

/-- CALIBRATE_START: at the first quiescent gate. -/
def calibrateStartEffect (s : State) : State := match s.glb.cal with
  | some j => if s.beat.gateOpen && j.begun.isNone && s.quiescent then s.beginCal j else s
  | none => s
def execCalibrateStart (s : State) : Host.Outcome State Fault Refusal := done s calibrateStartEffect

/-- CALIBRATE_DONE: the relock or retraining ends, and the completion joins. -/
def calibrateDoneEffect (s : State) : State := match s.glb.cal with
  | some j => (match j.begun with
    | some (beat, e) =>
      if s.beat.periods < e then s
      else
        let s := if j.kind = 0 then s.modBeat fun b => { b with locked := !b.lost } else s
        let s := (s.modGlb fun g => { g with cal := none }).finish j.id 0xFF (if j.deferred then stDEFERRED else stOK) 0 beat.toNat
        s.bar2Flush s.bar2Wait.length
    | none => s)
  | none => s
def execCalibrateDone (s : State) : Host.Outcome State Fault Refusal := done s calibrateDoneEffect

/-! ## Firmware (18 R763 to R768) -/

/-- ASCII "UBITHFW1". -/
def fwMagic : Bytes := [0x55, 0x42, 0x49, 0x54, 0x48, 0x46, 0x57, 0x31]
def fwVersion (img : Bytes) : Nat := Bytes.nat img 8 2
def fwSigner (img : Bytes) : Nat := Bytes.nat img 0xA 1

/-- The settings accept a firmware of this version and signer. -/
def State.fwAllowed (s : State) (version signer : Nat) : Bool := !bitOf (s.glue.value 4) signer && decide (s.glue.value 3 ≤ version)

/-- The image authenticates (R764). -/
def State.fwAuthentic (s : State) (img : Bytes) : Bool :=
  let body := Bytes.nat img 0xC 4
  Bytes.sub img 0 8 = fwMagic && decide (body ≤ 4194176) && decide (128 + body ≤ img.length) &&
    sha256 (Bytes.sub img 128 body) = Bytes.sub img 0x10 32 && decide (fwSigner img ≤ 3) &&
    Config.signerAccepts (fwSigner img) (Bytes.sub img 0 0x40) (Bytes.sub img 0x40 32) (Bytes.sub img 0x60 32) &&
    s.fwAllowed (fwVersion img) (fwSigner img)

/-- Version and signer of a bank where it authenticates; the image of manufacture is version 0 under signer 0 (log entry 26). -/
def State.bankId (s : State) (k : Nat) : Option (Nat × Nat) := match s.mgmt.banks.getD k none with
  | some img => if s.fwAuthentic img then some (fwVersion img, fwSigner img) else none
  | none => if s.fwAllowed 0 0 then some (0, 0) else none

/-- Step 2 of the start-up: the bank that runs, its version and signer (R765, R766). -/
def State.bootBank (s : State) : Option (Nat × Nat × Nat) := match s.bankId 0, s.bankId 1 with
  | some a, some b => if a.1 < b.1 then some (1, b) else some (0, a)
  | some a, none => some (0, a)
  | none, some b => some (1, b)
  | none, none => none

/-- The firmware starts, or start-up stops. -/
def State.bootFirmware (s : State) : State := match s.bootBank with
  | some (k, v, g) =>
    let s' := s.modMgmt fun m => { m with fwState := 1, bank := k, version := v, signer := g }
    if (s.bankId 0).isSome && (s.bankId 1).isSome then s' else s'.mgmtEvent 1
  | none => { s.modMgmt fun m => { m with fwState := 2 } with life := .noFirmware }

/-- FW_STAGE (R767). -/
def State.fwStageAdmitted (image : Xfer) (id : PktId) (_p : Nat) (x : Pkt) (s : State) : State :=
  match image with
  | .ok img =>
    if img.length != x.u 0x30 4 || decide (4194304 < img.length) || !s.fwAuthentic img then s.refuse id 0xFF stSHAPE 0x52
    else ((s.modMgmt fun m => { m with banks := m.banks.set (1 - m.bank) (some img) }).mgmtEvent 0).finish id 0xFF stOK 0
  | _ => s.refuse id 0xFF stSHAPE 0x52
def fwStageEffect (f : Nat) (image : Xfer) (s : State) : State := s.admitPkt f 0x34 (State.fwStageAdmitted image)
def execFwStage (f : Nat) (image : Xfer) (s : State) : Host.Outcome State Fault Refusal := done s (fwStageEffect f image)

/-! ## Two views of a unit (14 R632 to R637) -/

/-- Units of a kind: 0 bench, 1 ledger member, 2 store session. -/
def State.unitCount (s : State) (kind : Nat) : Nat := if kind = 0 then s.nSeats else if kind = 1 then 10 else 8
/-- Latch bit of a unit. -/
def latchBit (kind unit : Nat) : Nat := 16 * kind + unit

/-- The unit is in service: the views of one already taken out are not compared (DEDUCED, log entry 27). -/
def State.inService (s : State) (kind unit : Nat) : Bool :=
  if kind = 0 then
    let x := s.bench unit
    x.state != .fenced && x.state != .testing && x.power != 2 && s.life = .up && !s.glb.asleep
  else if kind = 1 then s.ldg.mounted && s.ldg.takes unit
  else (s.session unit).state = .connected

/-- The management view of a unit in service (R632, R785). -/
def State.mgmtView (s : State) (env : GateEnv) (kind unit : Nat) : Nat :=
  if kind = 0 then natOfBool (decide (0 < (s.bench unit).supplyBad) || !env.benchTemp.getD unit true || !(s.bench unit).testPass) else 0

/-- The data view of a unit. -/
def dataView (env : GateEnv) (kind unit : Nat) : Nat :=
  min 2 ((if kind = 0 then env.benchData else if kind = 1 then env.memberData else env.sessionData).getD unit 0)

/-- Consecutive gates at which the views of the unit disagreed. -/
def State.disagreed (s : State) (kind unit : Nat) : Nat :=
  if kind = 0 then (s.bench unit).disagree else if kind = 1 then s.ldg.disagree.getD unit 0 else (s.session unit).disagree
def State.setDisagreed (s : State) (kind unit n : Nat) : State :=
  if kind = 0 then s.modBench unit fun x => { x with disagree := n }
  else if kind = 1 then s.modLdg fun l => { l with disagree := l.disagree.set unit n }
  else s.modSession unit fun e => { e with disagree := n }

/-- The unit is taken out of service (R633 items 1 to 3, R637). -/
def State.takeOut (s : State) (kind unit : Nat) : State :=
  if kind = 0 then s.fence unit
  else if kind = 1 then State.ldgSettle s (s.loseMember unit)
  else s.sessionDown unit 0

/-- R633, R634: the latch bit, STATE_DISAGREE, and the capture of the first. -/
def State.latchUnit (s : State) (kind unit mgmt data : Nat) : State :=
  let first := !s.glb.disStatus.getLsbD 0
  let count := s.beat.count
  (s.modGlb fun g =>
    { g with disLatch := g.disLatch ||| (1#64 <<< latchBit kind unit), disStatus := setBit g.disStatus 0
             disCapture := if first then BitVec.ofNat 32 (kind + 16 * unit + 256 * mgmt + 4096 * data) else g.disCapture
             disBeat := if first then count else g.disBeat }).raise 2 0

/-- The comparison of one unit at a gate. -/
def State.compareUnit (s : State) (env : GateEnv) (kind unit : Nat) : State :=
  if !s.inService kind unit then s.setDisagreed kind unit 0
  else
    let m := s.mgmtView env kind unit
    let d := dataView env kind unit
    if m != 0 && d != 0 then (s.setDisagreed kind unit 0).takeOut kind unit
    else if m = 0 && d = 0 then s.setDisagreed kind unit 0
    else if s.disagreed kind unit = 0 then s.setDisagreed kind unit 1
    else ((s.setDisagreed kind unit 0).takeOut kind unit).latchUnit kind unit m d

/-- A tripped supply monitor reads UNUSABLE until it has read in tolerance for 16 consecutive gates (R785). -/
def State.supplyGate (s : State) (env : GateEnv) : State :=
  { s with benches := s.benches.zipIdx.map fun y =>
      { y.1 with supplyBad := if y.1.supplyBad = 0 then 0 else if env.supplyOk.getD y.2 true then y.1.supplyBad - 1 else 16 } }

/-- The comparison of every unit at a gate (R633). -/
def State.compareAll (s : State) (env : GateEnv) : State :=
  let s := s.supplyGate env
  [0, 1, 2].foldl (fun s kind => (List.range (s.unitCount kind)).foldl (fun s unit => s.compareUnit env kind unit) s) s

/-- SUPPLY_MONITOR_TRIP (R785). -/
def supplyMonitorTripEffect (b : Nat) (s : State) : State := s.modBench b fun x => { x with supplyBad := 16 }
def execSupplyMonitorTrip (b : Nat) (s : State) : Host.Outcome State Fault Refusal := done s (supplyMonitorTripEffect b)

/-- RECONCILE (R636): both views are probed afresh; a view above 2 stands for NO_RESPONSE. -/
def State.reconcileAdmitted (mgmt data : Nat) (id : PktId) (_p : Nat) (x : Pkt) (s : State) : State :=
  let kind := x.u 0x20 1
  let unit := x.u 0x21 1
  let m := min mgmt 2
  let d := min data 2
  if 2 < kind || decide (s.unitCount kind ≤ unit) then s.refuse id 0xFF stSHAPE 0x52
  else if (m = 0) != (d = 0) then s.refuse id 0xFF stDISAGREE 0
  else
    let s := if s.latched (latchBit kind unit) then (s.modGlb fun g =>
      { g with disLatch := g.disLatch &&& ~~~(1#64 <<< latchBit kind unit), disStatus := setBit g.disStatus 1 }).raise 2 1 else s
    s.finish id 0xFF stOK 0 (m + 16 * d)
def reconcileEffect (f mgmt data : Nat) (s : State) : State := s.admitPkt f 0x0A (State.reconcileAdmitted mgmt data)
def execReconcile (f mgmt data : Nat) (s : State) : Host.Outcome State Fault Refusal := done s (reconcileEffect f mgmt data)

end Sys2Proof.Machine
end

