-- ==== Sys2Proof/Machine/Gpio.lean ====
section
/-! DEFINITION. GPIO pins and the Ubith core's management duties (18_gpio_and_management_core.md R741 to R774), and the interrupt outputs of the
physical function (16_interrupts.md R685 to R687). -/

namespace Sys2Proof.Machine

/-! ## What the pins drive (R741 to R747) -/

/-- A task in progress whose PART_RUN_CLASS.CLASS_BT is clear. -/
def Part.classB (x : Part) : Bool := x.hasTask && !x.classBT

/-- F0 STATUS of a pin. -/
def State.pinStatus (s : State) (n : Nat) : Bool :=
  if n < 6 then decide (n < s.nParts) && (s.part n).hasTask
  else if n < 12 then decide (n - 6 < s.nParts) && (s.part (n - 6)).classB
  else if n < 25 then decide (n - 12 < s.nSeats) && (s.bench (n - 12)).state = .fenced
  else if n = 25 then s.ldg.status = 2
  else if n = 26 then s.ldg.status = 0 || s.ldg.status = 3 || s.ldg.status = 4
  else if n = 27 then s.beat.aligned
  else if n = 28 then s.beat.holdover
  else if n = 29 then s.irqPending
  else if n = 30 then s.glb.ready
  else s.glb.asleep

/-- The running beat is a gate beat (R57, R75). -/
def State.gateBeat (s : State) : Bool := s.beat.started && s.beat.count.toNat % 16 = 0

/-- F1 STROBE of a pin; none where it is reserved. -/
def State.pinStrobe (s : State) (n : Nat) : Option Bool :=
  if n < 6 then some (s.gpio.launched.contains n)
  else if n < 12 then some (s.gpio.doneNow.contains (n - 6))
  else if n < 20 then some s.gateBeat
  else if n < 25 then some s.beat.epochBeat
  else none

/-- The 4-bit field of a pin in GPIO_FUNC_EN. -/
def Gpio.field (g : Gpio) (n : Nat) : Nat := (g.funcEn.getD (n / 8) 0).toNat / 2 ^ (4 * (n % 8)) % 16

/-- The level that a pin drives; none while it is released (R745 to R747). -/
def State.pinDrive (s : State) (n : Nat) : Option Bool :=
  let f := s.gpio.field n
  let out := s.gpio.outValue.getLsbD n
  if s.life = .off then none
  else if bitOf f 0 then some (s.pinStatus n)
  else if bitOf f 1 then s.pinStrobe n
  else if bitOf f 2 then (if out then none else some false)
  else if bitOf f 3 then some out
  else none

/-- A 32-bit word from its bits. -/
def wordOf (f : Nat → Bool) : W32 := BitVec.ofNat 32 ((List.range 32).foldl (fun acc n => acc + (if f n then 2 ^ n else 0)) 0)

/-- The sample of every pin: its own level where the device drives it, the board's otherwise (R748). -/
def State.pinSample (s : State) (pins : W32) : W32 := wordOf fun n => (s.pinDrive n).getD (pins.getLsbD n)

/-! ## Input filtering and pin interrupts (R757 to R761) -/

/-- The sample joins each pin's count of consecutive differing samples. -/
def Gpio.sample (g : Gpio) (w : W32) : Gpio :=
  { g with inRaw := w, differing := g.differing.zipIdx.map fun y =>
      if w.getLsbD y.2 != g.filtered.getLsbD y.2 then y.1 + 1 else 0 }

/-- The filtered level of a pin is due to change (R757). -/
def Gpio.changes (g : Gpio) (n : Nat) : Bool := decide (n < 32) && decide (g.debounce.getD n 0 < g.differing.getD n 0)

/-- The change is one that the pin's INT_MODE selects (R759). -/
def Gpio.selects (g : Gpio) (n : Nat) (rising : Bool) : Bool := bitOf (g.intMode.toNat / 4 ^ n % 4) (if rising then 0 else 1)

/-- A pin event at a beat: its status bit, and the capture of the first since the status was all zero, the lowest pin of a sample
(R761). -/
def Gpio.event (g : Gpio) (n : Nat) (rising : Bool) (beat : W64) : Gpio :=
  let take := g.intStatus = 0#32 || (g.intBeat = beat && decide (n < g.capPin))
  { g with intStatus := setBit g.intStatus n, capPin := if take then n else g.capPin
           capRising := if take then rising else g.capRising, intBeat := if take then beat else g.intBeat }

/-- The filtered level of a pin changes. -/
def Gpio.change (g : Gpio) (n : Nat) (beat : W64) : Gpio :=
  let rising := !g.filtered.getLsbD n
  let g := { g with filtered := g.filtered ^^^ (1#32 <<< n), differing := g.differing.set n 0 }
  if g.selects n rising then g.event n rising beat else g

/-- GPIO_FILTER_CHANGE: the (D + 1)-th consecutive differing sample. -/
def gpioFilterChangeEffect (pin : Nat) (s : State) : State :=
  let count := s.beat.count
  if !s.gpio.changes pin then s
  else
    let s' := s.modGpio fun g => g.change pin count
    if s.gpio.selects pin (!s.gpio.filtered.getLsbD pin) then s'.raise 4 pin else s'
def execGpioFilterChange (pin : Nat) (s : State) : Host.Outcome State Fault Refusal := done s (gpioFilterChangeEffect pin)

/-! ## Host writes (R749 to R754, R758, R760) -/

/-- The physical function's write is applied. -/
def State.gpioTakes (s : State) (fn : Nat) : Bool := s.running && fn = 0

/-- GPIO_OUT_WRITE as one 64-bit access: MASK in the low half, VALUE in the high half (R751, R752). -/
def Gpio.writeOut (g : Gpio) (v : W64) : Gpio :=
  let mask := v.setWidth 32
  let value := (v >>> 32).setWidth 32
  { g with outValue := (g.outValue &&& ~~~mask) ||| (value &&& mask) }
def gpioOutWriteEffect (fn : Nat) (value : W64) (s : State) : State :=
  if s.gpioTakes fn then s.modGpio fun g => g.writeOut value else s
def execGpioOutWrite (fn : Nat) (value : W64) (s : State) : Host.Outcome State Fault Refusal := done s (gpioOutWriteEffect fn value)

/-- GPIO_FUNC_EN_GROUPw. -/
def Gpio.writeFunc (g : Gpio) (w : Nat) (v : W32) : Gpio := { g with funcEn := g.funcEn.set w v }
def gpioFuncEnWriteEffect (fn group : Nat) (value : W32) (s : State) : State :=
  if s.gpioTakes fn then s.modGpio fun g => g.writeFunc group value else s
def execGpioFuncEnWrite (fn group : Nat) (value : W32) (s : State) : Host.Outcome State Fault Refusal :=
  done s (gpioFuncEnWriteEffect fn group value)

/-- GPIO_DEBOUNCE_PINn: the pin's count restarts, and its filtered level stays (R758). -/
def Gpio.writeDebounce (g : Gpio) (n : Nat) (v : W32) : Gpio :=
  { g with debounce := g.debounce.set n (v.toNat % 65536), differing := g.differing.set n 0 }
def gpioDebounceWriteEffect (fn pin : Nat) (value : W32) (s : State) : State :=
  if s.gpioTakes fn then s.modGpio fun g => g.writeDebounce pin value else s
def execGpioDebounceWrite (fn pin : Nat) (value : W32) (s : State) : Host.Outcome State Fault Refusal :=
  done s (gpioDebounceWriteEffect fn pin value)

/-- A half of a 64-bit register takes a 32-bit write (R812); half 0 is the low one. -/
def setHalf (r : W64) (half : Nat) (v : W32) : W64 :=
  if half = 0 then (r &&& 0xFFFFFFFF00000000#64) ||| v.setWidth 64 else (r &&& 0xFFFFFFFF#64) ||| (v.setWidth 64 <<< 32)

/-- A half of GPIO_INT_MODE. -/
def gpioIntModeWriteEffect (fn half : Nat) (value : W32) (s : State) : State :=
  if s.gpioTakes fn then s.modGpio fun g => { g with intMode := setHalf g.intMode half value } else s
def execGpioIntModeWrite (fn half : Nat) (value : W32) (s : State) : Host.Outcome State Fault Refusal :=
  done s (gpioIntModeWriteEffect fn half value)

/-! ## Temperatures (R774) -/

def noReading : BitVec 16 := 0x8000
/-- Installed HBM stacks. -/
def State.nStacks (s : State) : Nat := if s.isC then 4 else 8

/-- TEMP_SAMPLE: every 16,384 beats. -/
def tempSampleEffect (bench hbm : List (BitVec 16)) (s : State) : State :=
  if s.mgmt.sampleIn != 0 || !s.running then s
  else
    let s := { s with benches := s.benches.zipIdx.map fun (y : Bench × Nat) =>
      { y.1 with temp := if y.2 < s.nSeats && y.1.power != 2 then bench.getD y.2 noReading else noReading } }
    let n := s.nStacks
    s.modMgmt fun m => { m with sampleIn := 16384, hbmTemp := (List.range 8).map fun k => if k < n then hbm.getD k noReading else noReading }
def execTempSample (bench hbm : List (BitVec 16)) (s : State) : Host.Outcome State Fault Refusal := done s (tempSampleEffect bench hbm)

/-- The temperature word of a bench, and of an HBM stack. -/
def State.benchTemp (s : State) (k : Nat) : BitVec 16 :=
  if k < s.nSeats && (s.bench k).power != 2 then (s.bench k).temp else noReading
def State.hbmTempOf (s : State) (k : Nat) : BitVec 16 := if k < s.nStacks then s.mgmt.hbmTemp.getD k noReading else noReading

/-- The highest reading of any sensor. -/
def State.tempMax (s : State) : BitVec 16 :=
  ((List.range 13).map s.benchTemp ++ (List.range 8).map s.hbmTempOf).foldl (fun best t => if best.slt t then t else best) noReading

/-! ## SMBus (R771 to R773) -/

/-- The SMBus port answers: not in P4, and not after a thermal trip. -/
def State.smbusAnswers (s : State) : Bool := s.life != .off && s.life != .tripped

/-- A listed read; a PEC error on it sets SMBUS_PEC_ERROR (R772). -/
def State.smbusRead (s : State) (pecError : Bool) (data : Bytes) : State :=
  if !s.smbusAnswers then s
  else
    let s := if pecError then s.mgmtEvent 2 else s
    s.emit (.smbus data)

/-- GLB_PART_IDENT. -/
def Fuses.partIdent (f : Fuses) : W64 :=
  let c := f.grade = .C
  BitVec.ofNat 64 (f.gradeCode + 2 ^ 8 * f.steppingCode + 2 ^ 16 + 2 ^ 24 + 2 ^ 32 * (if c then 9 else 13) + 2 ^ 36 * (if c then 4 else 8) +
    2 ^ 48 * 0x4C4E)

/-- SMBUS_IDENT, code 0x00. -/
def smbusIdentEffect (pec : Bool) (s : State) : State :=
  s.smbusRead pec (leBytes 8 s.fuses.partIdent.toNat ++ leBytes 8 s.fuses.serial.toNat)
def execSmbusIdent (pec : Bool) (s : State) : Host.Outcome State Fault Refusal := done s (smbusIdentEffect pec)

/-- SMBUS_FW_STATUS, code 0x01. -/
def smbusFwStatusEffect (pec : Bool) (s : State) : State :=
  s.smbusRead pec (leBytes 1 s.mgmt.fwState ++ leBytes 1 s.mgmt.bank ++ leBytes 2 s.mgmt.version)
def execSmbusFwStatus (pec : Bool) (s : State) : Host.Outcome State Fault Refusal := done s (smbusFwStatusEffect pec)

/-- SMBUS_ASSET_TAG, code 0x02. -/
def smbusAssetTagEffect (pec : Bool) (s : State) : State :=
  s.smbusRead pec (leBytes 8 (s.glue.value 12) ++ leBytes 8 (s.glue.value 13))
def execSmbusAssetTag (pec : Bool) (s : State) : Host.Outcome State Fault Refusal := done s (smbusAssetTagEffect pec)

/-- SMBUS_STATUS, code 0x03. -/
def smbusStatusEffect (pec : Bool) (s : State) : State :=
  s.smbusRead pec (leBytes 1 (natOfBool s.glb.ready + 2 * natOfBool s.glb.asleep + 4 * natOfBool (s.pinStatus 26) +
    8 * natOfBool (s.benches.any fun x => x.state = .fenced)))
def execSmbusStatus (pec : Bool) (s : State) : Host.Outcome State Fault Refusal := done s (smbusStatusEffect pec)

/-- SMBUS_TEMP_MAX, code 0x04. -/
def smbusTempMaxEffect (pec : Bool) (s : State) : State := s.smbusRead pec (leBytes 2 s.tempMax.toNat)
def execSmbusTempMax (pec : Bool) (s : State) : Host.Outcome State Fault Refusal := done s (smbusTempMaxEffect pec)

/-- A command code that is not listed is NACKed (R771). -/
def State.smbusUnlisted (s : State) : State := if s.smbusAnswers then s.emit .smbusNack else s

/-- SMBUS_BENCH_TEMP, codes 0x10 to 0x1C. -/
def smbusBenchTempEffect (k : Nat) (pec : Bool) (s : State) : State :=
  if 12 < k then s.smbusUnlisted else s.smbusRead pec (leBytes 2 (s.benchTemp k).toNat)
def execSmbusBenchTemp (k : Nat) (pec : Bool) (s : State) : Host.Outcome State Fault Refusal := done s (smbusBenchTempEffect k pec)

/-- SMBUS_HBM_TEMP, codes 0x20 to 0x27. -/
def smbusHbmTempEffect (k : Nat) (pec : Bool) (s : State) : State :=
  if 7 < k then s.smbusUnlisted else s.smbusRead pec (leBytes 2 (s.hbmTempOf k).toNat)
def execSmbusHbmTemp (k : Nat) (pec : Bool) (s : State) : Host.Outcome State Fault Refusal := done s (smbusHbmTempEffect k pec)

/-- SMBUS_NACK: a write transaction or an unlisted code. -/
def execSmbusNack (s : State) : Host.Outcome State Fault Refusal := done s State.smbusUnlisted

/-! ## Interrupt outputs (R685 to R687) -/

/-- IRQ_N is driven low; it is released in P4 and after a trip. -/
def State.irqN (s : State) : Bool := s.running && s.irqPending && s.irq.pinEn

/-- IRQ_EOI: a further message while the interrupt is pending. -/
def irqEoiEffect (fn : Nat) (word : W32) (s : State) : State :=
  if s.running && fn = 0 && word.getLsbD 0 && s.irqPending then s.pfMessage else s
def execIrqEoi (fn : Nat) (word : W32) (s : State) : Host.Outcome State Fault Refusal := done s (irqEoiEffect fn word)

/-- MSIX_VECTOR_UNMASK: the vector sends from now on, and a held message is sent. -/
def msixUnmaskEffect (s : State) : State :=
  let held := s.irq.msixPending
  let s := s.modIrq fun i => { i with msixEnabled := true, msixPending := false }
  if held then s.emit (.msix 0) else s
def execMsixVectorUnmask (s : State) : Host.Outcome State Fault Refusal := done s msixUnmaskEffect

end Sys2Proof.Machine
end

