-- ==== Sys2Proof/Machine/Reset.lean ====
section
/-! DEFINITION. Resets (17_resets_power_states_glue.md R695 to R708, R721, R726), the start-up sequence (R696), bench power states and package
sleep (R709 to R720), and the thermal trip (19_package_power_signals.md R801 to R803). -/

namespace Sys2Proof.Machine

/-! ## What survives a package-wide loss (R721) -/

/-- The stripe that a cut leaves torn is abandoned: the next stripe names it (R520, R527). -/
def Ledger.tornStripe (l : Ledger) : Option Nat := match l.prog with
  | some g => if g.anchor.isNone then some g.stripe.num else l.abandoned
  | none => l.abandoned

/-- The ledger before its next mount: what NAND holds and, at a package reset, the stage; other registers are lost. -/
def Ledger.kept (l : Ledger) (stage : Bool) : Ledger :=
  { stripes := l.stripes, anchors := l.anchors, rows := l.rows, retired := l.retired, lossMap := l.lossMap, dir := l.dir
    anchorPages := l.anchorPages, grownBad := l.grownBad, geometry := l.geometry, nextStripe := l.nextStripe, nextStream := l.nextStream
    members := l.members, curRow := l.curRow, curPage := l.curPage, tail := l.tail, abandoned := l.tornStripe
    stage := if stage then l.stage.map fun e => { e with inStripe := none, at_ := none } else [] }

/-- Glued settings and slots: the values in force from this start-up; SLOT_TORN where a program was cut (R722, R726). -/
def Glue.restart (g : Glue) (por : Bool) : Glue :=
  let torn := g.torn || (por && !g.jobs.isEmpty)
  { values := g.values, used := g.used, event := if torn then 4 else 0, smbusAddress := g.value 11, subsystemId := g.value 6
    maxRate := g.value 5, jtagDisable := if por then g.value 15 = 1 else g.jtagDisable, onfiRate := g.onfiRate }

/-- A package without its volatile state. -/
def State.blank (s : State) (stage : Bool) : State :=
  { pending := s.pending, start := s.start, fuses := s.fuses, ldg := s.ldg.kept stage, mgmt := { banks := s.mgmt.banks }, glue := s.glue
    out := s.out, freeCtr := s.freeCtr }

/-- Start-up from its step 1 to the wait for lock (R696 steps 1 to 3). LAST_START: 0 POR, 1 PKG by register, 2 PKG by PERST#. -/
def State.startUp (s : State) (env : StartEnv) (last : Nat) : State :=
  let g := s.glue.restart (last = 0)
  let t := s.blank (last != 0)
  State.bootFirmware { t with start := env, glue := g, beat := { mActive := g.value 0, lines := s.beat.lines }, glb := { lastStart := last }, life := .awaitLock }

/-- POR is released. -/
def porEffect (env : StartEnv) (s : State) : State := s.startUp env 0
def execPor (env : StartEnv) (s : State) : Host.Outcome State Fault Refusal := done s (porEffect env)

/-! ## Package reset (R627 to R630, R699) -/

/-- Every page program already issued completes; the stripe is complete where none is left to issue. -/
def State.finishPages (s : State) : State := match s.ldg.prog with
  | some g => if g.rest.isEmpty && g.more.isEmpty then s.completeStripe { g with issued := [], id := none } else s
  | none => s

/-- A glue slot program in progress completes. -/
def State.finishSlot (s : State) : State := match s.glue.jobs with
  | j :: _ => (s.setGlue j.setting j.value).modGlue fun g => { g with jobs := [] }
  | [] => s

/-- A package reset: no completion is posted, and start-up begins. -/
def State.packageReset (s : State) (env : StartEnv) (last : Nat) : State := (s.finishPages.finishSlot).startUp env last

/-- PERST_ASSERT, on a powered package. -/
def perstAssertEffect (env : StartEnv) (s : State) : State := if s.smbusAnswers then s.packageReset env 2 else s
def execPerstAssert (env : StartEnv) (s : State) : Host.Outcome State Fault Refusal := done s (perstAssertEffect env)

/-! ## The end of a task by a reset (R401 to R404, R625) -/

/-- The partition's task ends at once: TORN where an outbound burst of the named cores is cut (R403, R676), else with its first cause
where it was already to end, else as named. Its issued writes complete. -/
def State.cutTask (s : State) (p : Nat) (cores : List (Nat × Nat)) (detail : Nat) : State :=
  let e := s.cutEnding cores 0 (match (s.part p).stop with
    | .abort e => e
    | _ => { status := stABORTED, detail := detail })
  let s := (s.finishWrites p).dropClamp p
  s.closeTask p (if e.torn then 2 else 1) e.status e.detail e.r1.toNat true .loaded

/-- A takeover or bypass held for the partition is withdrawn, and its bit of WAITING clears; its other changes stay (R721 note 1). -/
def State.withdrawSplices (s : State) (p : Nat) : State :=
  let left (rs : List SpliceReq) : List SpliceReq :=
    (rs.filter fun r => !(r.part = p && r.replaces)).map fun r => if r.part = p then { r with shown := false } else r
  s.modRing fun r => { r with waiting := left r.waiting, window := r.window.map fun w => { w with reqs := left w.reqs } }

/-- A takeover or bypass is held for the partition. -/
def State.spliceHeld (s : State) (p : Nat) : Bool := s.ring.requests.any fun r => r.part = p && r.replaces

/-! ## BCH (R702, R703, R707) -/

/-- The bench's cores as the loader left them, an adopted slot in the upper halves. -/
def State.reprogram (s : State) (p b : Nat) : State :=
  let img := (s.part p).img
  let own := s.ownSlot p b
  let shift := 64 * ((s.part p).tallyBlocks / 2)
  s.modBench b fun x => { x with cores := x.cores.zipIdx.map fun y =>
    let k := y.1.program img own y.2
    match (s.part p).adopted.find? fun a => a.2 = own with
    | some a => k.adopts (y.1.program img a.1 y.2) shift
    | none => k }

/-- Step 5 of R702: the bench's logical slot is loaded from its current buddy slots, from a cycle on. -/
def State.reloadBench (s : State) (p b from_ : Nat) : State :=
  let k := s.ownSlot p b
  let s := (s.reprogram p b).buddyLoad p k (List.range slotPages)
  let s := match (s.part p).adopted.find? fun a => a.2 = k with
    | some a => s.buddyLoad p a.1 shrinkPages
    | none => s
  let s := s.modBench b fun x => { x with reloadUntil := some (from_ + 32 * slotPages) }
  s.modPart p fun x => { x with stop := match x.stop with
    | .none => .load (from_ + 32 * slotPages) 2
    | .load e j => .load (max e (from_ + 32 * slotPages)) j
    | z => z }

/-- The hurdles of a bench's partition, at a reset of the bench or of an engine. -/
def State.clearHurdles (s : State) (p : Nat) : State := (s.resetHurdles p).modPart p fun x => { x with hrdFault := 0 }

/-- A wider reset took effect in this core cycle (R706). -/
def State.widerReset (s : State) (rank : Nat) : Bool := match s.glb.resetMark with
  | some (cycle, r) => cycle = s.now && decide (rank < r)
  | none => false
def State.markReset (s : State) (rank : Nat) : State := if s.widerReset rank then s else s.modGlb fun g => { g with resetMark := some (s.now, rank) }

/-- The bench's BCH sequence is running: its steps 1 to 4, or the buddy load of step 5. -/
def State.inSequence (s : State) (b : Nat) : Bool :=
  (s.bench b).resetUntil.isSome || ((s.bench b).reloadUntil.any fun e => decide (s.now < e)) && (match s.benchPart b with
    | some p => (match (s.part p).stop with
      | .load .. => true
      | _ => false)
    | none => false)

/-- A BCH (1) or ENG (0) request for a bench is discarded: a grade without the bench, R706 or R707. -/
def State.resetDiscarded (s : State) (b rank : Nat) : Bool := decide (s.nSeats ≤ b) || s.inSequence b || s.widerReset rank

/-- A BCH reset of a bench. Its zero-fill ends within 2,048 beats, at a free value (log entry 3). -/
def State.resetBench (s : State) (b : Nat) : State :=
  if s.resetDiscarded b 1 then s
  else
    let s := s.markReset 1
    let st : BState := (s.bench b).state
    let owner := s.benchPart b
    let s := match owner with
      | some p => (if st = BState.active || st = BState.bypassed then s.cutTask p [(b, 0), (b, 1)] 0x6C else s).clearHurdles p
      | none => s
    let (v, s) := s.fresh
    let e := s.now + v % (2048 * s.m + 1)
    let s := s.modBench b fun x => { x.resetAll with resetUntil := some e }
    match owner with
    | some p =>
      let held := s.spliceHeld p
      let s := s.withdrawSplices p
      if held || (st = BState.active && !((s.part p).ckp.buddyOn && (s.part p).prog.isSome)) then s.unload p
      else if st = BState.active then s.reloadBench p b e
      else s
    | none => s

/-- The fields BENCH, CORE and ENGINE of GLB_RESET_CONTROL. -/
def State.writeResetFields (s : State) (w : W32) : State := s.modGlb fun g =>
  { g with rcBench := bitsOf w.toNat 11 8, rcCore := bitsOf w.toNat 12 12, rcEngine := bitsOf w.toNat 15 13 }

/-! ## ENG (R704, R705) -/

/-- A core after the reset of its engine e. -/
def Core.resetEngine (k : Core) (e : Nat) : Core :=
  let k := { k with
    queues := k.queues.zipIdx.map fun (y : Queue × Nat) =>
      if engineOf y.2 = e then { y.1.quiet with head := 0, tail := 0, status := 0, ended := false, stepHeads := [], stepsDone := 0, stepAt := 0 } else y.1
    ctxState := List.replicate 8 0, steals := 0, busyUntil := k.busyUntil.set e 0, lastIssue := k.lastIssue.set e 0 }
  if e = 0 then k.modMx fun m => { m with gens := List.replicate 4 {}, jogCmdEnd := 0, arrays := m.arrays.map fun a =>
      { a.quiet with accOpen := false, held := none, holdBias := false, gated := true, jogRun := 0 } }
  else if e = 3 then k.modDma fun d => { d with slots := d.slots.map Slot.quiet, dowels := [], reads := [], writes := [], trans := [] }
  else if e = 4 then { k with plb := { k.plb with job := none } }
  else k

/-- An ENG reset of one engine of one core of a bench. -/
def State.resetEngine (s : State) (b c e : Nat) : State :=
  if 4 < e || s.resetDiscarded b 0 then s
  else
    let s := match s.benchPart b with
      | some p => (s.cutTask p (if e = 3 then [(b, c)] else []) 0x6C).clearHurdles p
      | none => s
    s.modCore b c fun k => k.resetEngine e

/-- A write of GLB_RESET_CONTROL: of the resets that it asks for, the widest (R706). -/
def State.writeResetControl (s : State) (w : W32) (env : StartEnv) : State :=
  let s := s.writeResetFields w
  if w.getLsbD 0 then s.packageReset env 1
  else if w.getLsbD 1 then s.resetBench s.glb.rcBench
  else if w.getLsbD 2 then s.resetEngine s.glb.rcBench s.glb.rcCore s.glb.rcEngine
  else s

/-- PKG_RESET: a write of GLB_RESET_CONTROL with what the environment shows at the start-up that it causes. -/
def pkgResetEffect (fn : Nat) (word : W32) (env : StartEnv) (s : State) : State :=
  if s.running && fn = 0 then s.writeResetControl word env else s
def execPkgReset (fn : Nat) (word : W32) (env : StartEnv) (s : State) : Host.Outcome State Fault Refusal := done s (pkgResetEffect fn word env)

/-- BENCH_RESET: a write of GLB_RESET_CONTROL; bit 0 would still reset the package, its environment as at the last start-up. -/
def benchResetEffect (fn : Nat) (word : W32) (s : State) : State :=
  if s.running && fn = 0 then s.writeResetControl word s.start else s
def execBenchReset (fn : Nat) (word : W32) (s : State) : Host.Outcome State Fault Refusal := done s (benchResetEffect fn word)

/-- ENGINE_RESET: a write of GLB_RESET_CONTROL, likewise. -/
def engineResetEffect (fn : Nat) (word : W32) (s : State) : State :=
  if s.running && fn = 0 then s.writeResetControl word s.start else s
def execEngineReset (fn : Nat) (word : W32) (s : State) : Host.Outcome State Fault Refusal := done s (engineResetEffect fn word)

/-! ## FLR (R625, R626, R700, R701, R708) and the physical function's (R642) -/

/-- A pending launch of the partition is cancelled; it has no completion of a reset function (R626). -/
def State.dropLaunch (s : State) (p : Nat) : State := match (s.part p).launch with
  | some t => (s.unreserve.finish t.id p stABORTED 0 0xFFFFFFFFFFFFFFFF).modPart p fun x => { x with launch := none }
  | none => s

/-- Packets in work on the partition's program or memory take no effect. -/
def State.dropWork (s : State) (p : Nat) : State :=
  let ids := (match (s.part p).load with
    | some j => [j.id]
    | none => []) ++ (match (s.part p).await with
    | some a => [a.1]
    | none => [])
  (ids.foldl (fun s id => s.finish id p stDEFERRED 0) s).modPart p fun x => { x with load := none, await := none }

/-- The partition's own registers that an FLR loses. -/
def Part.flr (x : Part) : Part :=
  { x with stop := .none, credit := false, balance := false, shrink := false, minActive := 0, classBT := false, mask := 0, shiftGates := 0
           hrdFault := 0, ckp := { x.ckp.disarm.buddyOff with nvme := 0 } }

/-- FLR of virtual function p + 1. Its high-half latches are dropped (DESIGN CHOICE, log entry 31). -/
def flrEffect (p : Nat) (s : State) : State :=
  if !s.running || 5 < p then s
  else
    let s := { (s.markReset 2).modFn (p + 1) fun a => { epoch := a.epoch + 1 } with
      hiLatch := s.hiLatch.set (p + 1) [], bar2Wait := s.bar2Wait.filter fun w => w.1 != p + 1 }
    if !(s.part p).used || (s.part p).destroying.isSome then s
    else
      let s := ((s.cutTask p (s.arcCores p) 0).dropLaunch p).dropWork p
      let s := (s.tearDrain p).withdrawSplices p
      let s := ((s.unload p).resetHurdles p).modPart p Part.flr
      s.modArc p Bench.resetAll
def execFlr (p : Nat) (s : State) : Host.Outcome State Fault Refusal := done s (flrEffect p)

/-- FLR of the physical function. Its high-half latches are dropped (DESIGN CHOICE, log entry 31). -/
def pfFlrEffect (s : State) : State :=
  if !s.running then s
  else { ((s.markReset 2).modFn 0 fun a => { epoch := a.epoch + 1 }).modIrq fun i => { i with pfCompletion := false, msixEnabled := false, msixPending := false } with
    hiLatch := s.hiLatch.set 0 [], bar2Wait := s.bar2Wait.filter fun w => w.1 != 0 }
def execPfFlr (s : State) : Host.Outcome State Fault Refusal := done s pfFlrEffect

/-! ## Bench power states (R709 to R714) -/

/-- A takeover of the partition is in progress. -/
def State.takeoverOf (s : State) (p : Nat) : Bool := s.ring.takeovers.any (fun r => r.part = p) || (s.part p).recovering

/-- No task, pending launch, clamp or buddy pause. -/
def Part.atRest (x : Part) : Bool := !x.hasTask && !x.hasLaunch && (match x.stop with
  | .pause _ => false
  | _ => true)

/-- The bench may enter a state now (R710). -/
def State.powerOk (s : State) (b target : Nat) : Bool :=
  let x := s.bench b
  x.test.isNone && x.resetUntil.isNone &&
    (if target = 1 then (match s.benchPart b with
      | some p => (s.part p).atRest && !s.takeoverOf p
      | none => true)
     else if target = 2 then x.state = .unassigned || x.state = .spare || x.state = .fenced
     else true)

/-- A requested bench state takes effect at a gate: P1 in or out in 16 beats, P2 in 64, P2 out through a self-test (R709, R711). From P2
a request of P1 first leads to P0. -/
def benchPowerTransitionEffect (b : Nat) (s : State) : State :=
  let x := s.bench b
  let now := s.beat.periods
  if !s.beat.gateOpen || s.nSeats ≤ b || x.powerMove.isSome || x.power = x.powerReq || s.glb.asleep then s
  else if x.power = 2 then (if x.test.isNone then s.startTest b .p2exit else s)
  else if !s.powerOk b x.powerReq then s
  else s.modBench b fun y => { y with powerMove := some (y.powerReq, now + (if y.powerReq = 2 then 64 else 16)) }
def execBenchPowerTransition (b : Nat) (s : State) : Host.Outcome State Fault Refusal := done s (benchPowerTransitionEffect b)

/-! ## Package sleep (R715 to R719) -/

/-- The gate's conditions for P3 (R715). -/
def State.mayRest (s : State) : Bool :=
  s.quiescent && s.ldg.prog.isNone && s.ldg.rebuild.isNone && s.ring.requests.isEmpty && s.glb.cal.isNone

/-- PACKAGE_SLEEP_ENTRY: steps 1 to 6 of R716; ASLEEP follows within 2,000 beats (R709). -/
def packageSleepEntryEffect (s : State) : State :=
  if !s.beat.gateOpen || !s.glb.sleep || s.glb.asleep || s.glb.sleepMove.isSome || s.glb.waking || !s.glb.ready || !s.mayRest then s
  else
    let now := s.beat.periods
    let s := (List.range 8).foldl (fun s i => (s.sessionDown i 0).modSession i fun _ => {}) s
    let s := (List.range 6).foldl (fun s p => ((s.dropWork p).unload p).modPart p fun x => { x with ckp := {}, stop := .none, hrdFault := 0 }) s
    { s.modGlb fun g => { g with sleepMove := some (now + 2000) } with
      benches := s.benches.map fun x => { x.resetAll with powerMove := none, resetUntil := none, reloadUntil := none } }
def execPackageSleepEntry (s : State) : Host.Outcome State Fault Refusal := done s packageSleepEntryEffect

/-- Every bench exits as from P2, within the 70,000 beats of the package's exit (R709, R719). -/
def State.wakePackage (s : State) : State :=
  let end_ := s.beat.periods + 70000
  let s := s.modGlb fun g => { g with asleep := false, waking := true }
  (List.range s.nSeats).foldl (fun s b => match (s.bench b).test with
    | some t => s.modBench b fun x => { x with power := 0, test := some { t with endAt := end_ } }
    | none => (s.beginTest b .p2exit).modBench b fun x => { x with test := x.test.map fun t => { t with endAt := end_ } }) s

/-- A write of GLB_PKG_POWER. -/
def State.writePkgPower (s : State) (w : W32) : State :=
  let s := s.modGlb fun g => { g with sleep := w.getLsbD 0 }
  if s.glb.asleep && !s.glb.sleep then s.wakePackage else s
def sleepExitEffect (fn : Nat) (word : W32) (s : State) : State := if s.running && fn = 0 then s.writePkgPower word else s
def execSleepExit (fn : Nat) (word : W32) (s : State) : Host.Outcome State Fault Refusal := done s (sleepExitEffect fn word)

/-- The end of a bench's transition: the state is in force, and P2 loses what the bench held. -/
def State.endBenchMove (s : State) (b : Nat) : State := match (s.bench b).powerMove with
  | some (t, e) =>
    if s.beat.periods < e then s
    else s.modBench b fun x => { (if t = 2 then x.resetAll else x) with power := t, powerMove := none }
  | none => s

/-- The end of the entry to P3. -/
def State.endSleepMove (s : State) : State := match s.glb.sleepMove with
  | some e =>
    if s.beat.periods < e then s
    else
      let s := s.modGlb fun g => { g with asleep := true, sleepMove := none }
      if s.glb.sleep then s else s.wakePackage
  | none => s

/-- POWER_TRANSITION_DONE, of a bench or of the package. -/
def powerTransitionDoneEffect (b : Option Nat) (s : State) : State := match b with
  | some k => s.endBenchMove k
  | none => s.endSleepMove
def execPowerTransitionDone (b : Option Nat) (s : State) : Host.Outcome State Fault Refusal := done s (powerTransitionDoneEffect b)

/-! ## P4 and the thermal trip -/

/-- The package stops where it stands: everything but NAND, fuses, settings and firmware banks is lost, and a glue slot program is cut. -/
def State.halt (s : State) (l : Life) : State :=
  { s.blank false with life := l, glue := { s.glue with torn := s.glue.torn || !s.glue.jobs.isEmpty, jobs := [] } }

/-- POWER_OFF (R720). -/
def execPowerOff (s : State) : Host.Outcome State Fault Refusal := done s fun s => s.halt .off

/-- THERMAL_TRIP (R802, R803). -/
def thermalTripEffect (s : State) : State := if s.smbusAnswers then (s.emit .thermtrip).halt .tripped else s
def execThermalTrip (s : State) : Host.Outcome State Fault Refusal := done s thermalTripEffect

end Sys2Proof.Machine
end

