-- ==== Sys2Proof/Machine/Cycle.lean ====
section
/-! DEFINITION. The core clock. The end of a cycle brings about whatever the spec makes happen in it and no command gave (DESIGN CHOICE,
log entry 2): the gate, issues and completions, tiles, DMA requests, the stores' accesses, legs, hurdles, the ends of steps and stops, jog
rows (R269 to R271), stall counters (R379, R380) and the waiting times of stealing (R192). Its start applies credits and tally signals
(R178, R187, R412). -/

namespace Sys2Proof.Machine

/-! ## Events of the beat that are due, and happen here where they were not given as commands (log entry 35) -/

/-- EPOCH_EDGE decided (R67, R68): where the edge was sampled with the package armed after its first lock, the load is decided, else
EPOCH_SEEN is set. -/
def State.epochEdgeNow (s : State) : State :=
  if !s.beat.edgeSeen then s
  else
    let armed := s.beat.edgeArmed
    let s := s.modBeat fun b => { b with edgeSeen := false, edgeArmed := false }
    if armed then s.modBeat fun b => { b with loadDecided := true } else s.beatEvent 10

/-- The epoch beat (R67 steps 1 to 4, R70). -/
def State.epochBeatNow (s : State) : State :=
  if !s.beat.loadDue then s
  else
    let s := s.modBeat fun b => { b with epochPrior := b.count, count := b.epochValue, aligned := true, armed := false,
                                         loadDue := false, epochBeat := true }
    (List.range 6).foldl (fun s p => s.mark p 3) (s.beatEvent 11)

/-- R63: every task in progress has a holdover beat. -/
def State.markHoldover (s : State) : State :=
  if s.beat.holdover then (List.range 6).foldl (fun s p => s.mark p 2) s else s

/-- 400 ns, which are four beats, have passed since a REF_BEAT edge with no further one (R58). -/
def Beat.holdoverDue (b : Beat) : Bool := b.started && !b.holdover && decide (4 ≤ b.synth)

/-- Holdover begins (R58, R63). -/
def State.enterHoldover (s : State) : State :=
  if !s.beat.holdoverDue then s
  else (s.modBeat fun b => { b with holdover := true, holdCount := satAdd32 b.holdCount 1 }).markHoldover

/-- The synthesised edge that ends the 10,000th beat after the last REF_BEAT edge has passed (R60): the core cycle after it runs. -/
def Beat.lostDue (b : Beat) : Bool :=
  b.holdover && !b.lost && (decide (10000 < b.synth) || (decide (b.synth = 10000) && decide (1 ≤ b.cc)))

/-- The beat is lost (R60). -/
def State.loseBeat (s : State) : State :=
  if !s.beat.lostDue then s
  else (s.modBeat fun b => { b with aligned := false, locked := false, lost := true, lostCount := satAdd32 b.lostCount 1 }).beatEvent 8

/-- The relock completes (R61). -/
def State.relockNow (s : State) : State :=
  if !s.beat.relocking then s
  else s.modBeat fun b => { b with holdover := false, locked := true, lost := false, relocking := false, relockBeats := 0 }

/-- A relock takes at most 20,000 beats (R61). -/
def State.relockDue (s : State) : State := if 20000 ≤ s.beat.relockBeats then s.relockNow else s

/-- The filtered levels that are due to change. -/
def State.filterChanges (s : State) : State :=
  (List.range 32).foldl (fun s n => if s.gpio.changes n then gpioFilterChangeEffect n s else s) s

/-! ## Gates -/

/-- Queue doorbells captured before the cut take effect (R76, R200). -/
def State.gateDoorbells (s : State) : State :=
  let due (d : Nat × Nat × Nat × Nat × Nat × Nat) : Bool := decide (d.1 + 2 < s.beat.periods)
  (s.doorbells.filter due).foldl (fun s d => s.admitDoorbell d) { s with doorbells := s.doorbells.filter fun d => !due d }

/-- One more gate of the scrub interval has passed; at its end a stripe is due to be read (R539). -/
def State.gateScrub (s : State) : State :=
  if s.ldg.scrubInterval = 0 || s.glb.asleep || !s.ldg.mounted then s
  else s.modLdg fun l => if l.scrubIn ≤ 1 then { l with scrubIn := l.scrubInterval, scrubDue := l.scrubDue + 1 } else { l with scrubIn := l.scrubIn - 1 }

/-- The package is awake once the benches' exits have ended (R719). -/
def State.endWake (s : State) : State :=
  if s.glb.waking && s.benches.all (fun x => x.test.isNone) then s.modGlb fun g => { g with waking := false } else s

/-- The gate opens and does what needs no packet. -/
def State.openGate (s : State) (env : GateEnv) : State :=
  let s := s.modBeat fun b => { b with gateOpen := true, gateDone := true }
  let s := { s with fns := s.fns.map fun (a : Aivia) => { a with eligible := 64 } }
  let s := (s.endWake.compareAll env).gateDoorbells.gateScrub
  let s := (List.range s.sessions.length).foldl (fun s i => s.storeGate i) s
  let s := (List.range 6).foldl (fun s p => (s.gateTiles p).drainGate p) s
  (List.range 7).foldl (fun s f => (s.wakeForRun f).flushReserved f 64) s

/-- At cc 0 of a beat whose count, after any epoch load, is a multiple of 16, once (R57, R75). -/
def gateEffect (env : GateEnv) (s : State) : State :=
  if s.gateBeat && s.beat.cc = 0 && !s.beat.gateDone && !s.beat.loadDue then s.openGate env else s
/-- What waits for a gate takes effect at it: bench power states, deferred tests, a calibration, package sleep (R711, R715, R730, R735). -/
def State.gateRests (s : State) : State :=
  let s := (List.range s.nSeats).foldl (fun s b => deferredSelfTestStartEffect b (benchPowerTransitionEffect b s)) s
  packageSleepEntryEffect (calibrateStartEffect s)

/-- Power transitions and a calibration end when their beats have passed (R709, R737, R738). -/
def State.restsEnd (s : State) : State :=
  calibrateDoneEffect ((List.range s.nSeats).foldl State.endBenchMove s.endSleepMove)

/-- The gate opens where no command has opened it, with both paths showing what GateEnv's empty lists stand for; then the runs whose start
gate it is launch, and splice windows open (R94, R149, log entry 2). -/
def State.gateNow (s : State) : State :=
  let s := gateEffect {} s
  if !s.beat.gateOpen then s
  else
    let s := (List.range 6).foldl (fun s p => if (s.part p).launch.isSome then startLaunchEffect p s else s) s
    (spliceWindowOpenEffect s).gateRests

/-- Everything that is due. A splice window closes at cc 0 of its beat (R153). -/
def State.dueEvents (s : State) : State :=
  (spliceWindowCloseEffect s.epochEdgeNow.epochBeatNow.restsEnd.gateNow).enterHoldover.loseBeat.relockDue.filterChanges

/-! ## Stalls (R379, R380) -/

/-- The tally is one that the tally and hurdle map gives to the ring port of the context's slot for baton arrival. -/
def State.ringTally (s : State) (p b c ctx tally : Nat) : Bool :=
  (Map.ring (Img.map (s.part p).img (s.slotOf p b ctx))).any fun e => e.1 = tally && e.2.1 = c

/-- The slot whose LAND_TALLY a tally is. -/
def State.landSlot (s : State) (p b c ctx tally : Nat) : Option Nat :=
  (List.range 64).find? fun i =>
    let x := (s.core b c).slot i
    x.busy && x.landEn && s.tallyOf p b (ctxOf x.starter) x.landTally = s.tallyOf p b ctx tally

/-- The stall code of a wait for a tally. -/
def State.tallyStall (s : State) (p b c ctx tally : Nat) : Nat :=
  if s.ringTally p b c ctx tally then (if s.ring.window.any fun w => w.reqs.any fun r => r.part = p then 9 else 8)
  else match s.landSlot p b c ctx tally with
    | some i =>
      let x := (s.core b c).slot i
      let far := if farSpace x.srcSpace then x.srcSpace else x.dstSpace
      if far = 2 then 4
      else if far = 3 then (if (s.core b c).dma.trans.any fun t => t.slot = i && t.phase = 1 then 6 else 5)
      else if far = 4 || far = 5 then 7
      else 1
    | none => 1

/-- The stall counter that a queue adds to in this cycle: the first unmet condition of its head command. -/
def State.stallCode (s : State) (b c q : Nat) : Option Nat :=
  match s.headCmd b c q with
  | none => none
  | some (p, cmd) => match s.issuing p with
    | none => none
    | some t =>
      let k := s.core b c
      let ctx := ctxOf q
      let free := match (k.queue q).arrival with
        | some a => (match a.freeAt with
          | some f => !a.held && decide (f ≤ s.now)
          | none => false)
        | none => false
      if !t.credit || !cmd.valid q || !(s.bench b).computes || k.ctxState.getD ctx 0 = 4 then none
      else if cmd.hurdleEn && !free then some 0
      else if cmd.waitEn && decide (k.tally (s.tallyOf p b ctx cmd.waitTally) < waitN cmd.waitValue) then
        some (s.tallyStall p b c ctx cmd.waitTally)
      else if cmd.creditLink != 0 && decide (k.credit ctx cmd.creditLink < cmd.creditCount) then
        some (if cmd.creditLink = 5 then 3 else 2)
      else none

/-! ## What the running cycle brings -/

/-- Stall counters and waiting times of a core in a cycle. -/
def Core.countCycle (k : Core) (now : Nat) (codes : List Nat) (issuable : List Nat) : Core :=
  { k with
    dma := { k.dma with stalls := k.dma.stalls.zipIdx.map fun (y : W32 × Nat) => satAdd32 y.1 (codes.filter (· = y.2)).length }
    queues := k.queues.zipIdx.map fun (y : Queue × Nat) =>
      { y.1 with since := if issuable.contains y.2 then some (y.1.since.getD now) else none }
    idleSince := k.idleSince.zipIdx.map fun (y : Nat × Nat) => if issuable.any (fun q => engineOf q = y.2) then now + 1 else y.1 }

/-- Partitions with a task, a clamp or another stop in work. -/
def State.busyParts (s : State) : List Nat := (List.range 6).filter fun p => (s.part p).hasTask || (s.part p).stop != .none

/-- Partitions with a run. -/
def State.runs (s : State) : List Nat := (List.range 6).filter fun p => (s.part p).task.isSome

/-- The head command of a queue, by its opcode. -/
def State.issueHead (s : State) (b c q : Nat) : State :=
  match s.headCmd b c q with
  | none => s
  | some (_, cmd) =>
    let op := cmd.opcode
    if op = 0x00 then nopEffect b c q s
    else if op = 0x01 then jogEffect b c q s
    else if op = 0x02 then endEffect b c q s
    else if op = 0x10 then mloadEffect b c q [] s
    else if op = 0x11 then mstreamEffect b c q [] s
    else if op = 0x12 then mconvEffect b c q [] s
    else if op = 0x13 then mgenEffect b c q [] s
    else if op = 0xA0 then sstartEffect b c q s
    else if op = 0xA1 then sdrainEffect b c q s
    else if op = 0xA2 then srearmEffect b c q s
    else if op = 0xA3 then dowelEffect b c q [] s
    else if op = 0xA4 then blapEffect b c q [] s
    else if op = 0xC0 then psolveEffect b c q [] s
    else if op = 0xC1 then pbatchEffect b c q [] s
    else if op = 0xC2 then pdeltaEffect b c q [] s
    else vecEffect op b c q [] s

/-- The command that an engine issues in this cycle (R172, R180, R184). -/
def State.engineIssues (s : State) (p b c e : Nat) : State :=
  match s.issuing p with
  | none => s
  | some t => match s.pick b c e t.credit with
    | some ctx => s.issueHead b c (5 * ctx + e)
    | none => s

/-- What a core's engines and streams begin in this cycle: faults of entries, commands, and tiles (R204, R349, R371). -/
def State.coreBegins (s : State) (p b c : Nat) : State :=
  let s := (List.range 40).foldl (fun s q => badEntryEffect b c q s) s
  let s := (List.range 5).foldl (fun s e => s.engineIssues p b c e) s
  (List.range 64).foldl (fun s i => if ((s.core b c).slot i).busy then streamTileStartEffect b c i [] s else s) s

/-- What a partition begins: commands and tiles, the ends of legs, laps, and the requests of the cycle. -/
def State.partBegins (s : State) (p : Nat) : State :=
  let s := (s.activeCores p).foldl (fun s x => s.coreBegins p x.1 x.2) s
  let s := s.ringArrivals p
  let s := (s.activeBenches p).foldl (fun s b => lapStartEffect b s) s
  let s := (s.activeCores p).foldl (fun s x => s.dmaCycle x.1 x.2) s
  s.ringAsk p

/-- What a served request of a store brought goes to the one who asked. -/
def State.deliver (s : State) (b : Nat) (x : Served) : State := match x.1.who with
  | .job id tag => if x.1.write then s else s.modJob b id fun j => j.take tag x.1 x.2
  | .dma b' c id => s.dmaServed b b' c id x.1 x.2
  | .index slot tile => s.indexCame b x.1.port slot tile x.1.spans x.2
  | .flit p id => s.flitServed p id x.1 x.2
  | _ => s

/-- The banks of every bench serve what is due. -/
def State.serveAll (s : State) : State :=
  (List.range s.nSeats).foldl (fun s b =>
    if (s.bench b).reqs.isEmpty then s
    else
      let y := s.serveBench b
      y.2.foldl (fun s x => s.deliver b x) y.1) s

/-- What a core's engines finish in this cycle: rows pushed and fed, problems, commands, tiles, and tiles that are late. -/
def State.coreEnds (s : State) (b c : Nat) : State :=
  let s := [0, 1, 2, 3].foldl (fun s a => Nat.repeat (fun s => s.feederPush b c a) (((s.core b c).array a).pushes.length) s) s
  let s := (s.rowsFed b c).plumbCycle b c
  let s := (List.range 64).foldl (fun s i => if ((s.core b c).slot i).tiles.isEmpty then s else
    deadlineMissEffect b c i (Nat.repeat (tileLandEffect b c i) (((s.core b c).slot i).tiles.length) s)) s
  s.dropHeld b c

/-- The commands of a core that are complete, and the arrivals of its queues at hurdles (R178, R422, R423). -/
def State.queuesEnd (s : State) (b c : Nat) : State :=
  (List.range 40).foldl (fun s q =>
    hurdleArrivalEffect b c q (Nat.repeat (completeEffect b c q) ((s.queue b c q).inflight.length) s)) s

/-- What a partition finishes: jobs, tiles and flits, commands, hurdles; then the step's end and what follows a stop. -/
def State.partEnds (s : State) (p : Nat) : State :=
  let s := (List.range (s.part p).hurdleCount).foldl (fun s h => earlyArrivalMoveEffect p h s) s
  let s := (s.activeBenches p).foldl (fun s b => s.jobsAdvance b) s
  let s := (s.activeCores p).foldl (fun s x => s.coreEnds x.1 x.2) s
  let s := (s.activeBenches p).foldl (fun s b => s.jobsEnd b) s
  let s := (s.ringForward p).ringDue p
  (s.activeCores p).foldl (fun s x => s.queuesEnd x.1 x.2) s

/-- Bytes of the host's output ranges that no STEP_COMMIT of the cycle has brought: free values (log entry 3). -/
def State.freeOutputs (s : State) (p : Nat) : List Bytes × State := match (s.part p).task with
  | none => ([], s)
  | some t =>
    if t.hostOut.1 = s.now + 1 then (t.hostOut.2, s)
    else (t.ranges.filter fun r => r.role = 1 && r.space != 0).foldl (fun acc r =>
      let y := acc.2.fresh
      (acc.1 ++ [leBytes r.len y.1], y.2)) ([], s)

/-- A step's end: commit, rerun, abort, the end of a hold, a pause or a load (R375, R397, R589, R595, R608, R317). -/
def State.stepEnds (s : State) (p : Nat) : State :=
  let s := buddyPauseEndEffect p s
  let s := if s.commitReady p then
    let y := s.freeOutputs p
    stepCommitEffect p y.1 y.2 else s
  let s := taskAbortCompleteEffect p (buddyLoadDoneEffect p (lateTileResumeEffect p (stepRerunEffect p s)))
  clampDoneEffect p (s.startMovers p)

/-- Jog rows, stall counters and waiting times of a core (R192, R269, R379). -/
def State.coreCounts (s : State) (b c : Nat) : State :=
  let now := s.now
  if !(s.runs.any fun p => (s.activeBenches p).contains b) then s
  else
    let codes := (List.range 40).filterMap fun q => s.stallCode b c q
    let issuable := (List.range 40).filter fun q => (s.issuable b c q).isSome
    s.modCore b c fun k => k.countCycle now codes issuable

/-- What the ledger does of itself: old bundles are signed, the anchor falls due, and a stripe begins; Keep Alives go out (R489, R516,
R530, R568). -/
def State.ledgerActs (s : State) : State :=
  let s := (List.range 6).foldl (fun s p => signatureTimerEffect p s) s
  (stripeStartEffect (anchorTimerEffect s)).keepAlives

/-- An array of the core may jog: it is not gated, or its bus carried something. -/
def Core.jogs (k : Core) : Bool := k.mx.arrays.any fun x => !x.gated || x.carried

/-- The end of the running cycle: whatever the spec makes happen in it has happened, where no command gave it (log entry 2). -/
def State.endCycle (s : State) : State :=
  let s := s.dueEvents
  let s := s.busyParts.foldl State.partBegins s
  let s := (List.range s.nSeats).foldl (fun s b =>
    let s := if (s.bench b).jobs.isEmpty then s else s.jobsAsk b
    if (s.bench b).toWriteBack.isEmpty then s else s.writeBacks b) s
  let s := s.serveAll
  let s := s.busyParts.foldl State.partEnds s
  let s := (s.busyParts.foldl State.stepEnds s).ledgerActs
  let now := s.now
  s.cores.foldl (fun s bc =>
    let s := if (s.core bc.1 bc.2).jogs then s.modCore bc.1 bc.2 fun k => k.jogCycle now else s
    s.coreCounts bc.1 bc.2) s

/-- The end of a BCH sequence is reached (R707). -/
def Bench.endReset (x : Bench) (now : Nat) : Bench :=
  { x with resetUntil := match x.resetUntil with
      | some e => if e ≤ now then none else some e
      | none => none }

/-- The period in which a partition that stopped for a rerun is first seen idle (R318). -/
def State.noteIdle (s : State) (p : Nat) : State := match (s.part p).stop with
  | .rerun _ =>
    if s.partIdle p then
      let now := s.beat.periods
      s.modPart p fun x => { x with task := x.task.map fun t => { t with idleAt := some (t.idleAt.getD now) } }
    else s
  | _ => s

/-- The start of a cycle: credits and signals of the cycle before it, and what its time brings about (R187, R414). -/
def State.startCycle (s : State) : State :=
  let now := s.now
  let s := s.cores.foldl (fun s bc =>
    let k := s.core bc.1 bc.2
    if k.returns.isEmpty && k.signals.isEmpty then s else (s.applyReturns bc.1 bc.2).applySignals bc.1 bc.2) { s with raised := [] }
  let s := { s with benches := s.benches.map fun (x : Bench) => x.endReset now }
  s.busyParts.foldl (fun s p => (s.startMovers p).noteIdle p) s

/-- One core cycle within a beat; the last cycle of a beat waits for the REF_BEAT edge (R53). Nothing runs before the first lock. -/
def State.coreCycle (s : State) : State :=
  if !s.beat.started || s.m ≤ s.beat.cc + 1 then s
  else (s.endCycle.modBeat fun b => { b with cc := b.cc + 1, gateOpen := false }).startCycle

/-- The rest of the running beat. -/
def State.restOfBeat (s : State) : State :=
  if s.beat.started then (Nat.repeat State.coreCycle (s.m - 1 - s.beat.cc) s).endCycle else s.dueEvents

end Sys2Proof.Machine
end

