-- ==== Sys2Proof/Machine/Beat.lean ====
section
/-! DEFINITION. The beat (02_beat_and_time.md): lock, holdover and its ends (R56 to R61), the epoch (R66 to R72), gates (R75 to R81) and the REF_BEAT edge
(R65). -/

namespace Sys2Proof.Machine

/-! ## Lock and holdover -/

/-- The inputs are sampled at a REF_BEAT rising edge: EPOCH_IN, which EPOCH_OUT follows, and the GPIO pins (R66, R72; 18 R748). What an epoch edge does is
decided by the arming at this moment (R67, R68). -/
def State.sampleEdge (s : State) : State :=
  let s := s.epochEdgeNow
  let e := s.beat.lines
  let pins := s.pinSample e.pins
  (s.modBeat fun b => { b with
    edgeSeen := e.epochIn && !b.epochIn, edgeArmed := b.armed && b.started && e.epochIn && !b.epochIn
    epochIn := e.epochIn, epochOut := b.outEn && e.epochIn }).modGpio fun g => g.sample pins

/-- LOCK: the counter starts from zero at a REF_BEAT edge, and steps 4 and 5 of the start-up begin: every bench is in its self-test
(R56, R139, R696, R697). -/
def lockEffect (s : State) : State :=
  if s.life != .awaitLock || !s.beat.lines.seen then s
  else
    let n := s.nSeats
    let test : BenchTest := { why := .startup, former := .unassigned }
    let s := (s.epochEdgeNow.modBeat fun b =>
      { b with locked := true, started := true, aligned := false, count := 0, periods := b.periods + 1, cc := 0, synth := 0 }).sampleEdge
    { s with
      life := .starting (min s.start.readyBeats 340000)
      benches := s.benches.zipIdx.map fun (y : Bench × Nat) => if y.2 < n then { y.1 with state := .testing, test := some test } else y.1 }
def execLock (s : State) : Host.Outcome State Fault Refusal := done s lockEffect

/-- HOLDOVER_ENTRY (R58): at the end of the fourth beat after the last REF_BEAT edge (R64 treats one that is too far off as absent). -/
def holdoverEntryEffect (s : State) : State := s.enterHoldover
def execHoldoverEntry (s : State) : Host.Outcome State Fault Refusal := done s holdoverEntryEffect

/-- BEAT_LOST (R60). -/
def beatLostEffect (s : State) : State := s.loseBeat
def execBeatLost (s : State) : Host.Outcome State Fault Refusal := done s beatLostEffect

/-- RELOCK (R61). -/
def relockEffect (s : State) : State := s.relockNow
def execRelock (s : State) : Host.Outcome State Fault Refusal := done s relockEffect

/-! ## The epoch -/

/-- EPOCH_EDGE (R67, R68). -/
def execEpochEdge (s : State) : Host.Outcome State Fault Refusal := done s State.epochEdgeNow

/-- EPOCH_BEAT (R67). -/
def execEpochBeat (s : State) : Host.Outcome State Fault Refusal := done s State.epochBeatNow

/-- A write of BEAT_CONTROL by the physical function: EPOCH_OUT_EN, then disarm, which wins, or arm (R67, R69, R72). -/
def State.writeBeatControl (s : State) (w : W32) : State :=
  let s := s.modBeat fun b => { b with outEn := w.getLsbD 4, epochOut := b.epochOut && w.getLsbD 4 }
  if w.getLsbD 1 then s.modBeat fun b => { b with armed := false }
  else if w.getLsbD 0 then
    if s.parts.any Part.hasLaunch then s.beatEvent 9 else s.modBeat fun b => { b with armed := true }
  else s

/-- EPOCH_ARM. -/
def epochArmEffect (fn : Nat) (word : W32) (s : State) : State := if s.running && fn = 0 then s.writeBeatControl word else s
def execEpochArm (fn : Nat) (word : W32) (s : State) : Host.Outcome State Fault Refusal := done s (epochArmEffect fn word)

/-- EPOCH_DISARM. -/
def epochDisarmEffect (fn : Nat) (word : W32) (s : State) : State := if s.running && fn = 0 then s.writeBeatControl word else s
def execEpochDisarm (fn : Nat) (word : W32) (s : State) : Host.Outcome State Fault Refusal := done s (epochDisarmEffect fn word)

/-! ## Gates -/

/-- GATE: at cc 0 of a beat whose count, after any epoch load, is a multiple of 16, once (R57, R75). -/
def execGate (env : GateEnv) (s : State) : Host.Outcome State Fault Refusal := done s (gateEffect env)

/-! ## The REF_BEAT edge -/

/-- A bench's self-test at start-up has ended (R139, R697). -/
def State.startBench (s : State) (b : Nat) : State :=
  let pass := s.start.pass.getD b true
  let spare := pass && s.glue.value 1 = b
  let s := s.endTest b pass (if !pass then .fenced else .unassigned)
  if spare then s.makeSpare b else s

/-- Steps 4 to 6 of the start-up end. -/
def State.finishStart (s : State) : State :=
  let s := (List.range s.nSeats).foldl (fun s b => s.startBench b) s
  let s := s.mount.modGlb fun g => { g with ready := true }
  { s with life := .up }

/-- The beats of the start-up. -/
def State.countStart (s : State) : State := match s.life with
  | .starting n => if n ≤ 1 then s.finishStart else { s with life := .starting (n - 1) }
  | _ => s

/-- What an edge of a present REF_BEAT does to holdover: it ends with a timely return (R59), or the relock after BEAT_LOST begins (R61). -/
def Beat.refSeen (b : Beat) : Beat :=
  { b with synth := 0, holdover := b.holdover && b.lost, relocking := b.holdover && b.lost }

/-- A beat that begins without such an edge; a REF_BEAT that stays away for 400 ns ends the relock (R58). -/
def Beat.refMissing (b : Beat) : Beat :=
  let stays := b.relocking && decide (b.synth < 3)
  { b with synth := b.synth + 1, relocking := stays, relockBeats := if stays then b.relockBeats else 0 }

/-- The beat counter and what counts beats (R65, R541, R774; strobes last one beat, R742). The epoch beat is a REF_BEAT edge (R67). -/
def State.countBeat (s : State) (seen : Bool) : State :=
  let s := s.modBeat fun b =>
    let b := if seen then b.refSeen else b.refMissing
    { b with
      count := b.count + 1, periods := b.periods + 1, cc := 0, gateOpen := false, gateDone := false, epochBeat := false
      loadDue := b.loadDecided && seen, loadDecided := b.loadDecided && !seen
      relockBeats := if b.relocking then b.relockBeats + 1 else b.relockBeats }
  let s := s.modGpio fun g => { g with launched := [], doneNow := g.doneNext, doneNext := [] }
  let s := s.modLdg fun l => { l with age := if l.mounted then l.age + 1 else l.age }
  let s := { s with fns := s.fns.map fun (a : Aivia) => { a with eligible := 0 } }
  (s.modMgmt fun m => { m with sampleIn := m.sampleIn - 1 }).markHoldover

/-- A beat begins, at a REF_BEAT edge or without one; R64 treats an edge that is too far off as absent. -/
def State.beginBeat (s : State) (edge : Bool) : State :=
  let seen := edge && s.beat.lines.seen
  let s := if seen then s.sampleEdge else s
  if !s.beat.started then s
  else
    let s := (s.countBeat seen).countStart.startCycle
    s.bar2Flush s.bar2Wait.length

/-- REF_BEAT_EDGE (R65): the rest of the running beat, then a beat that begins at a REF_BEAT edge, or, with no edge or with one that R64
treats as absent, at an edge that the device makes itself. The reference inputs stand as the command finds them until the next one. -/
def refBeatEdgeEffect (edge : Bool) (lines : RefEdge) (s : State) : State :=
  if !s.running then s else (s.restOfBeat.modBeat fun b => { b with lines := lines }).beginBeat edge
def execRefBeatEdge (edge : Bool) (lines : RefEdge) (s : State) : Host.Outcome State Fault Refusal := done s (refBeatEdgeEffect edge lines)

/-- The returning edge is in time: at the latest with the synthesised edge that ends the 10,000th beat (R59). -/
def Beat.timely (b : Beat) : Bool :=
  b.holdover && !b.lost && (decide (b.synth < 10000) || (decide (b.synth = 10000) && decide (b.cc = 0)))

/-- TIMELY_RETURN (R59): the beat is re-phased to the returning edge. The edge belongs to the synthesised edge next to it (log entry 33): to
that of the running beat, which begins anew with it, or to the next one, whose beat it begins; so the count does not step. -/
def timelyReturnEffect (s : State) : State :=
  if !s.beat.timely || !s.beat.lines.seen then s
  else if 2 * s.beat.cc < s.m then s.sampleEdge.modBeat fun b => { b.refSeen with cc := 0 }
  else s.endCycle.beginBeat true
def execTimelyReturn (s : State) : Host.Outcome State Fault Refusal := done s timelyReturnEffect

end Sys2Proof.Machine
end

