-- ==== Sys2Proof/Machine/Registers.lean ====
section
/-! DEFINITION. BAR0 (20_address_map.md R807 to R816; 00_scope.md R6 to R19): what every register reads, by block, the rights of the functions, and what
a write does by access code. Registers that show other state are computed here. -/

namespace Sys2Proof.Machine

/-! ## Register values -/

/-- What an occupied offset reads: whether the register is 64 bits wide, and its value. -/
abbrev Reg := Option (Bool × W64)

/-- A 32-bit register, and a 64-bit one. -/
def reg32 (v : Nat) : Reg := some (false, BitVec.ofNat 64 (v % 2 ^ 32))
def reg64 (v : Nat) : Reg := some (true, BitVec.ofNat 64 v)
/-- A number from fields given as lowest bit and value. -/
def packed (fs : List (Nat × Nat)) : Nat := (fs.map fun f => f.2 * 2 ^ f.1).sum
/-- Fields of the same width, from bit 0 on. -/
def packList (width : Nat) (vs : List Nat) : Nat := packed (vs.zipIdx.map fun v => (width * v.2, v.1 % 2 ^ width))
/-- A bit for each element that holds. -/
def packBits (bs : List Bool) : Nat := packList 1 (bs.map natOfBool)

/-! ## GLB (14, 17, 20) -/

def State.glbReg (s : State) (off : Nat) : Reg :=
  let bs := s.benches.take s.nSeats
  if off = 0x000 then reg64 s.fuses.partIdent.toNat
  else if off = 0x008 then reg64 s.fuses.serial.toNat
  else if off = 0x200 then reg32 s.glb.disStatus.toNat
  else if off = 0x208 then reg64 s.glb.disLatch.toNat
  else if off = 0x210 then reg32 s.glb.disCapture.toNat
  else if off = 0x218 then reg64 s.glb.disBeat.toNat
  else if off = 0x300 then reg32 (packed [(8, s.glb.rcBench), (12, s.glb.rcCore), (13, s.glb.rcEngine)])
  else if off = 0x304 then reg32 (packed [(0, natOfBool s.glb.ready), (1, s.glb.lastStart)])
  else if off = 0x310 then reg32 (packList 2 (bs.map (·.powerReq)))
  else if off = 0x314 then reg32 (packList 2 (bs.map (·.power)))
  else if off = 0x318 then reg32 (packed [(0, natOfBool s.glb.sleep), (8, natOfBool s.glb.asleep)])
  else if off = 0x31C then reg32 (packed [(0, packBits (bs.map (·.testPass))), (16, packBits (bs.map (·.testDeferred)))])
  else none

/-! ## BEAT (02) -/

/-- BEAT_STATUS. -/
def Beat.status (b : Beat) : Nat :=
  packBits [b.locked, b.aligned, b.holdover, b.armed] + (b.events &&& 0xF00#32).toNat

def State.beatReg (s : State) (off : Nat) : Reg :=
  let b := s.beat
  if off = 0x00 then reg64 b.count.toNat
  else if off = 0x08 then reg64 b.epochValue.toNat
  else if off = 0x10 then reg64 b.epochPrior.toNat
  else if off = 0x18 then reg32 b.status
  else if off = 0x1C then reg32 (packed [(4, natOfBool b.outEn)])
  else if off = 0x20 then reg32 (packed [(0, b.mActive), (16, s.glue.value 0)])
  else if off = 0x24 then reg32 b.lostCount.toNat
  else if off = 0x28 then reg32 b.holdCount.toNat
  else none

/-! ## IRQ (16) -/

def State.irqReg (s : State) (off : Nat) : Reg :=
  if off = 0x00 then reg32 s.summary.toNat
  else if off = 0x04 then reg32 s.irq.summaryEnable.toNat
  else if off = 0x08 then reg32 (packed [(0, natOfBool s.irq.pinEn), (8, natOfBool s.irqPending)])
  else if off = 0x0C then reg32 0
  else if off = 0x10 then reg32 (natOfBool s.irq.pfCompletion)
  else if off = 0x14 then reg32 s.vfFaults.toNat
  else if 0x100 ≤ off && off < 0x168 && off % 8 = 0 then reg32 (s.benchCause ((off - 0x100) / 8)).toNat
  else if 0x100 ≤ off && off < 0x168 && off % 8 = 4 then reg32 (s.irq.benchEnable.getD ((off - 0x100) / 8) 0).toNat
  else if 0x400 ≤ off && off < 0x780 && off % 4 = 0 && (off - 0x400) / 4 % 16 < (if off < 0x440 then 16 else 12) then
    reg32 (s.leafEnableOf ((off - 0x400) / 4)).toNat
  else none

/-! ## GLUE (17) -/

def State.glueReg (s : State) (off : Nat) : Reg :=
  if off < 0x80 && off % 8 = 0 then reg64 (s.glue.value (off / 8))
  else if off = 0x80 then reg64 (packList 4 s.glue.used)
  else if off = 0x100 then reg32 (s.glue.event &&& 7#32).toNat
  else if off = 0x108 then reg64 (packed [(0, s.glue.lockOffset % 2 ^ 26), (32, s.glue.lockFn % 8)])
  else none

/-! ## GPIO and MGMT (18) -/

def State.gpioReg (s : State) (off : Nat) : Reg :=
  let g := s.gpio
  if off < 0x10 && off % 4 = 0 then reg32 (g.funcEn.getD (off / 4) 0).toNat
  else if off = 0x10 then reg32 g.outValue.toNat
  else if off = 0x18 then reg64 0
  else if off = 0x20 then reg32 g.inRaw.toNat
  else if off = 0x24 then reg32 g.filtered.toNat
  else if off = 0x28 then reg64 g.intMode.toNat
  else if off = 0x30 then reg32 g.intStatus.toNat
  else if off = 0x34 then reg32 (packed [(0, g.capPin % 32), (8, natOfBool g.capRising)])
  else if off = 0x38 then reg64 g.intBeat.toNat
  else if 0x100 ≤ off && off < 0x180 && off % 4 = 0 then reg32 (g.debounce.getD ((off - 0x100) / 4) 0)
  else if off = 0x1000 then
    reg32 (packed [(0, s.mgmt.fwState % 4), (2, s.mgmt.bank % 2), (4, s.mgmt.signer % 4), (16, s.mgmt.version % 2 ^ 16)])
  else if off = 0x1004 then reg32 (s.mgmt.event &&& 7#32).toNat
  else if off = 0x1008 then reg32 s.tempMax.toNat
  else none

/-! ## RING and PART (03, 04, 08, 09, 11) -/

def State.ringReg (s : State) (off : Nat) : Reg :=
  let n := s.nSeats
  if off = 0x00 then reg64 (packList 4 (s.ring.seatMap.zipIdx.map fun y => if y.2 < n then y.1 else 0xF))
  else if off = 0x08 then reg64 (packList 4 ((s.benches.take n).map fun x => x.state.code))
  else if off = 0x10 then reg32 (s.ring.switches &&& 0x1FFF#32).toNat
  else if off = 0x14 then reg32 (packed [(0, s.ring.spareLive % 16), (4, natOfBool s.spareReady), (8, s.glue.value 1 % 16)])
  else if off = 0x18 then reg32 (packed [(0, packBits ((List.range 6).map fun p => s.ring.requests.any fun r => r.part = p && r.shown)),
    (8, natOfBool s.ring.window.isSome)])
  else if off = 0x20 then reg64 s.ring.lastSplice.toNat
  else if off = 0x28 then reg32 (s.ring.event &&& 0x3F#32).toNat
  else if off = 0x2C then reg32 s.ring.retryCount.toNat
  else none

/-- PART_STATE codes. -/
def PState.code : PState → Nat
  | .free => 0
  | .idle => 1
  | .loaded => 2
  | .running => 3
  | .recovering => 4

/-- Entry p of the partition table, by byte offset. -/
def State.partReg (s : State) (p off : Nat) : Reg :=
  let x := s.part p
  if off = 0x00 then reg32 (if x.valid then packed [(0, x.first), (4, x.seats), (8, (s.activeBenches p).length), (12, 1)] else 0)
  else if off = 0x04 then reg32 (if x.valid then packed [(0, x.hbmBase), (16, x.hbmSize)] else 0)
  else if off = 0x08 then reg32 x.shownState.code
  else if off = 0x10 then
    reg32 (packed [(0, natOfBool x.credit), (1, natOfBool x.balance), (2, natOfBool x.shrink), (8, x.minActive % 16)])
  else if off = 0x14 then reg32 (packed [(0, x.bw.getD 0 0), (8, x.bw.getD 1 0), (16, x.bw.getD 2 0)])
  else if off = 0x18 then reg32 (packed [(0, x.tallyBlocks), (9, x.hurdleCount)])
  else if off = 0x1C then
    let shift := match x.task with
      | some t => min (t.shift / 16) 0xFFFF
      | none => x.shiftGates
    reg32 (packed [(0, natOfBool x.classBT), (8, x.mask), (16, shift)])
  else none

/-! ## Bench windows -/

/-- BCH_CORE_CTX_STATE of a context (R173; DEDUCED precedence, log entry 36). -/
def State.ctxCode (s : State) (b c ctx : Nat) : Nat :=
  let k := s.core b c
  let qs := (List.range 5).map fun e => 5 * ctx + e
  let loaded := match s.benchPart b with
    | some p => (s.part p).prog.isSome
    | none => false
  let holds := qs.filter fun q => (k.queue q).ended || (k.queue q).occupancy != 0
  if k.ctxState.getD ctx 0 = 4 then 4
  else if !loaded || holds.isEmpty then 0
  else if holds.all fun q => (k.queue q).ended then 3
  else if qs.any fun q => (s.issuable b c q).isSome || (s.ready b c q).isSome then 1
  else 2

def State.queueReg (s : State) (b c off : Nat) : Reg :=
  if off < 0x500 then
    let q := s.queue b c (off / 0x20)
    if off % 0x20 = 0x00 then reg64 q.base.toNat
    else if off % 0x20 = 0x08 then reg32 q.log2
    else if off % 0x20 = 0x0C then reg32 q.head
    else if off % 0x20 = 0x10 then reg32 q.tail
    else if off % 0x20 = 0x14 then reg32 (q.status &&& 3#32).toNat
    else none
  else if off = 0x800 then reg32 (packList 4 ((List.range 8).map (s.ctxCode b c)))
  else if off = 0x804 then reg32 (s.core b c).steals.toNat
  else none

def Core.arithReg (k : Core) (off : Nat) : Reg :=
  if off < 0x10 && off % 4 = 0 then reg32 (k.sat.getD (off / 4) 0).toNat
  else if off = 0x10 then reg32 0
  else if off = 0x14 then reg32 k.arithFault.toNat
  else none

/-- An MLOAD occupies the array's west bus; rows are entering (R263, R264). -/
def ArraySt.loading (x : ArraySt) (now : Nat) : Bool := match x.bus with
  | .load t => decide (t ≤ now)
  | _ => false
def ArraySt.streaming (x : ArraySt) (now : Nat) : Bool := match x.bus with
  | .stream t => decide (t ≤ now)
  | _ => false

/-- BCH_CORE_MX_STATUS. -/
def Core.mxStatus (k : Core) (now : Nat) : Nat :=
  let xs := k.mx.arrays
  packBits (xs.map (fun x => x.loading now) ++ xs.map (fun x => x.streaming now) ++ xs.map (·.gated) ++ xs.map (·.accOpen) ++
    xs.map (fun x => x.held.isSome) ++ k.mx.gens.map (·.valid))

def State.matrixReg (s : State) (b c off : Nat) : Reg :=
  let k := s.core b c
  if off < 0x10 && off % 4 = 0 then reg32 (s.fuses.shims.getD (8 * b + 4 * c + off / 4) 0xFFFFFFFF#32).toNat
  else if off = 0x10 then reg32 (k.mxStatus s.now)
  else if off = 0x14 then reg32 k.mx.jogCount.toNat
  else if off = 0x18 then reg32 k.mx.wakeCount.toNat
  else if off = 0x1C then reg32 k.mx.fault.toNat
  else none

def Spd.reg (x : Spd) (off : Nat) : Reg :=
  if off = 0x00 then reg32 (x.status &&& 0x3F#32).toNat
  else if off = 0x04 then reg32 x.errCap.toNat
  else if off = 0x08 then reg32 x.clashCap.toNat
  else if off = 0x10 then reg64 x.clashBeat.toNat
  else if off = 0x18 then reg32 x.breachCap.toNat
  else if off = 0x1C then reg32 (x.phase % 64)
  else if off = 0x20 then reg32 x.corrected.toNat
  else if off = 0x24 then reg32 x.parity.toNat
  else if off = 0x28 then reg32 x.reruns.toNat
  else if off = 0x2C then reg32 x.waits.toNat
  else none

def Dma.reg (d : Dma) (off : Nat) : Reg :=
  if off = 0x00 then reg64 (packBits (d.slots.map (·.busy)))
  else if off = 0x08 then reg32 (packed [(0, d.reads.length), (10, d.writes.length), (19, d.dowels.length)])
  else if off = 0x0C then reg32 d.fault.toNat
  else if off = 0x10 then reg64 d.faultAddr.toNat
  else if off = 0x18 then reg32 d.faultPasid.toNat
  else if off = 0x1C then reg32 d.deadlineCount.toNat
  else if off = 0x20 then reg32 d.priCount.toNat
  else if 0x40 ≤ off && off < 0x68 && off % 4 = 0 then reg32 (d.stalls.getD ((off - 0x40) / 4) 0).toNat
  else none

/-- Tallies of the partition's cores read; others read zero. -/
def State.tallyReg (s : State) (b c off : Nat) : Reg :=
  if off < 0x8000 && off % 4 = 0 then
    let limit := match s.benchPart b with
      | some p => 64 * (s.part p).tallyBlocks
      | none => 0
    reg32 (if off / 4 < limit then (s.core b c).tally (off / 4) else 0)
  else if off = 0x8000 then reg32 (s.core b c).tlyFault.toNat
  else none

/-- HRD_STATE of a hurdle. -/
def Hurdle.word (x : Hurdle) : Nat :=
  packed [(0, natOfBool x.sense), (1, natOfBool x.poisoned), (2, x.parts.length), (9, x.arrived.length), (16, x.acked.length),
    (23, x.early.length)]

def State.hurdleReg (s : State) (b off : Nat) : Reg :=
  match s.benchPart b with
  | none => if (off < 0x400 && off % 4 = 0) || off = 0x800 then reg32 0 else none
  | some p =>
    if off < 0x400 && off % 4 = 0 then
      reg32 (if off / 4 < (s.part p).hurdleCount then ((s.part p).hurdle (off / 4)).word else 0)
    else if off = 0x800 then reg32 (s.part p).hrdFault.toNat
    else none

/-- k of the solve in progress (R442, R459). -/
def Plb.iteration (x : Plb) : Nat := match x.job with
  | some j => if !j.running || j.kind = .delta || j.phase = 0 then 0 else min j.stopK (1 + (j.phase - 1) / max 1 j.iters.length)
  | none => 0

def Plb.reg (x : Plb) (now off : Nat) : Reg :=
  if off = 0x00 then reg32 (packed [(0, natOfBool x.resident.isSome), (1, natOfBool (x.busy now)), (16, x.iteration % 2 ^ 16)])
  else if off = 0x04 then reg32 x.fault.toNat
  else if 0x08 ≤ off && off < 0x18 && off % 4 = 0 then reg32 (x.counts.getD ((off - 8) / 4) 0).toNat
  else none

/-- The window of a bench. -/
def State.benchReg (s : State) (b off : Nat) : Reg :=
  let o := off % 0x10000
  let blk := off / 0x10000
  if blk = 2 || blk = 3 then (s.core b (blk - 2)).plb.reg s.now o
  else if blk = 4 || blk = 5 then s.queueReg b (blk - 4) o
  else if blk = 6 || blk = 7 then (s.core b (blk - 6)).arithReg o
  else if blk = 8 || blk = 9 then s.matrixReg b (blk - 8) o
  else if blk = 10 then (s.bench b).spd.reg o
  else if blk = 11 || blk = 12 then (s.core b (blk - 11)).dma.reg o
  else if blk = 13 || blk = 14 then s.tallyReg b (blk - 13) o
  else if blk = 15 then s.hurdleReg b o
  else none

/-! ## LDG (12), CKP and STORE (13), AIVIA (15) -/

def MState.code : MState → Nat
  | .online => 0
  | .failed => 1
  | .rebuilding => 2
  | .absent => 3

def State.ldgReg (s : State) (off : Nat) : Reg :=
  let l := s.ldg
  if !l.mounted && [0x00, 0x04, 0x08, 0x0C, 0x10, 0x18].contains off then reg32 0
  else if off = 0x00 then reg32 (packed [(0, l.status), (3, natOfBool l.mounted), (4, natOfBool l.rebuild.isSome)])
  else if off = 0x04 then reg32 (packList 2 (l.members.map MState.code))
  else if off = 0x08 then reg32 l.tail
  else if off = 0x0C then reg32 l.head
  else if off = 0x10 then reg32 l.freeRows.length
  else if off = 0x14 then reg32 (packed [(0, l.stage.length), (11, s.reservedEntries)])
  else if off = 0x18 then reg32 (match l.rebuild with
    | some r => r.2.1
    | none => l.lastRebuild)
  else if off = 0x1C then reg32 (l.event &&& 0x7F#32).toNat
  else if off = 0x20 then reg32 l.lossCount.toNat
  else if off = 0x24 then reg32 l.dropCount.toNat
  else if off = 0x28 then reg32 l.syncRetry.toNat
  else if off = 0x2C then reg32 l.erasures.toNat
  else if off = 0x30 then reg32 l.relocates.toNat
  else if off = 0x34 then reg32 l.scrubPass.toNat
  else if off = 0x38 then reg32 l.scrubInterval
  else if off = 0x3C then reg32 (s.glue.value 2 % 2 ^ 16)
  else if off = 0x40 then reg64 l.age.toNat
  else none

/-- The stream registers of a partition. -/
def State.streamReg (s : State) (p off : Nat) : Reg :=
  let x := (s.part p).stream
  if off = 0x00 then reg32 (if x.closed then 0 else x.id)
  else if off = 0x08 then reg64 x.durable.toNat
  else if off = 0x10 then reg64 (if x.id = 0 then 0 else s.ldg.releasedOf x.id)
  else none

/-- CKP_STATUS.ACTIVITY. -/
def Part.activity (x : Part) : Nat := match x.stop with
  | .pause _ => 1
  | .load _ _ => 1
  | .clamp _ => 2
  | _ => if x.ckp.drain.isSome then 3 else 0

def State.ckpReg (s : State) (p off : Nat) : Reg :=
  let k := (s.part p).ckp
  if off = 0x00 then reg32 (packed [(0, natOfBool k.armed), (1, natOfBool k.buddyOn), (2, (s.part p).activity), (16, k.nvme % 2 ^ 16)])
  else if off = 0x08 then reg64 k.lastGen.toNat
  else if off = 0x10 then reg64 k.tornLba.toNat
  else if off = 0x18 then reg32 (k.event &&& 0x3F#32).toNat
  else if off = 0x1C then reg32 k.skips.toNat
  else if off = 0x20 then reg32 k.pending.length
  else none

def SState.code : SState → Nat
  | .down => 0
  | .connecting => 1
  | .connected => 2

def Session.reg (e : Session) (off : Nat) : Reg :=
  if off = 0x00 then reg32 (packed [(0, e.state.code), (2, e.port % 2), (4, e.owner % 8)])
  else if off = 0x04 then reg32 e.digestErrors.toNat
  else none

def State.aiviaReg (s : State) (f off : Nat) : Reg :=
  let a := s.fn f
  if off = 0x00 then reg64 a.sqBase.toNat
  else if off = 0x08 then reg32 a.sqLog2
  else if off = 0x0C then reg32 a.sqTail
  else if off = 0x10 then reg32 a.sqHead
  else if off = 0x18 then reg64 a.cqBase.toNat
  else if off = 0x20 then reg32 a.cqLog2
  else if off = 0x24 then reg32 a.cqHead
  else if off = 0x28 then reg32 a.cqTail
  else if off = 0x2C then reg32 (natOfBool a.enable)
  else if off = 0x30 then reg32 (packBits [a.ready, a.badDoorbell, s.cqStall f, a.fetchFault])
  else none

/-! ## Blocks and rights (R807, R809, R816, R718) -/

/-- Where a BAR0 offset lies. -/
inductive Place where
  | glb (off : Nat)
  | beat (off : Nat)
  | irq (off : Nat)
  | glue (off : Nat)
  | gpio (off : Nat)
  | ring (off : Nat)
  | part (p off : Nat)
  | bench (b off : Nat)
  | ldg (off : Nat)
  | stream (p off : Nat)
  | ckp (p off : Nat)
  | store (i off : Nat)
  | aivia (f off : Nat)
  | nothing
  deriving DecidableEq, Repr

/-- The block of an offset, with the entry of an indexed one. -/
def place (a : Nat) : Place :=
  if a < 0x100000 then .glb a
  else if a < 0x200000 then .beat (a - 0x100000)
  else if a < 0x300000 then .irq (a - 0x200000)
  else if a < 0x400000 then .glue (a - 0x300000)
  else if a < 0x800000 then .gpio (a - 0x400000)
  else if a < 0x801000 then .ring (a - 0x800000)
  else if a < 0x801180 then .part ((a - 0x801000) / 0x40) ((a - 0x801000) % 0x40)
  else if a < 0x1000000 then .nothing
  else if a < 0x1D00000 then .bench ((a - 0x1000000) / 0x100000) (a % 0x100000)
  else if a < 0x2000000 then .nothing
  else if a < 0x2000100 then .ldg (a - 0x2000000)
  else if a < 0x20001C0 then .stream ((a - 0x2000100) / 0x20) ((a - 0x2000100) % 0x20)
  else if a < 0x2100000 then .nothing
  else if a < 0x2100600 then .ckp ((a - 0x2100000) / 0x100) (a % 0x100)
  else if a < 0x2101000 then .nothing
  else if a < 0x2101100 then .store ((a - 0x2101000) / 0x20) ((a - 0x2101000) % 0x20)
  else if a < 0x3000000 then .nothing
  else if a < 0x3070000 then .aivia ((a - 0x3000000) / 0x10000) (a % 0x10000)
  else .nothing

/-- Function fn may read the place, and it is served. -/
def State.mayRead (s : State) (fn : Nat) (x : Place) : Bool :=
  decide (fn ≤ s.nParts) && match x with
  | .glb off => fn = 0 || off = 0 || off = 8
  | .beat off => fn = 0 || off = 0 || off = 0x18
  | .irq _ => fn = 0
  | .glue _ => fn = 0
  | .gpio _ => fn = 0
  | .ring _ => fn = 0
  | .part p _ => decide (p < s.nParts) && (fn = 0 || fn = p + 1)
  | .bench b _ => s.windowOpen fn b
  | .ldg _ => fn = 0
  | .stream p _ => decide (p < s.nParts) && (fn = 0 || fn = p + 1)
  | .ckp p _ => !s.glb.asleep && decide (p < s.nParts) && (fn = 0 || fn = p + 1)
  | .store _ _ => !s.glb.asleep && fn = 0
  | .aivia f _ => s.aiviaOpen fn f
  | .nothing => false

/-- Function fn may write the place: virtual functions write their own bench windows and AIVIA window only. -/
def State.mayWrite (s : State) (fn : Nat) (x : Place) : Bool :=
  s.running && s.mayRead fn x && (fn = 0 || match x with
  | .bench _ _ => true
  | .aivia _ _ => true
  | _ => false)

/-- The register at a place. -/
def State.regAt (s : State) : Place → Reg
  | .glb off => s.glbReg off
  | .beat off => s.beatReg off
  | .irq off => s.irqReg off
  | .glue off => s.glueReg off
  | .gpio off => s.gpioReg off
  | .ring off => s.ringReg off
  | .part p off => s.partReg p off
  | .bench b off => s.benchReg b off
  | .ldg off => s.ldgReg off
  | .stream p off => s.streamReg p off
  | .ckp p off => s.ckpReg p off
  | .store i off => (s.session i).reg off
  | .aivia f off => s.aiviaReg f off
  | .nothing => none

/-- A device without firmware serves GLB_PART_IDENT and MGMT_FW_STATUS only (R766); one that is off or stopped serves none. -/
def State.serves (s : State) (a : Nat) : Bool := s.running || (s.life = .noFirmware && (a = 0 || a = 0x401000))

/-- What function fn finds at a BAR0 offset: a register that starts there, where it may read it. -/
def State.barReg (s : State) (fn a : Nat) : Reg := if s.serves a && s.mayRead fn (place a) then s.regAt (place a) else none

/-- The 64-bit register whose high half lies at an offset. -/
def State.highOf (s : State) (fn a : Nat) : Option W64 :=
  if a % 8 != 4 then none
  else match s.barReg fn (a - 4) with
    | some (true, v) => some v
    | _ => none

/-! ## Reads (R17 to R19, R808, R811, R813) -/

/-- The latched high half of a register for a function. -/
def State.latchedHigh (s : State) (fn a : Nat) : Option W32 := (s.hiLatch.getD fn []).lookup a

/-- A 32-bit read: what it returns. -/
def State.read32 (s : State) (fn a : Nat) : W32 :=
  if a % 4 != 0 then 0
  else match s.barReg fn a with
    | some (_, v) => v.setWidth 32
    | none => match s.highOf fn a with
      | some v => (s.latchedHigh fn (a - 4)).getD ((v >>> 32).setWidth 32)
      | none => 0

/-- A 64-bit read: what it returns. -/
def State.read64 (s : State) (fn a : Nat) : W64 :=
  if a % 8 != 0 then 0
  else match s.barReg fn a with
    | some (true, v) => v
    | r =>
      let lo : W64 := (r.map (·.2)).getD 0
      let hi : W64 := match s.barReg fn (a + 4) with
        | some (false, v) => v
        | _ => 0
      lo ||| (hi <<< 32)

/-- The high halves that a 32-bit read latches or uses up (R18). -/
def State.latchRead (s : State) (fn a : Nat) : State :=
  if a % 4 != 0 then s
  else match s.barReg fn a with
    | some (true, v) =>
      { s with hiLatch := s.hiLatch.modify fn fun xs => (a, (v >>> 32).setWidth 32) :: xs.filter fun x => x.1 != a }
    | some (false, _) => s
    | none => if (s.highOf fn a).isSome then { s with hiLatch := s.hiLatch.modify fn fun xs => xs.filter fun x => x.1 != a - 4 } else s

/-- LOW_HALF_READ: a 32-bit read of BAR0. The low half of a 64-bit register latches the high half for the function; a read of a latched
high half uses the latch up. -/
def lowHalfReadEffect (fn addr : Nat) (s : State) : State := (s.latchRead fn addr).emit (.bar0Read fn addr (s.read32 fn addr))
def execLowHalfRead (fn addr : Nat) (s : State) : Host.Outcome State Fault Refusal := done s (lowHalfReadEffect fn addr)

/-! ## Writes of 32-bit registers (R6, R8, R727) -/

def State.writeGlb (s : State) (off : Nat) (v : W32) : State :=
  if off = 0x200 then s.modGlb fun g => { g with disStatus := w1c g.disStatus 3 v (s.raisedIn 2) }
  else if off = 0x300 then s.writeResetControl v s.start
  else if off = 0x310 then
    let n := s.nSeats
    { s with benches := s.benches.zipIdx.map fun (y : Bench × Nat) =>
        let r := bitsOf v.toNat (2 * y.2 + 1) (2 * y.2)
        if y.2 < n && r != 3 then { y.1 with powerReq := r } else y.1 }
  else if off = 0x318 then s.writePkgPower v
  else s

def State.writeBeat (s : State) (fn off : Nat) (v : W32) : State :=
  if off = 0x18 then s.modBeat fun b => { b with events := w1c b.events 0xF00 v (s.raisedIn 0) }
  else if off = 0x1C then s.writeBeatControl v
  else if off = 0x20 then s.writeLocked 0x100020 fn
  else s

/-- The enable of leaf i; leaves at their reset value are not listed. -/
def Irq.setLeaf (x : Irq) (i : Nat) (v : W32) : Irq :=
  let rest := x.leafEnable.filter fun e => e.1 != i
  { x with leafEnable := if v = 0xFFFFFFFF#32 then rest else (i, v) :: rest }

def State.writeIrq (s : State) (off : Nat) (v : W32) : State :=
  if off = 0x04 then s.modIrq fun x => { x with summaryEnable := v &&& 0x1FFFFFFF#32 }
  else if off = 0x08 then s.modIrq fun x => { x with pinEn := v.getLsbD 0 }
  else if off = 0x0C then irqEoiEffect 0 v s
  else if off = 0x10 then s.modIrq fun x => { x with pfCompletion := x.pfCompletion && (!v.getLsbD 0 || (s.raisedIn 13).getLsbD 0) }
  else if 0x100 ≤ off && off < 0x168 && off % 8 = 4 then
    s.modIrq fun x => { x with benchEnable := x.benchEnable.set ((off - 0x100) / 8) (v &&& 0xFFF#32) }
  else if (s.irqReg off).isSome && decide (0x400 ≤ off) then s.modIrq fun x => x.setLeaf ((off - 0x400) / 4) v
  else s

def State.writeGpio (s : State) (off : Nat) (v : W32) : State :=
  if off < 0x10 && off % 4 = 0 then s.modGpio fun g => g.writeFunc (off / 4) v
  else if off = 0x30 then s.modGpio fun g => { g with intStatus := w1c g.intStatus 0xFFFFFFFF v (s.raisedIn 4) }
  else if 0x100 ≤ off && off < 0x180 && off % 4 = 0 then s.modGpio fun g => g.writeDebounce ((off - 0x100) / 4) v
  else if off = 0x1004 then s.modMgmt fun m => { m with event := w1c m.event 7 v (s.raisedIn 5) }
  else s

def State.writeRing (s : State) (fn off : Nat) (v : W32) : State :=
  if off = 0x14 then s.writeLocked 0x800014 fn
  else if off = 0x28 then s.modRing fun r => { r with event := w1c r.event 0x3F v (s.raisedIn 1) }
  else s

/-- Queue registers of a core (R200, R203). -/
def State.writeQueue (s : State) (fn b c off : Nat) (v : W32) : State :=
  let q := off / 0x20
  let r := off % 0x20
  if off < 0x500 && (s.queueReg b c off).isSome then
    if r = 0x10 then queueDoorbellEffect fn b c q v s
    else if !s.queueWritable b then s.writeLocked (queueRegister b c q r) fn
    else if r = 0x08 then s.modQueue b c q fun x => { x with log2 := v.toNat % 32 }
    else if r = 0x14 then s.modQueue b c q fun x => { x with status := w1c x.status 3 v (s.raisedIn (queueKey b c q)) }
    else s
  else s

/-- HRD_FAULT, one register per partition. -/
def State.writeHurdle (s : State) (b off : Nat) (v : W32) : State := match s.benchPart b with
  | some p => if off = 0x800 then s.modPart p fun x => { x with hrdFault := w1c x.hrdFault 3 v (s.raisedIn (hurdleKey p)) } else s
  | none => s

def State.writeBench (s : State) (fn b off : Nat) (v : W32) : State :=
  let o := off % 0x10000
  let blk := off / 0x10000
  if blk = 2 || blk = 3 then
    if o = 0x04 then s.modCore b (blk - 2) fun k => { k with plb := { k.plb with fault := w1c k.plb.fault 1 v (s.raisedIn (benchKey b (4 + blk))) } } else s
  else if blk = 4 || blk = 5 then s.writeQueue fn b (blk - 4) o v
  else if blk = 6 || blk = 7 then
    if o = 0x10 then (if v.getLsbD 0 then satClearEffect fn b (blk - 6) s else s)
    else if o = 0x14 then s.modCore b (blk - 6) fun k => { k with arithFault := w1c k.arithFault 7 v (s.raisedIn (benchKey b (2 + blk))) }
    else s
  else if blk = 8 || blk = 9 then
    if o = 0x1C then s.modCore b (blk - 8) fun k => k.modMx fun m => { m with fault := w1c m.fault 1 v (s.raisedIn (benchKey b (2 + blk))) } else s
  else if blk = 10 then
    if o = 0x00 then s.modBench b fun x => { x with spd := { x.spd with status := w1c x.spd.status 0x3F v (s.raisedIn (benchKey b 0)) } } else s
  else if blk = 11 || blk = 12 then
    if o = 0x0C then s.modCore b (blk - 11) fun k => k.modDma fun d => { d with fault := w1c d.fault 3 v (s.raisedIn (benchKey b (blk - 10))) } else s
  else if blk = 13 || blk = 14 then
    if o = 0x8000 then s.modCore b (blk - 13) fun k => { k with tlyFault := w1c k.tlyFault 1 v (s.raisedIn (benchKey b (blk - 10))) } else s
  else if blk = 15 then s.writeHurdle b o v
  else s

/-- LDG registers. A shorter scrub interval counts from now (log entry 37). -/
def State.writeLdg (s : State) (fn off : Nat) (v : W32) : State :=
  if off = 0x1C then s.modLdg fun l => { l with event := w1c l.event 0x7F v (s.raisedIn 6) }
  else if off = 0x38 then s.modLdg fun l =>
    { l with scrubInterval := v.toNat % 2 ^ 16, scrubIn := if l.scrubInterval = 0 then v.toNat % 2 ^ 16 else min l.scrubIn (v.toNat % 2 ^ 16)
             scrubDue := if v.toNat % 2 ^ 16 = 0 then 0 else l.scrubDue }
  else if off = 0x3C then s.writeLocked 0x200003C fn
  else s

def State.writeCkp (s : State) (p off : Nat) (v : W32) : State :=
  if off = 0x18 then s.modPart p fun x => { x with ckp := { x.ckp with event := w1c x.ckp.event 0x3F v (s.raisedIn (7 + p)) } } else s

/-- BASE and SIZE registers do not take writes while the window is in use (R658). -/
def Aivia.locked (a : Aivia) : Bool := a.enable || a.ready

def State.writeAivia (s : State) (fn f off : Nat) (v : W32) : State :=
  if off = 0x08 || off = 0x20 then
    if (s.fn f).locked then s.writeLocked (0x3000000 + 0x10000 * f + off) fn
    else s.modFn f fun a => if off = 0x08 then { a with sqLog2 := v.toNat % 16 } else { a with cqLog2 := v.toNat % 16 }
  else if off = 0x0C then aiviaDoorbellEffect fn f v s
  else if off = 0x24 then completionQueueFreeEffect fn f v s
  else if off = 0x2C then (if v.getLsbD 0 then aiviaEnableEffect fn f s else aiviaDisableEffect fn f s)
  else if off = 0x30 then s.modFn f fun a =>
    { a with badDoorbell := a.badDoorbell && (!v.getLsbD 1 || (s.raisedIn (aiviaKey f)).getLsbD 1)
             fetchFault := a.fetchFault && (!v.getLsbD 3 || (s.raisedIn (aiviaKey f)).getLsbD 3) }
  else s

/-- A write of a 32-bit register. -/
def State.writeNarrow (s : State) (fn : Nat) (x : Place) (v : W32) : State := match x with
  | .glb off => s.writeGlb off v
  | .beat off => s.writeBeat fn off v
  | .irq off => s.writeIrq off v
  | .glue off => if off = 0x100 then s.modGlue fun g => { g with event := w1c g.event 7 v (s.raisedIn 3) } else s
  | .gpio off => s.writeGpio off v
  | .ring off => s.writeRing fn off v
  | .part _ _ => s
  | .bench b off => s.writeBench fn b off v
  | .ldg off => s.writeLdg fn off v
  | .stream _ _ => s
  | .ckp p off => s.writeCkp p off v
  | .store _ _ => s
  | .aivia f off => s.writeAivia fn f off v
  | .nothing => s

/-! ## Writes of 64-bit registers (R812, R752) -/

/-- How much of a 64-bit register an access writes. -/
inductive Part64 where | low | high | whole
  deriving DecidableEq, Repr

/-- The register with the accessed part replaced; a 32-bit access brings its data in the low half. -/
def Part64.put (x : Part64) (old v : W64) : W64 := match x with
  | .low => setHalf old 0 (v.setWidth 32)
  | .high => setHalf old 1 (v.setWidth 32)
  | .whole => v

/-- The offset of the access within the register (R727). -/
def Part64.off (x : Part64) : Nat := match x with
  | .high => 4
  | _ => 0

/-- A write of a 64-bit register, or of a half of it. -/
def State.writeWide (s : State) (fn : Nat) (x : Place) (h : Part64) (v : W64) : State := match x with
  | .beat off => if off = 0x08 then s.modBeat fun b => { b with epochValue := h.put b.epochValue v } else s
  | .glue off => if off < 0x80 then s.writeLocked (0x300000 + off + h.off) fn else s
  | .gpio off =>
    if off = 0x28 then s.modGpio fun g => { g with intMode := h.put g.intMode v }
    else if off = 0x18 && h = .whole then s.modGpio fun g => g.writeOut v
    else s
  | .bench b off =>
    let blk := off / 0x10000
    let o := off % 0x10000
    if (blk = 4 || blk = 5) && decide (o < 0x500) then
      if s.queueWritable b then
        s.modQueue b (blk - 4) (o / 0x20) fun q => { q with base := h.put q.base v &&& 0xFFFFFFFFFFFFFFE0#64 }
      else s.writeLocked (queueRegister b (blk - 4) (o / 0x20) h.off) fn
    else s
  | .aivia f off =>
    if off = 0x00 || off = 0x18 then
      if (s.fn f).locked then s.writeLocked (0x3000000 + 0x10000 * f + off + h.off) fn
      else s.modFn f fun a =>
        if off = 0x00 then { a with sqBase := h.put a.sqBase v &&& 0xFFFFFFFFFFFFFF80#64 }
        else { a with cqBase := h.put a.cqBase v &&& 0xFFFFFFFFFFFFFFE0#64 }
    else s
  | _ => s

/-! ## The write access (R808, R809, R811, R813) -/

/-- A 32-bit write at an offset, where a register or the high half of one lies. -/
def State.write32 (s : State) (fn a : Nat) (v : W32) : State :=
  if !s.mayWrite fn (place a) then s
  else match s.regAt (place a) with
    | some (true, _) => s.writeWide fn (place a) .low (v.setWidth 64)
    | some (false, _) => s.writeNarrow fn (place a) v
    | none => if (s.highOf fn a).isSome then s.writeWide fn (place (a - 4)) .high (v.setWidth 64) else s

/-- A 64-bit write: one 64-bit register, or two 32-bit ones, the lower first. -/
def State.write64 (s : State) (fn a : Nat) (v : W64) : State :=
  match s.mayWrite fn (place a), s.regAt (place a) with
  | true, some (true, _) => s.writeWide fn (place a) .whole v
  | _, _ => (s.write32 fn a (v.setWidth 32)).write32 fn (a + 4) ((v >>> 32).setWidth 32)

/-- REGISTER_WRITE: a host write of BAR0. -/
def registerWriteEffect (fn addr size : Nat) (value : W64) (s : State) : State :=
  if size = 4 && addr % 4 = 0 then s.write32 fn addr (value.setWidth 32)
  else if size = 8 && addr % 8 = 0 then s.write64 fn addr value
  else s
def execRegisterWrite (fn addr size : Nat) (value : W64) (s : State) : Host.Outcome State Fault Refusal :=
  done s (registerWriteEffect fn addr size value)

end Sys2Proof.Machine
end

