-- ==== Sys2Proof/Machine/Dispatch.lean ====
section
/-! DEFINITION. One arm per row of the opcode table: each arm calls its meaning. -/

namespace Sys2Proof.Machine

def exec (i : Instr) (s : State) : Host.Outcome State Fault Refusal :=
  match i with
  | .lock => Sys2Proof.Machine.execLock s
  | .holdoverEntry => Sys2Proof.Machine.execHoldoverEntry s
  | .timelyReturn => Sys2Proof.Machine.execTimelyReturn s
  | .beatLost => Sys2Proof.Machine.execBeatLost s
  | .relock => Sys2Proof.Machine.execRelock s
  | .epochEdge => Sys2Proof.Machine.execEpochEdge s
  | .epochBeat => Sys2Proof.Machine.execEpochBeat s
  | .epochArm fn word => Sys2Proof.Machine.execEpochArm fn word s
  | .epochDisarm fn word => Sys2Proof.Machine.execEpochDisarm fn word s
  | .gate env => Sys2Proof.Machine.execGate env s
  | .startLaunch p => Sys2Proof.Machine.execStartLaunch p s
  | .blap b c q errs => Sys2Proof.Machine.execBlap b c q errs s
  | .lapStart b => Sys2Proof.Machine.execLapStart b s
  | .batonArrival p errs => Sys2Proof.Machine.execBatonArrival p errs s
  | .linkRetry b dir again => Sys2Proof.Machine.execLinkRetry b dir again s
  | .spliceWindowOpen => Sys2Proof.Machine.execSpliceWindowOpen s
  | .spliceWindowClose => Sys2Proof.Machine.execSpliceWindowClose s
  | .rejoinDone b pass => Sys2Proof.Machine.execRejoinDone b pass s
  | .nop b c q => Sys2Proof.Machine.execNop b c q s
  | .jog b c q => Sys2Proof.Machine.execJog b c q s
  | .endQueue b c q => Sys2Proof.Machine.execEndQueue b c q s
  | .badEntry b c q => Sys2Proof.Machine.execBadEntry b c q s
  | .mload b c q errs => Sys2Proof.Machine.execMload b c q errs s
  | .mstream b c q errs => Sys2Proof.Machine.execMstream b c q errs s
  | .mconv b c q errs => Sys2Proof.Machine.execMconv b c q errs s
  | .mgen b c q errs => Sys2Proof.Machine.execMgen b c q errs s
  | .vadd b c q errs => Sys2Proof.Machine.execVadd b c q errs s
  | .vsub b c q errs => Sys2Proof.Machine.execVsub b c q errs s
  | .vmul b c q errs => Sys2Proof.Machine.execVmul b c q errs s
  | .vmax b c q errs => Sys2Proof.Machine.execVmax b c q errs s
  | .vmin b c q errs => Sys2Proof.Machine.execVmin b c q errs s
  | .vfunc b c q errs => Sys2Proof.Machine.execVfunc b c q errs s
  | .vsum b c q errs => Sys2Proof.Machine.execVsum b c q errs s
  | .vreq b c q errs => Sys2Proof.Machine.execVreq b c q errs s
  | .railMv b c q errs => Sys2Proof.Machine.execRailMv b c q errs s
  | .railMvSpill b c q errs => Sys2Proof.Machine.execRailMvSpill b c q errs s
  | .railMvCont b c q errs => Sys2Proof.Machine.execRailMvCont b c q errs s
  | .sstart b c q => Sys2Proof.Machine.execSstart b c q s
  | .sdrain b c q => Sys2Proof.Machine.execSdrain b c q s
  | .srearm b c q => Sys2Proof.Machine.execSrearm b c q s
  | .dowel b c q errs => Sys2Proof.Machine.execDowel b c q errs s
  | .psolve b c q errs => Sys2Proof.Machine.execPsolve b c q errs s
  | .pbatch b c q errs => Sys2Proof.Machine.execPbatch b c q errs s
  | .pdelta b c q errs => Sys2Proof.Machine.execPdelta b c q errs s
  | .solveComplete b c => Sys2Proof.Machine.execSolveComplete b c s
  | .commandComplete b c q => Sys2Proof.Machine.execCommandComplete b c q s
  | .commandSteal b c ob oc oq errs => Sys2Proof.Machine.execCommandSteal b c ob oc oq errs s
  | .hurdleArrival b c q => Sys2Proof.Machine.execHurdleArrival b c q s
  | .earlyArrivalMove p h => Sys2Proof.Machine.execEarlyArrivalMove p h s
  | .buddyPauseEnd p => Sys2Proof.Machine.execBuddyPauseEnd p s
  | .stepCommit p hostOut => Sys2Proof.Machine.execStepCommit p hostOut s
  | .stepRerun p => Sys2Proof.Machine.execStepRerun p s
  | .arrayGate b c a => Sys2Proof.Machine.execArrayGate b c a s
  | .rackWriteback b bank => Sys2Proof.Machine.execRackWriteback b bank s
  | .queueDoorbell fn b c q word => Sys2Proof.Machine.execQueueDoorbell fn b c q word s
  | .satClear fn b c => Sys2Proof.Machine.execSatClear fn b c s
  | .feederPush b c a => Sys2Proof.Machine.execFeederPush b c a s
  | .streamTileStart b c slot errs => Sys2Proof.Machine.execStreamTileStart b c slot errs s
  | .readDataReturn b c id x errs => Sys2Proof.Machine.execReadDataReturn b c id x errs s
  | .writeComplete b c id => Sys2Proof.Machine.execWriteComplete b c id s
  | .tileLand b c slot => Sys2Proof.Machine.execTileLand b c slot s
  | .deadlineMiss b c slot => Sys2Proof.Machine.execDeadlineMiss b c slot s
  | .lateTileResume p => Sys2Proof.Machine.execLateTileResume p s
  | .atsTranslationCompletion b c pasid iova r => Sys2Proof.Machine.execAtsTranslationCompletion b c pasid iova r s
  | .priResponse b c pasid iova r => Sys2Proof.Machine.execPriResponse b c pasid iova r s
  | .translationTimeout b c pasid iova => Sys2Proof.Machine.execTranslationTimeout b c pasid iova s
  | .atsInvalidate f pasid base len => Sys2Proof.Machine.execAtsInvalidate f pasid base len s
  | .atsInvalidateComplete f => Sys2Proof.Machine.execAtsInvalidateComplete f s
  | .taskAbortComplete p => Sys2Proof.Machine.execTaskAbortComplete p s
  | .stripeStart => Sys2Proof.Machine.execStripeStart s
  | .nandProgramDone m pass => Sys2Proof.Machine.execNandProgramDone m pass s
  | .signatureTimer p => Sys2Proof.Machine.execSignatureTimer p s
  | .memberFailed m => Sys2Proof.Machine.execMemberFailed m s
  | .anchorTimer => Sys2Proof.Machine.execAnchorTimer s
  | .scrubRead pages => Sys2Proof.Machine.execScrubRead pages s
  | .rebuildStripe pages => Sys2Proof.Machine.execRebuildStripe pages s
  | .clampDone p => Sys2Proof.Machine.execClampDone p s
  | .nvmeCompletion session status => Sys2Proof.Machine.execNvmeCompletion session status s
  | .sessionClose session why => Sys2Proof.Machine.execSessionClose session why s
  | .keepAlive session => Sys2Proof.Machine.execKeepAlive session s
  | .keepAliveTimeout session => Sys2Proof.Machine.execKeepAliveTimeout session s
  | .storeSessionConnected session r => Sys2Proof.Machine.execStoreSessionConnected session r s
  | .buddyLoadDone p => Sys2Proof.Machine.execBuddyLoadDone p s
  | .aiviaDoorbell fn f word => Sys2Proof.Machine.execAiviaDoorbell fn f word s
  | .packetCapture f cap => Sys2Proof.Machine.execPacketCapture f cap s
  | .aiviaEnable fn f => Sys2Proof.Machine.execAiviaEnable fn f s
  | .aiviaDisable fn f => Sys2Proof.Machine.execAiviaDisable fn f s
  | .completionPost f => Sys2Proof.Machine.execCompletionPost f s
  | .completionQueueFree fn f word => Sys2Proof.Machine.execCompletionQueueFree fn f word s
  | .bar2Access fn off acc => Sys2Proof.Machine.execBar2Access fn off acc s
  | .aiviaNop f => Sys2Proof.Machine.execAiviaNop f s
  | .partCreate f => Sys2Proof.Machine.execPartCreate f s
  | .partResize f => Sys2Proof.Machine.execPartResize f s
  | .partDestroy f => Sys2Proof.Machine.execPartDestroy f s
  | .partitionZeroed p => Sys2Proof.Machine.execPartitionZeroed p s
  | .partBalance f => Sys2Proof.Machine.execPartBalance f s
  | .partPreempt f => Sys2Proof.Machine.execPartPreempt f s
  | .ringSpareSet f => Sys2Proof.Machine.execRingSpareSet f s
  | .ringRejoin f => Sys2Proof.Machine.execRingRejoin f s
  | .reconcile f mgmt data => Sys2Proof.Machine.execReconcile f mgmt data s
  | .programLoad f image => Sys2Proof.Machine.execProgramLoad f image s
  | .programLoadDone p => Sys2Proof.Machine.execProgramLoadDone p s
  | .run f hostIn => Sys2Proof.Machine.execRun f hostIn s
  | .ckpArm f found => Sys2Proof.Machine.execCkpArm f found s
  | .ckpDisarm f => Sys2Proof.Machine.execCkpDisarm f s
  | .ckpRestore f found => Sys2Proof.Machine.execCkpRestore f found s
  | .buddySet f => Sys2Proof.Machine.execBuddySet f s
  | .storePortSet f => Sys2Proof.Machine.execStorePortSet f s
  | .storeConnect f => Sys2Proof.Machine.execStoreConnect f s
  | .storeDisconnect f => Sys2Proof.Machine.execStoreDisconnect f s
  | .ldgFormat f media => Sys2Proof.Machine.execLdgFormat f media s
  | .ldgMemberReplace f media => Sys2Proof.Machine.execLdgMemberReplace f media s
  | .ldgUnseal f => Sys2Proof.Machine.execLdgUnseal f s
  | .ldgRelease f => Sys2Proof.Machine.execLdgRelease f s
  | .ldgExport f pages => Sys2Proof.Machine.execLdgExport f pages s
  | .identCert f => Sys2Proof.Machine.execIdentCert f s
  | .glueWrite f => Sys2Proof.Machine.execGlueWrite f s
  | .glueSlotProgrammed => Sys2Proof.Machine.execGlueSlotProgrammed s
  | .selfTest f => Sys2Proof.Machine.execSelfTest f s
  | .deferredSelfTestStart b => Sys2Proof.Machine.execDeferredSelfTestStart b s
  | .selfTestDone b pass => Sys2Proof.Machine.execSelfTestDone b pass s
  | .calibrate f => Sys2Proof.Machine.execCalibrate f s
  | .calibrateStart => Sys2Proof.Machine.execCalibrateStart s
  | .calibrateDone => Sys2Proof.Machine.execCalibrateDone s
  | .fwStage f image => Sys2Proof.Machine.execFwStage f image s
  | .irqEoi fn word => Sys2Proof.Machine.execIrqEoi fn word s
  | .por env => Sys2Proof.Machine.execPor env s
  | .perstAssert env => Sys2Proof.Machine.execPerstAssert env s
  | .pkgReset fn word env => Sys2Proof.Machine.execPkgReset fn word env s
  | .flr p => Sys2Proof.Machine.execFlr p s
  | .pfFlr => Sys2Proof.Machine.execPfFlr s
  | .benchReset fn word => Sys2Proof.Machine.execBenchReset fn word s
  | .engineReset fn word => Sys2Proof.Machine.execEngineReset fn word s
  | .benchPowerTransition b => Sys2Proof.Machine.execBenchPowerTransition b s
  | .packageSleepEntry => Sys2Proof.Machine.execPackageSleepEntry s
  | .sleepExit fn word => Sys2Proof.Machine.execSleepExit fn word s
  | .powerOff => Sys2Proof.Machine.execPowerOff s
  | .thermalTrip => Sys2Proof.Machine.execThermalTrip s
  | .supplyMonitorTrip b => Sys2Proof.Machine.execSupplyMonitorTrip b s
  | .gpioOutWrite fn value => Sys2Proof.Machine.execGpioOutWrite fn value s
  | .gpioFuncEnWrite fn group value => Sys2Proof.Machine.execGpioFuncEnWrite fn group value s
  | .gpioDebounceWrite fn pin value => Sys2Proof.Machine.execGpioDebounceWrite fn pin value s
  | .gpioIntModeWrite fn half value => Sys2Proof.Machine.execGpioIntModeWrite fn half value s
  | .gpioFilterChange pin => Sys2Proof.Machine.execGpioFilterChange pin s
  | .tempSample bench hbm => Sys2Proof.Machine.execTempSample bench hbm s
  | .smbusIdent pec => Sys2Proof.Machine.execSmbusIdent pec s
  | .smbusFwStatus pec => Sys2Proof.Machine.execSmbusFwStatus pec s
  | .smbusAssetTag pec => Sys2Proof.Machine.execSmbusAssetTag pec s
  | .smbusStatus pec => Sys2Proof.Machine.execSmbusStatus pec s
  | .smbusTempMax pec => Sys2Proof.Machine.execSmbusTempMax pec s
  | .smbusBenchTemp k pec => Sys2Proof.Machine.execSmbusBenchTemp k pec s
  | .smbusHbmTemp k pec => Sys2Proof.Machine.execSmbusHbmTemp k pec s
  | .lowHalfRead fn addr => Sys2Proof.Machine.execLowHalfRead fn addr s
  | .registerWrite fn addr size value => Sys2Proof.Machine.execRegisterWrite fn addr size value s
  | .refBeatEdge edge lines => Sys2Proof.Machine.execRefBeatEdge edge lines s
  | .completionTimeout b c id => Sys2Proof.Machine.execCompletionTimeout b c id s
  | .nandEraseDone m pass => Sys2Proof.Machine.execNandEraseDone m pass s
  | .powerTransitionDone b => Sys2Proof.Machine.execPowerTransitionDone b s
  | .msixVectorUnmask => Sys2Proof.Machine.execMsixVectorUnmask s
  | .smbusNack => Sys2Proof.Machine.execSmbusNack s

end Sys2Proof.Machine
end

