-- ==== Sys2Proof/Safety.lean ====
section
/-! DEFINITION. The terms in which claims are stated: the invariant of the machine, what is unchanged between two states, an admitted
packet, its completion, and what a run is when nothing of the device stops it. -/

namespace Sys2Proof.Machine

/-! ## The invariant -/

/-- What the requests and index lists of a DMA engine have read is in canonical form. -/
def Dma.wf (d : Dma) : Bool :=
  (d.reads ++ d.writes).all (fun r => Memory.wf r.buf) && d.slots.all fun x => x.tiles.all fun t => t.index.all Memory.wf

/-- Every byte store is in its canonical form, and so is what DMA requests carry. -/
def State.storesWf (s : State) : Bool :=
  Memory.wf s.hbm && s.benches.all fun x => Memory.wf x.rack && Memory.wf x.act && x.cores.all fun k => k.dma.wf

/-- The block has its units: 7 functions (R638), 6 partitions (R140), 13 benches (R2), 8 sessions (R567), and two cores on every
bench (R167). -/
def State.unitsWf (s : State) : Bool :=
  decide (s.fns.length = 7) && decide (s.parts.length = 6) && decide (s.benches.length = 13) && decide (s.sessions.length = 8) &&
    s.benches.all fun x => decide (x.cores.length = 2)

/-- No setting has used more one-time slots than it has (R722, R724). -/
def State.slotsWf (s : State) : Bool :=
  decide (s.glue.used.length = 16) && (List.range 16).all fun n => decide (s.glue.used.getD n 0 ≤ glueSlots n)

/-- An array holds a whole tile, or none, and whole accumulator rows (R244, R246). -/
def ArraySt.wf (x : ArraySt) : Bool :=
  (decide (x.tile = []) || decide (x.tile.length = 16384)) && x.acc.all fun e => decide (e.2.length = 128)

/-- Every array of the block, four on each core (R244). -/
def State.arraysWf (s : State) : Bool :=
  s.benches.all fun x => x.cores.all fun k => decide (k.mx.arrays.length = 4) && k.mx.arrays.all ArraySt.wf

/-! ## What is unchanged -/

/-- Every byte of HBM and of every bench's rack and activation store reads as before. -/
def sameBytes (s t : State) : Prop :=
  (∀ a, Memory.get t.hbm a = Memory.get s.hbm a) ∧
    ∀ b a, Memory.get (t.bench b).rack a = Memory.get (s.bench b).rack a ∧ Memory.get (t.bench b).act a = Memory.get (s.bench b).act a

/-- What write requests make of a store, in their order. -/
def writesOf (rs : List MemReq) (m : Mem) : Mem := rs.foldl (fun m r => r.data.foldl (fun m x => Memory.write m x.1 x.2) m) m

/-- Write requests of a bench's rack (true) or activation store leave the bytes bs at a, and every other byte as it was. -/
def writesAt (rack : Bool) (rs : List MemReq) (a : Nat) (bs : Bytes) : Prop :=
  (∀ r ∈ rs, r.write = true ∧ r.rack = rack) ∧
    ∀ m x, Memory.get (writesOf rs m) x = if a ≤ x ∧ x < a + bs.length then bs.getD (x - a) 0 else Memory.get m x

/-! ## Packets -/

/-- The open gate admits packet x, at place i of function f's gate buffer, to its opcode: the header's checks hold (R666). -/
def State.admits (s : State) (f op i : Nat) (x : Pkt) : Prop := s.nextPkt f = some (i, x) ∧ x.op = op ∧ s.headerDetail f x = none

/-- A completion that waits to be written: its packet, target, status, detail and results (R661, R663). -/
def State.answered (t : State) (id : PktId) (part status detail r0 r1 r2 : Nat) : Prop :=
  { id := id, part := part, status := status, detail := detail, r0 := BitVec.ofNat 64 r0, r1 := BitVec.ofNat 64 r1, r2 := BitVec.ofNat 32 r2 }
    ∈ (t.fn id.f).compl

/-- The rows that take in an Aivia packet: the function and the opcode (R667). -/
def packetRow : Instr → Option (Nat × Nat)
  | .aiviaNop f => some (f, 0x00)
  | .partCreate f => some (f, 0x01)
  | .partResize f => some (f, 0x02)
  | .partDestroy f => some (f, 0x03)
  | .partBalance f => some (f, 0x04)
  | .partPreempt f => some (f, 0x05)
  | .ringSpareSet f => some (f, 0x08)
  | .ringRejoin f => some (f, 0x09)
  | .reconcile f _ _ => some (f, 0x0A)
  | .programLoad f _ => some (f, 0x10)
  | .run f _ => some (f, 0x11)
  | .ckpArm f _ => some (f, 0x18)
  | .ckpDisarm f => some (f, 0x19)
  | .ckpRestore f _ => some (f, 0x1A)
  | .buddySet f => some (f, 0x1B)
  | .storePortSet f => some (f, 0x20)
  | .storeConnect f => some (f, 0x21)
  | .storeDisconnect f => some (f, 0x22)
  | .ldgFormat f _ => some (f, 0x28)
  | .ldgMemberReplace f _ => some (f, 0x29)
  | .ldgUnseal f => some (f, 0x2A)
  | .ldgRelease f => some (f, 0x2B)
  | .ldgExport f _ => some (f, 0x2C)
  | .identCert f => some (f, 0x30)
  | .glueWrite f => some (f, 0x31)
  | .selfTest f => some (f, 0x32)
  | .calibrate f => some (f, 0x33)
  | .fwStage f _ => some (f, 0x34)
  | _ => none

/-- The function of a packet in work has not been reset since the packet's admission (R626, R642). -/
def State.hears (s : State) (id : PktId) : Prop := id.f < s.fns.length ∧ (s.fn id.f).epoch = id.epoch

/-! ## Engine commands -/

/-- The rows of the engines' opcodes: bench, core, queue and opcode. -/
def engineRow : Instr → Option (Nat × Nat × Nat × Nat)
  | .nop b c q => some (b, c, q, 0x00)
  | .jog b c q => some (b, c, q, 0x01)
  | .endQueue b c q => some (b, c, q, 0x02)
  | .mload b c q _ => some (b, c, q, 0x10)
  | .mstream b c q _ => some (b, c, q, 0x11)
  | .mconv b c q _ => some (b, c, q, 0x12)
  | .mgen b c q _ => some (b, c, q, 0x13)
  | .vadd b c q _ => some (b, c, q, 0x40)
  | .vsub b c q _ => some (b, c, q, 0x41)
  | .vmul b c q _ => some (b, c, q, 0x42)
  | .vmax b c q _ => some (b, c, q, 0x43)
  | .vmin b c q _ => some (b, c, q, 0x44)
  | .vfunc b c q _ => some (b, c, q, 0x45)
  | .vsum b c q _ => some (b, c, q, 0x46)
  | .vreq b c q _ => some (b, c, q, 0x47)
  | .railMv b c q _ => some (b, c, q, 0x80)
  | .railMvSpill b c q _ => some (b, c, q, 0x81)
  | .railMvCont b c q _ => some (b, c, q, 0x82)
  | .sstart b c q => some (b, c, q, 0xA0)
  | .sdrain b c q => some (b, c, q, 0xA1)
  | .srearm b c q => some (b, c, q, 0xA2)
  | .dowel b c q _ => some (b, c, q, 0xA3)
  | .blap b c q _ => some (b, c, q, 0xA4)
  | .psolve b c q _ => some (b, c, q, 0xC0)
  | .pbatch b c q _ => some (b, c, q, 0xC1)
  | .pdelta b c q _ => some (b, c, q, 0xC2)
  | _ => none

/-- The vector or rail row of an opcode. -/
def vectorRow (op b c q : Nat) (errs : List Upset) : Instr :=
  if op = 0x40 then .vadd b c q errs else if op = 0x41 then .vsub b c q errs else if op = 0x42 then .vmul b c q errs
  else if op = 0x43 then .vmax b c q errs else if op = 0x44 then .vmin b c q errs else if op = 0x45 then .vfunc b c q errs
  else if op = 0x46 then .vsum b c q errs else if op = 0x47 then .vreq b c q errs else if op = 0x80 then .railMv b c q errs
  else if op = 0x81 then .railMvSpill b c q errs else .railMvCont b c q errs

/-- The vector and rail opcodes (R240). -/
def vectorOps : List Nat := [0x40, 0x41, 0x42, 0x43, 0x44, 0x45, 0x46, 0x47, 0x80, 0x81, 0x82]

/-- The cause of a descriptor fault of an SSTART (R396). -/
def State.sstartCause (s : State) (p b c q : Nat) (t : Task) (cmd : Cmd) : Option Nat :=
  let x := { (s.core b c).slot (s.slotIdx p b (ctxOf q) (cmd.a 5 0)) with starter := q }
  (s.slotCause p b (ctxOf q) t.credit x cmd.farOffset x.tileCount).or (if x.busy && x.persistent then some 5 else none)

/-- The cause of a fault of an SREARM (R396). -/
def State.srearmCause (s : State) (p b c q : Nat) (t : Task) (cmd : Cmd) : Option Nat :=
  let x := (s.core b c).slot (s.slotIdx p b (ctxOf q) (cmd.a 5 0))
  (s.slotCause p b (ctxOf q) t.credit x cmd.farOffset (if cmd.a 31 6 = 0 then x.tileCount else cmd.a 31 6)).or
    (if x.busy && x.persistent then none else some 5)

/-- The command faults at its issue. -/
def State.issueFaults (s : State) (p b c q : Nat) (t : Task) (cmd : Cmd) : Bool :=
  let xs := cmd.arrays.map (s.core b c).array
  let slot := (s.core b c).slot (s.slotIdx p b (ctxOf q) (cmd.a 5 0))
  if vectorOps.contains cmd.opcode then (s.vecFault p b c q cmd).isSome
  else if cmd.opcode = 0x10 then (s.mloadFault p b q cmd).isSome
  else if cmd.opcode = 0x11 then (s.streamFault p b q cmd xs none).isSome
  else if cmd.opcode = 0x12 then (s.streamFault p b q cmd xs (s.genAt p b c q cmd)).isSome
  else if cmd.opcode = 0x13 then (s.mgenFault p b q cmd).isSome
  else if cmd.opcode = 0xA0 then (s.sstartCause p b c q t cmd).isSome
  else if cmd.opcode = 0xA1 then !(slot.busy && slot.persistent)
  else if cmd.opcode = 0xA2 then (s.srearmCause p b c q t cmd).isSome
  else if cmd.opcode = 0xA3 then (s.dowelCause p b (ctxOf q) t cmd).isSome
  else if cmd.opcode = 0xA4 then (s.blapCause p b c q cmd).isSome
  else if cmd.opcode = 0xC0 then (s.psolveFault p b c q cmd).isSome
  else if cmd.opcode = 0xC1 then (s.pbatchFault p b q cmd).isSome
  else if cmd.opcode = 0xC2 then
    !actFits (s.actOff p b (ctxOf q) (cmd.b 25 0)) (8 * cmd.a 23 0) 8 || (s.residentOf b c).isNone
  else false

/-! ## Safe runs -/

/-- No fault of the partition's run is latched: it issues, and no end, rerun, recovery or pause has stopped it. -/
def Part.runs (x : Part) : Bool := x.task.isSome && decide (x.stop = .none)

end Sys2Proof.Machine
end

