-- ==== Sys2Proof/Certificates/Slice0/Obligations.lean ====
section
/-! DEFINITION. The statements about the model, one for each rule or group of rules of spec/ that says what a command does. Every
outcome is written with settle, which sends the messages of newly pending interrupts and changes nothing else (see
SettleSendsMessagesOnly). -/

open Sys2Proof Sys2Proof.Machine

/-! ## The machine -/

/-- The command at the front of the queue runs on the state with the queue's rest. -/
def Obligations.StepRunsFrontCommand : Prop :=
  ∀ (c : Instr) (rest : List Instr) (s : State), s.pending = c :: rest → step s = exec c { s with pending := rest }

/-- On an empty queue a step is one core cycle (the model's choice, log entry 2): none before the first lock or in the last cycle of a beat,
which waits for the REF_BEAT edge (R53); else the cycle number within the beat rises by one. -/
def Obligations.StepOnEmptyQueueIsOneCoreCycle : Prop :=
  ∀ s : State, s.pending = [] →
    (s.beat.started = false ∨ s.m ≤ s.beat.cc + 1 → step s = .next s) ∧
    (s.beat.started = true → s.beat.cc + 1 < s.m →
      ∃ t, step s = .next t ∧ t.beat.cc = s.beat.cc + 1 ∧ t.beat.periods = s.beat.periods ∧ t.beat.mActive = s.beat.mActive ∧
        t.pending = [])

/-- The messages of newly pending interrupts are all that ends a command beside its own effect. -/
def Obligations.SettleSendsMessagesOnly : Prop :=
  ∀ s t : State, ∃ ms : List Nat,
    settle s t = { t with out := ms.map Output.msix ++ t.out
                          irq := { t.irq with msixPending := t.irq.msixPending || (!t.irq.msixEnabled && t.irqPending && !s.irqPending) } } ∧
      (∀ f, f ≠ 0 → (f ∈ ms ↔ f ≤ 6 ∧
        ((!(s.fn f).badDoorbell && (t.fn f).badDoorbell) || (!(s.fn f).fetchFault && (t.fn f).fetchFault)) = true)) ∧
      (0 ∈ ms ↔ (t.irq.msixEnabled && t.irqPending && !s.irqPending) = true)

/-! ## 02: the beat -/

/-- R56: the lock, at a REF_BEAT edge within R64. R58, R63: entry to holdover four beats after the last edge, with every task in progress
marked. R59: a return in time, near the synthesised edge before it or the one after it, and one that is none. R61: the relock. -/
def Obligations.LockHoldoverAndRelock : Prop :=
  (∀ (s : State) (e : RefEdge), s.life = .awaitLock → s.beat.lines = e → e.seen = true → s.beat.edgeSeen = false →
     ∃ t, exec .lock s = .next (settle s t) ∧
       t.life = .starting (min s.start.readyBeats 340000) ∧
       t.beat = { s.beat with
         locked := true, started := true, aligned := false, count := 0, periods := s.beat.periods + 1, cc := 0, synth := 0, epochIn := e.epochIn
         edgeSeen := e.epochIn && !s.beat.epochIn, edgeArmed := s.beat.armed && e.epochIn && !s.beat.epochIn
         epochOut := s.beat.outEn && e.epochIn } ∧
       t.benches = (s.benches.zipIdx.map fun y => if y.2 < s.nSeats then
         { y.1 with state := .testing, test := some { why := .startup, former := .unassigned } } else y.1) ∧
       t.parts = s.parts ∧ t.hbm = s.hbm ∧ t.fns = s.fns ∧ t.ldg = s.ldg) ∧
  (∀ s : State, s.life ≠ .awaitLock ∨ s.beat.lines.seen = false → exec .lock s = .next (settle s s)) ∧
  (∀ s : State,
     (s.beat.started = true → s.beat.holdover = false → 4 ≤ s.beat.synth → s.parts.length = 6 →
       ∃ t, exec .holdoverEntry s = .next (settle s t) ∧
         t.beat = { s.beat with holdover := true, holdCount := satAdd32 s.beat.holdCount 1 } ∧
         (∀ p, (t.part p).task = (s.part p).task.map fun u => u.mark 2) ∧ t.benches = s.benches ∧ t.hbm = s.hbm ∧ t.fns = s.fns) ∧
     (s.beat.started = false ∨ s.beat.holdover = true ∨ s.beat.synth < 4 → exec .holdoverEntry s = .next (settle s s)) ∧
     (∀ e : RefEdge, s.beat.timely = true → s.beat.lines = e → e.seen = true → 2 * s.beat.cc < s.m → s.beat.edgeSeen = false →
       ∃ t, exec .timelyReturn s = .next (settle s t) ∧ t.beat.holdover = false ∧ t.beat.synth = 0 ∧ t.beat.cc = 0 ∧
         t.beat.count = s.beat.count ∧ t.beat.locked = s.beat.locked ∧ t.beat.aligned = s.beat.aligned ∧ t.beat.epochIn = e.epochIn ∧
         t.parts = s.parts ∧ t.benches = s.benches ∧ t.hbm = s.hbm ∧ t.fns = s.fns) ∧
     (s.beat.timely = false ∨ s.beat.lines.seen = false → exec .timelyReturn s = .next (settle s s)) ∧
     (s.beat.relocking = true →
       exec .relock s = .next (settle s { s with
         beat := { s.beat with holdover := false, locked := true, lost := false, relocking := false, relockBeats := 0 } })) ∧
     (s.beat.relocking = false → exec .relock s = .next (settle s s)))

/-- R60: in the core cycle after the synthesised edge that ends the 10,000th beat after the last REF_BEAT edge, with no return in time,
BEAT_LOST is latched, ALIGNED and LOCKED are cleared, the counter rises, and the cause is raised in leaf 0. -/
def Obligations.BeatLostLatchesAndRaises : Prop :=
  ∀ s : State, s.beat.holdover = true → s.beat.lost = false → s.beat.synth = 10000 → s.beat.cc = 1 →
    ∃ t, exec .beatLost s = .next t ∧
      t = settle s (State.raise { s with beat := { s.beat with
        aligned := false, locked := false, lost := true, events := setBit s.beat.events 8, lostCount := satAdd32 s.beat.lostCount 1 } } 0 8) ∧
      (t.globalLeaf 0).getLsbD 8 = true

/-- R67, R68, R70: an epoch edge, as the arming was when it was sampled, and the epoch beat. R69, R67, R72: what a write of BEAT_CONTROL does to the arming, for either command,
and only for the physical function. -/
def Obligations.EpochArmingEdgeAndBeat : Prop :=
  (∀ s : State,
     (s.beat.edgeSeen = true → s.beat.edgeArmed = false →
       exec .epochEdge s = .next (settle s (State.raise { s with
         beat := { s.beat with edgeSeen := false, edgeArmed := false, events := setBit s.beat.events 10 } } 0 10))) ∧
     (s.beat.edgeSeen = true → s.beat.edgeArmed = true →
       exec .epochEdge s = .next (settle s { s with beat := { s.beat with edgeSeen := false, edgeArmed := false, loadDecided := true } })) ∧
     (s.beat.loadDue = true → s.parts.length = 6 →
       ∃ t, exec .epochBeat s = .next t ∧
         t.beat = { s.beat with epochPrior := s.beat.count, count := s.beat.epochValue, aligned := true, armed := false, loadDue := false
                                epochBeat := true, events := setBit s.beat.events 11 } ∧
         (∀ p, (t.part p).task = (s.part p).task.map fun u => u.mark 3) ∧ t.benches = s.benches ∧ t.hbm = s.hbm ∧ t.fns = s.fns)) ∧
  (∀ (s : State) (fn : Nat) (w : W32) (c : Instr), c = .epochArm fn w ∨ c = .epochDisarm fn w → s.running = true →
     (fn ≠ 0 → exec c s = .next (settle s s)) ∧
     (fn = 0 → w.getLsbD 1 = true → exec c s = .next (settle s { s with
       beat := { s.beat with armed := false, outEn := w.getLsbD 4, epochOut := s.beat.epochOut && w.getLsbD 4 } })) ∧
     (fn = 0 → w.getLsbD 1 = false → w.getLsbD 0 = true → s.parts.any Part.hasLaunch = true → exec c s = .next (settle s (State.raise { s with
       beat := { s.beat with events := setBit s.beat.events 9, outEn := w.getLsbD 4, epochOut := s.beat.epochOut && w.getLsbD 4 } } 0 9))) ∧
     (fn = 0 → w.getLsbD 1 = false → w.getLsbD 0 = true → s.parts.any Part.hasLaunch = false → exec c s = .next (settle s { s with
       beat := { s.beat with armed := true, outEn := w.getLsbD 4, epochOut := s.beat.epochOut && w.getLsbD 4 } })))

/-- R64, R65, R66, R72: the beat counts on at a REF_BEAT edge, which samples EPOCH_IN, and at an edge of the device's own, after the first lock. R75 to R77: a gate opens at cc 0 of a beat whose count is a multiple of 16, for at
most 64 packets of each function. -/
def Obligations.RefBeatEdgesAndGates : Prop :=
  (∀ (s : State) (edge : Bool) (e : RefEdge), s.running = true → s.beat.started = true →
     ∃ t, exec (.refBeatEdge edge e) s = .next t ∧
       t.beat.count = (if s.beat.loadDue then s.beat.epochValue else s.beat.count) + 1 ∧
       t.beat.periods = s.beat.periods + 1 ∧ t.beat.cc = 0 ∧ t.beat.lines = e ∧
       (edge = true → e.seen = true → t.beat.epochIn = e.epochIn ∧ t.beat.epochOut = (s.beat.outEn && e.epochIn) ∧
         t.beat.edgeSeen = (e.epochIn && !s.beat.epochIn) ∧ t.beat.synth = 0) ∧
       (edge = false ∨ e.seen = false → t.beat.epochIn = s.beat.epochIn ∧ t.beat.epochOut = s.beat.epochOut ∧
         t.beat.edgeSeen = false ∧ t.beat.synth = s.beat.synth + 1 ∧ t.beat.loadDue = false)) ∧
  (∀ (s : State) (env : GateEnv),
     (s.beat.started = true → s.beat.count.toNat % 16 = 0 → s.beat.cc = 0 → s.beat.gateDone = false → s.beat.loadDue = false →
       ∃ t, exec (.gate env) s = .next t ∧ t.beat = { s.beat with gateOpen := true, gateDone := true } ∧ (∀ f, (t.fn f).eligible ≤ 64) ∧
         (∀ d ∈ t.doorbells, s.beat.periods ≤ d.1 + 2)) ∧
     (s.beat.count.toNat % 16 ≠ 0 → exec (.gate env) s = .next (settle s s)))

/-! ## 03: the ring, splice windows, rejoin -/

/-- R123 to R126: an accepted BLAP gives its lap to the ring port, the bench's ring-in buffers are known for the run, and no byte of a store
changes. R111 to R113, R125: a lap starts, where legs may begin: the first leg of each of its batons joins those of the partition, in list
order, one in the direction of its mode or one in each, and the port counts one lap more. The second clause is the first lap of a run, the
third a lap that waited behind one that is sent. -/
def Obligations.LapsReachTheRing : Prop :=
  (∀ (s : State) (b c q p : Nat) (t : Task) (cmd : Cmd), s.mayIssue b c q 0xA4 = some (p, t, cmd) → s.blapCause p b c q cmd = none →
     ∃ u, exec (.blap b c q []) s = .next u ∧
       (let adopted := s.adoptedCtx p b (ctxOf q)
        let x := (s.bench b).port
        let part : LapPart :=
         { no := (if adopted then x.accepted.2 else x.accepted.1) + 1, adopted := adopted, releaseTally := cmd.releaseTally
           releaseEn := cmd.releaseEn, ctx := ctxOf q
           batons := (s.batons b (s.actOff p b (ctxOf q) cmd.batonList) cmd.batonCount).map fun x => (x.1 + if adopted then 512 else 0, x.2) }
        (u.bench b).port.lap = (x.accept cmd.lapMode part).lap ∧
        (u.bench b).port.next = (x.accept cmd.lapMode part).next ∧
        (u.bench b).port.laps = x.laps ∧
        (∀ y ∈ x.buffers, y ∈ (u.bench b).port.buffers) ∧
        (adopted, cmd.ringInCw, cmd.ringInCcw, cmd.slotUnits) ∈ (u.bench b).port.buffers) ∧
       sameBytes s u) ∧
  (∀ (s : State) (b p : Nat), s.benchPart b = some p → s.ringBegins p = true → (s.bench b).computes = true → (s.part p).clamping = false →
     (s.part p).circle.contains b = true →
     (let x := (s.bench b).port
      let place := (s.part p).placeOf b
      let n := (s.part p).circle.length
      let first (l : Lap) (ccw : Bool) :=
        (l.parts.flatMap (·.batons)).map fun y => (place, ccw, nextPlace ccw n place, 1, lapLegs l.mode n, x.laps + 1, 65536 * y.1, 65536 * y.2)
      let sent (l : Lap) := if l.mode = 0 then first l false else if l.mode = 1 then first l true else first l false ++ first l true
      let begun (u : State) (l : Lap) : Prop := ∃ legs, (u.part p).legs = (s.part p).legs ++ legs ∧
        (legs.map fun g => (g.home, g.ccw, g.dest, g.leg, g.legs, g.lap, g.src, g.bytes)) = sent l ∧
        ∀ g ∈ legs, g.place = place ∧ g.sent = 0 ∧ g.parent = none
      (∀ l, x.lap = some l → l.started = false → s.lapWhole p b l = true →
        ∃ u, exec (.lapStart b) s = .next u ∧ (u.bench b).port = { x with lap := some { l with started := true }, laps := x.laps + 1 } ∧
          begun u l ∧ sameBytes s u) ∧
      (∀ l m, x.lap = some l → l.started = true → x.next = some m → s.lapSent p place x.laps = true → s.lapWhole p b m = true →
        ∃ u, exec (.lapStart b) s = .next u ∧
          (u.bench b).port = { x with lap := some { m with started := true }, next := none, laps := x.laps + 1 } ∧
          begun u m ∧ sameBytes s u)))

/-- R114 to R116, R415: a leg whose baton is whole, and forwarded where it has legs left, is over, and in credit mode a baton that is kept
is signalled on the tallies that the bench's map names for its direction; no byte of a store changes. R126: an arriving baton takes the ring-in slot of
its direction by its parity, and is counted. R109, R112: it is forwarded from there to the next bench. R130, R131: a link retry delays what
the bench's lane carries by 8 cc and is counted; a second failure fences the bench. -/
def Obligations.BatonsArriveAndRetry : Prop :=
  (∀ (s : State) (p : Nat) (l : Leg), (s.part p).legs.find? Leg.over = some l →
     (let x := s.part p
      let b := x.benchAt l.dest
      ∃ u, exec (.batonArrival p []) s = .next u ∧ (u.part p).legs = x.legs.filter (fun m => m.id != l.id) ∧ sameBytes s u ∧
        (l.discarded x.circle.length = true ∨ x.scheduledRun = true → u.benches = s.benches) ∧
        (l.discarded x.circle.length = false → x.scheduledRun = false → x.adopted = [] → b < s.benches.length → ∀ c,
          c < (s.bench b).cores.length → (u.core b c).signals = (s.core b c).signals ++
            ((ringEntries (Img.map x.img (s.ownSlot p b)) l.ccw).filter fun e => e.1 = c).map fun e =>
              { key := 200, tally := e.2, delta := 1, ctx := 0 }))) ∧
  (∀ (s : State) (p : Nat) (l : Leg),
     (let x := s.part p
      let b := x.benchAt l.dest
      let y := (s.bench b).port
      let places := y.buffers.map fun z => 65536 * ((if z.1 then 512 else 0) + (if l.ccw then z.2.2.1 else z.2.1) + y.count l.ccw % 2 * z.2.2.2)
      p < s.parts.length → b < s.benches.length → l ∈ x.legs →
      (l.discarded x.circle.length = false →
        ((s.takeSlot p l).bench b).port.count l.ccw = y.count l.ccw + 1 ∧
        ((s.takeSlot p l).bench b).port.count (!l.ccw) = y.count (!l.ccw) ∧
        (∀ m ∈ ((s.takeSlot p l).part p).legs, m.id = l.id → m.slots = some places)) ∧
      (l.forwarded = false → l.leg < l.legs → 0 < l.arrived →
        ((s.forwardLeg p l).part p).legs.getLast?.map (fun g => (g.place, g.dest, g.leg, g.home, g.bytes, g.sent, g.parent)) =
          some (l.dest, nextPlace l.ccw x.circle.length l.dest, l.leg + 1, l.home, l.bytes, 0, some l.id)))) ∧
  (∀ (s : State) (b dir p : Nat), s.benchPart b = some p → b < s.benches.length → (s.part p).circle.contains b = true →
     (let on (l : Leg) : Bool := l.place = (s.part p).placeOf b && l.ccw = decide (dir = 1) && !l.air.isEmpty
      (s.part p).legs.any on = true →
       (∃ u, exec (.linkRetry b dir false) s = .next u ∧ u.ring = { s.ring with retryCount := satAdd32 s.ring.retryCount 1 } ∧
         (u.part p).legs = ((s.part p).legs.map fun l => if on l then { l with air := l.air.map fun f => (f.1 + 8, f.2) } else l) ∧
         (u.bench b).port.holdOf (decide (dir = 1)) = s.now + 8 ∧ sameBytes s u) ∧
       (∃ u, exec (.linkRetry b dir true) s = .next u ∧ (u.bench b).state = .fenced)))

/-- R149 to R153: a window opens over the changes whose partitions have stopped, and closes 64 beats later with SPLICE_DONE. R143, R153,
R669: a creation in force makes the partition valid and idle, its benches ACTIVE, and completes PART_CREATE with the stream and the base
of the share. R162, R163: a takeover in force exchanges the seats of the lost bench and the spare, fences the one and makes the other
ACTIVE, empties RING_SPARE and raises TAKEOVER. -/
def Obligations.SpliceWindowsPutChangesInForce : Prop :=
  (∀ s : State,
     (s.beat.gateOpen = true → s.ring.window = none → s.ring.waiting.filter s.stopped ≠ [] →
       exec .spliceWindowOpen s = .next (settle s { s with ring := { s.ring with
         waiting := s.ring.waiting.filter fun q => !s.stopped q
         window := some { closeAt := s.beat.periods + 64, reqs := s.ring.waiting.filter s.stopped } } })) ∧
     (∀ w, s.ring.window = some w → w.closeAt ≤ s.beat.periods →
       ∃ t, exec .spliceWindowClose s = .next t ∧ t.ring.window = none ∧ t.ring.lastSplice = s.beat.count ∧
         t.ring.event.getLsbD 0 = true ∧ t.ring.switches = t.switchesNow)) ∧
  (∀ (s : State) (w : Window) (p n : Nat) (id : PktId), s.ring.window = some w → w.closeAt ≤ s.beat.periods →
     w.reqs = [{ part := p, change := .create, id := some id, notBefore := n }] → p < s.parts.length → id.f < s.fns.length →
     (s.fn id.f).epoch = id.epoch →
       ∃ t, exec .spliceWindowClose s = .next t ∧ (t.part p).valid = true ∧ (t.part p).state = .idle ∧
         (∀ b ∈ s.arcBenches p, (s.bench b).state = .unassigned → b < s.benches.length → (t.bench b).state = .active) ∧
         (∀ b, b ∉ s.arcBenches p → (t.bench b).state = (s.bench b).state) ∧
         t.answered id p 0 0 (s.part p).stream.id (s.part p).hbmBase 0 ∧ sameBytes s t) ∧
  (∀ (s : State) (w : Window) (p n lost : Nat) (id : Option PktId), s.ring.window = some w → w.closeAt ≤ s.beat.periods →
     w.reqs = [{ part := p, change := .takeover lost, id := id, notBefore := n }] → s.glue.jobs = [] → lost < s.benches.length →
     s.ring.spareLive < s.benches.length → s.ring.spareLive ≠ lost →
       ∃ t, exec .spliceWindowClose s = .next t ∧
         t.ring.seatMap = (s.ring.exchange (s.benchSeat lost) (s.benchSeat s.ring.spareLive)).seatMap ∧ t.ring.spareLive = 0xF ∧
         (t.bench s.ring.spareLive).state = .active ∧ (t.bench lost).state = .fenced ∧ t.ring.event.getLsbD 1 = true)

/-- R164 to R166: RING_REJOIN tests a fenced bench from a zero-filled state, and the result makes it SPARE, UNASSIGNED or FENCED. R160,
R724, R725: RING_SPARE_SET makes an UNASSIGNED bench SPARE and programs SPARE_GLUED where it must. -/
def Obligations.SparesAndRejoin : Prop :=
  (∀ s : State,
     (∀ f i x, s.admits f 0x09 i x → x.u 0x20 1 < s.nSeats → x.u 0x20 1 < s.benches.length → s.latched (x.u 0x20 1) = false →
       s.claims (x.u 0x20 1) = false → (s.bench (x.u 0x20 1)).state = .fenced →
       ∃ t, exec (.ringRejoin f) s = .next t ∧ (t.bench (x.u 0x20 1)).state = .testing ∧ (t.bench (x.u 0x20 1)).rack = [] ∧
         (t.bench (x.u 0x20 1)).act = [] ∧
         (t.bench (x.u 0x20 1)).test = some { why := .rejoin (s.pktId f x), former := .fenced, endAt := s.beat.periods + 50000 } ∧
         (∀ b, b ≠ x.u 0x20 1 → t.bench b = s.bench b) ∧ t.hbm = s.hbm) ∧
     (∀ b pass id former e, (s.bench b).test = some { why := .rejoin id, former := former, endAt := e } → e ≤ s.beat.periods →
       s.glue.jobs = [] → id.f < s.fns.length → (s.fn id.f).epoch = id.epoch →
       (let good := pass && decide ((s.bench b).state = .testing)
        let st : BState := if good then (if s.ring.spareLive = 0xF then .spare else .unassigned) else .fenced
        ∃ t, exec (.rejoinDone b pass) s = .next t ∧ (t.bench b).state = st ∧ (t.bench b).testPass = pass ∧ (t.bench b).test = none ∧
          t.ring.spareLive = (if good && decide (s.ring.spareLive = 0xF) then b else s.ring.spareLive) ∧ t.ring.event.getLsbD 3 = true ∧
          t.answered id 0xFF 0 0 st.code 0 0))) ∧
  (∀ (s : State) (f i : Nat) (x : Pkt), s.admits f 0x08 i x →
     (let b := x.u 0x20 1
      let id := s.pktId f x
      (∀ st d, s.spareSetRefusal b = some (st, d) → ∃ t, exec (.ringSpareSet f) s = .next t ∧ t.answered id 0xFF st d 0 0 0 ∧
        t.ring = s.ring ∧ t.benches = s.benches ∧ t.glue = s.glue) ∧
      (s.spareSetRefusal b = none → s.glue.jobs = [] →
        (s.glue.value 1 = b → ∃ t, exec (.ringSpareSet f) s = .next t ∧ t.ring = { s.ring with spareLive := b } ∧
          t.bench b = { s.bench b with state := if b < s.benches.length then .spare else (s.bench b).state } ∧
          t.glue = s.glue ∧ t.answered id 0xFF 0 0 (s.glue.left 1) 0 0) ∧
        (s.glue.value 1 ≠ b → s.glue.left 1 = 0 → ∃ t, exec (.ringSpareSet f) s = .next t ∧ t.answered id 0xFF 8 0 0 0 0 ∧
          t.glue.event.getLsbD 1 = true ∧ t.ring = s.ring ∧ t.benches = s.benches) ∧
        (s.glue.value 1 ≠ b → s.glue.left 1 ≠ 0 → ∃ t, exec (.ringSpareSet f) s = .next t ∧ t.ring = { s.ring with spareLive := b } ∧
          t.glue = { s.glue with used := s.glue.used.modify 1 (· + 1), jobs := [{ setting := 1, value := b, who := .spare (some id) }] }))))

/-! ## 04, 09: queues, commands, tallies, hurdles -/

/-- R169, R171, R174: an engine command that issues moves its queue's HEAD on by one entry and is in flight there; BASE, SIZE and TAIL stay,
and so do HEAD and TAIL of every other queue. R175, R271: NOP and END are complete in their cycle (NOP's time is the model's reading,
log entry 15), a JOG occupies its engine for OPERAND_A[15:0] cc, and END stops the fetch. No byte of a store changes. -/
def Obligations.EngineCommandsIssueInOrder : Prop :=
  (∀ (s : State) (i : Instr) (b c q op p : Nat) (t : Task) (cmd : Cmd), engineRow i = some (b, c, q, op) →
     s.mayIssue b c q op = some (p, t, cmd) → s.issueFaults p b c q t cmd = false →
       ∃ u, exec i s = .next u ∧
         (let x := s.queue b c q
          let y := u.queue b c q
          y.head = x.after x.head 1 ∧ y.base = x.base ∧ y.log2 = x.log2 ∧ y.tail = x.tail ∧
          (y.inflight.map fun j => (j.cmd, j.issued)) = (x.inflight.map fun j => (j.cmd, j.issued)) ++ [(cmd, s.now)]) ∧
         ∀ b' c' q', (b', c', q') ≠ (b, c, q) →
           (u.queue b' c' q').head = (s.queue b' c' q').head ∧ (u.queue b' c' q').tail = (s.queue b' c' q').tail) ∧
  (∀ (s : State) (b c q p : Nat) (t : Task) (cmd : Cmd),
     (s.mayIssue b c q 0x00 = some (p, t, cmd) → ∃ u, exec (.nop b c q) s = .next u ∧
       (u.queue b c q).inflight.getLast? = some { cmd := cmd, issued := s.now, doneAt := s.now, step := (s.queue b c q).stepHeads.length } ∧
       (u.queue b c q).ended = (s.queue b c q).ended ∧ sameBytes s u) ∧
     (s.mayIssue b c q 0x02 = some (p, t, cmd) → ∃ u, exec (.endQueue b c q) s = .next u ∧
       (u.queue b c q).inflight.getLast? = some { cmd := cmd, issued := s.now, doneAt := s.now, step := (s.queue b c q).stepHeads.length } ∧
       (u.queue b c q).ended = true ∧ (u.queue b c q).holds = false ∧ sameBytes s u) ∧
     (s.mayIssue b c q 0x01 = some (p, t, cmd) → ∃ u, exec (.jog b c q) s = .next u ∧
       (u.queue b c q).inflight.getLast? =
         some { cmd := cmd, issued := s.now, doneAt := s.now + cmd.a 15 0, step := (s.queue b c q).stepHeads.length } ∧
       (u.core b c).busyUntil = (s.core b c).busyUntil.set (engineOf q) (s.now + cmd.a 15 0) ∧ sameBytes s u))

/-- R204, R173: a reserved opcode or a wrong ENGINE sets BAD_ENTRY, puts the context in ERROR and aborts the task with detail 0x67. R218,
R237, R824, R288, R173: a vector, rail or matrix command that faults at issue does not issue: its flag is latched, its context goes to
ERROR, the task is aborted with the flag's detail, and no byte changes. -/
def Obligations.IssueFaultsAbortTheTask : Prop :=
  (∀ (s : State) (b c q p : Nat) (t : Task) (cmd : Cmd), s.headCmd b c q = some (p, cmd) → s.issuing p = some t → p < s.parts.length →
     cmd.valid q = false → (s.bench b).computes = true →
       ∃ u, exec (.badEntry b c q) s = .next u ∧ (u.queue b c q).status.getLsbD 1 = true ∧ (u.queue b c q).head = (s.queue b c q).head ∧
         (u.core b c).ctxState = (s.core b c).ctxState.set (ctxOf q) 4 ∧
         (u.part p).stop = .abort { status := 0x0E, detail := 0x67, r1 := BitVec.ofNat 64 (256 * (q % 64)) } ∧ sameBytes s u) ∧
  (∀ (s : State) (op b c q p : Nat) (t : Task) (cmd : Cmd), s.mayIssue b c q op = some (p, t, cmd) →
     (∀ bit, op ∈ vectorOps → s.vecFault p b c q cmd = some bit → ∃ u, exec (vectorRow op b c q []) s = .next u ∧
       (u.core b c).arithFault.getLsbD bit = true ∧ (u.core b c).ctxState = (s.core b c).ctxState.set (ctxOf q) 4 ∧
       (u.part p).stop = .abort { status := 0x0E, detail := arithDetail bit, r1 := BitVec.ofNat 64 (256 * (q % 64)) } ∧
       (u.queue b c q).head = (s.queue b c q).head ∧ sameBytes s u) ∧
     (∀ k, op = 0x10 → s.mloadFault p b q cmd = some (.mx k) → ∃ u, exec (.mload b c q []) s = .next u ∧
       (u.core b c).mx.fault.getLsbD 0 = true ∧ (u.core b c).ctxState = (s.core b c).ctxState.set (ctxOf q) 4 ∧
       (u.part p).stop = .abort { status := 0x0E, detail := 0x62, r1 := BitVec.ofNat 64 (k % 256 + 256 * (q % 64)) } ∧
       (u.queue b c q).head = (s.queue b c q).head ∧ sameBytes s u))

/-- R204, R173, R397: BAD_ENTRY, at any entry whose opcode is reserved or whose ENGINE is wrong, has its whole effect in its cycle: the
queue's flag, the context in ERROR and the task's end, with the entry left at HEAD. No other queue, no tally, credit, job or store of
any bench changes, and no other partition. -/
def Obligations.BadEntryCompletes : Prop :=
  ∀ (s : State) (b c q p : Nat) (cmd : Cmd), s.headCmd b c q = some (p, cmd) → (s.issuing p).isSome = true → cmd.valid q = false →
    (s.bench b).computes = true → p < s.parts.length →
      ∃ u, exec (.badEntry b c q) s = .next u ∧
        u.queue b c q = { s.queue b c q with status := setBit (s.queue b c q).status 1 } ∧
        (u.core b c).ctxState = (s.core b c).ctxState.set (ctxOf q) 4 ∧
        (u.part p).stop = .abort { status := 0x0E, detail := 0x67, r1 := BitVec.ofNat 64 (256 * (q % 64)) } ∧
        (∀ b' c' q', (b', c', q') ≠ (b, c, q) → u.queue b' c' q' = s.queue b' c' q') ∧
        (u.core b c).tallies = (s.core b c).tallies ∧ (u.core b c).credits = (s.core b c).credits ∧
        (u.bench b).jobs = (s.bench b).jobs ∧ (∀ b', b' ≠ b → u.bench b' = s.bench b') ∧ (∀ p', p' ≠ p → u.part p' = s.part p') ∧
        sameBytes s u

/-- R169, R178: the oldest command of a queue completes, and its signal joins those of the next cycle, in credit mode only. R200, R203,
R232: a doorbell of a writable queue is captured, one of any other sets WRITE_LOCKED, and SAT_CLEAR zeroes the four committed counters
of the core. -/
def Obligations.CompletionsAndDoorbellsOfQueues : Prop :=
  (∀ (s : State) (b c q : Nat) (j : InFlight) (rest : List InFlight), (s.queue b c q).inflight = j :: rest → j.on = .time →
     j.doneAt ≤ s.now →
       ∃ u, exec (.commandComplete b c q) s = .next u ∧
         u.queue b c q = { s.queue b c q with
           inflight := rest, lastDone := s.now, stepsDone := (s.queue b c q).stepsDone + natOfBool j.cmd.stepEnd
           stepAt := if j.cmd.stepEnd then s.now else (s.queue b c q).stepAt } ∧
         (u.core b c).signals = (s.core b c).signals ++ (match s.benchPart b with
           | some p => if (match (s.part p).task with
               | some t => t.credit
               | none => false) && j.cmd.sigEn then
                 [{ key := q, tally := s.tallyOf p b (ctxOf q) j.cmd.sigTally, delta := j.cmd.sigDelta, ctx := ctxOf q }] else []
           | none => []) ∧
         (u.core b c).tallies = (s.core b c).tallies ∧ sameBytes s u) ∧
  (∀ (s : State) (fn b c q : Nat) (w : W32), s.windowOpen fn b = true →
     (s.queueWritable b = true → exec (.queueDoorbell fn b c q w) s =
       .next (settle s { s with doorbells := s.doorbells ++ [(s.beat.periods, fn, b, c, q, w.toNat % 2 ^ 17)] })) ∧
     (s.queueWritable b = false → ∃ t, exec (.queueDoorbell fn b c q w) s = .next t ∧ t.glue.event.getLsbD 0 = true ∧
       t.doorbells = s.doorbells ∧ t.benches = s.benches) ∧
     (∃ t, exec (.satClear fn b c) s = .next t ∧ (b < s.benches.length → c < (s.bench b).cores.length →
       t.core b c = { s.core b c with
         sat := if (s.core b c).satAdded.1 = s.now + 1 then (s.core b c).satAdded.2.map (BitVec.ofNat 32) else List.replicate 4 0 }) ∧
       (∀ b', b' ≠ b → t.bench b' = s.bench b') ∧ sameBytes s t))

/-- R421 to R424: a first arrival is counted, and the last one of a round releases it and flips SENSE. R428 to R430: a second early arrival
of a participant poisons the hurdle and ends the task with HURDLE_OVERRUN. R425, R426: once a round is complete a new one opens, and the
early arrivals are counted into it. -/
def Obligations.HurdleRounds : Prop :=
  (∀ (s : State) (b c q p : Nat) (t : Task) (cmd : Cmd), s.headCmd b c q = some (p, cmd) → s.issuing p = some t → cmd.hurdleEn = true →
     cmd.valid q = true → (s.queue b c q).inflight = [] → (s.queue b c q).arrival = none → (s.queue b c q).lastDone < s.now →
     (s.bench b).computes = true → (∀ x < ctxOf q, s.arrivesNow b c (5 * x + engineOf q) = none) →
     ((s.part p).hurdle cmd.hurdle).moveAt = none →
     (let h := cmd.hurdle
      let x := (s.part p).hurdle h
      let a := participant (s.slotOf p b (ctxOf q)) c q
      h < (s.part p).hurdleCount → h < (s.part p).hurdles.length → x.parts.contains a = true → x.poisoned = false →
      x.missing.contains a = false → x.arrived.contains a = false →
        ∃ u, exec (.hurdleArrival b c q) s = .next u ∧
          (u.part p).hurdle h = (let y := { x with arrived := a :: x.arrived }
            if y.full then { y with released := true, sense := !x.sense } else y) ∧
          ((u.queue b c q).arrival.map fun r => (r.hurdle, r.held, r.at_)) = some (h, false, s.now) ∧
          (u.queue b c q).head = (s.queue b c q).head ∧ sameBytes s u)) ∧
  (∀ (s : State) (b c q p : Nat) (t : Task) (cmd : Cmd), s.headCmd b c q = some (p, cmd) → s.issuing p = some t → cmd.hurdleEn = true →
     cmd.valid q = true → (s.queue b c q).inflight = [] → (s.queue b c q).arrival = none → (s.queue b c q).lastDone < s.now →
     (s.bench b).computes = true → (∀ x < ctxOf q, s.arrivesNow b c (5 * x + engineOf q) = none) →
     ((s.part p).hurdle cmd.hurdle).moveAt = none →
     (let h := cmd.hurdle
      let x := (s.part p).hurdle h
      let a := participant (s.slotOf p b (ctxOf q)) c q
      h < (s.part p).hurdleCount → h < (s.part p).hurdles.length → x.parts.contains a = true → x.poisoned = false →
      x.missing.contains a = false → x.arrived.contains a = true → x.early.contains a = true →
        ∃ u, exec (.hurdleArrival b c q) s = .next u ∧ ((u.part p).hurdle h).poisoned = true ∧ (u.part p).hrdFault.getLsbD 0 = true ∧
          (u.part p).stop = .abort { status := 0x0B } ∧ (u.core b c).ctxState.getD (ctxOf q) 4 = 4)) ∧
  (∀ (s : State) (p h m : Nat), ((s.part p).hurdle h).moveAt = some m → m ≤ s.now →
     (let x := (s.part p).hurdle h
      let y := { x with released := false, arrived := x.early, acked := [], early := [], moveAt := none }
      ∃ u, exec (.earlyArrivalMove p h) s = .next u ∧
        (u.part p).hurdle h = (if y.full && !x.early.isEmpty then { y with released := true, sense := !x.sense } else y) ∧ sameBytes s u))

/-! ## 05, 06: arithmetic, vector and rail engines, matrix arrays -/

/-- R226: requantisation rounds acc / 2^s to the nearest integer, half to even, and saturates to 16 bits, counting the element. -/
def Obligations.RequantiseRoundsHalfToEvenAndSaturates : Prop :=
  ∀ acc s : Int,
    (s ≤ 0 → roundShift acc s = acc * 2 ^ (-s).toNat) ∧
    (0 < s → 2 * |roundShift acc s * 2 ^ s.toNat - acc| ≤ 2 ^ s.toNat ∧
      (2 * |roundShift acc s * 2 ^ s.toNat - acc| = 2 ^ s.toNat → roundShift acc s % 2 = 0)) ∧
    requantise acc s = (max (-32768) (min 32767 (roundShift acc s)),
      if -32768 ≤ roundShift acc s ∧ roundShift acc s ≤ 32767 then 0 else 1)

/-- R222: accumulator addition is modulo 2^64, so the order of the terms does not matter. -/
def Obligations.AccumulationIsModuloTwoToThe64 : Prop :=
  (∀ v : Int, -(2 ^ 63) ≤ accOf v ∧ accOf v < 2 ^ 63 ∧ (2 ^ 64 : Int) ∣ accOf v - v) ∧
    ∀ xs ys : List Int, xs.Perm ys → xs.foldl (fun a x => accOf (a + x)) 0 = ys.foldl (fun a x => accOf (a + x)) 0

/-- R171, R303: a vector or rail command that issues becomes a job of its bench, and its queue's last command in work; no byte of a store
changes yet. R240: the step of a two-operand opcode writes one row at DST: each result element is the requantised lane value of the two
source elements. R293: the banks serve a lone write request in its cycle, and it writes its bytes and no other. R190 to R193: a rail
command is taken by an adjacent core: its owner's queue moves on, the job runs there, and the owner counts one steal. -/
def Obligations.VectorAndRailCommandsWriteDst : Prop :=
  (∀ (s : State) (op b c q p : Nat) (t : Task) (cmd : Cmd), op ∈ vectorOps → s.mayIssue b c q op = some (p, t, cmd) →
     s.vecFault p b c q cmd = none →
       ∃ u, exec (vectorRow op b c q []) s = .next u ∧
         (u.bench b).jobs = (s.bench b).jobs ++ [s.newJob p t b c q b c (if cmd.isRail then .rail else .vec) cmd s.now] ∧
         ((u.queue b c q).inflight.getLast?.map fun i => (i.cmd, i.issued, i.on)) = some (cmd, s.now, .job (s.bench b).nextJob) ∧
         (u.core b c).busyUntil = (s.core b c).busyUntil.set (engineOf q) (s.now + if cmd.vecSteps = 1 then 1 else 2) ∧
         (u.bench b).reqs = (s.bench b).reqs ∧ sameBytes s u) ∧
  (∀ (s : State) (b : Nat) (j : Job), j.kind = .vec → j.cmd.opcode ∈ [0x40, 0x41, 0x42, 0x43, 0x44] →
     (let a := s.dstAt b j j.row
      let em := min j.cmd.eSrc1 j.cmd.eSrc2
      ∃ bytes, bytes.length = 4096 ∧ (s.vecStep b j).1 = j ∧
        (s.vecStep b j).2.1 = [{ due := s.now + 1 + Config.vectorLatency, port := 4 + j.c, unit := 1, row := a / 4096, write := true
                                 data := [(a, bytes)], who := .job j.id 0 }] ∧
        ∀ i, i < 2048 →
          (let x := (lx16 (j.read 0 (s.src1At b j j.row) 4096)).getD i 0
           let y := (lx16 (j.read 1 (s.src2At b j j.row) 4096)).getD i 0
           let x' := x * 2 ^ (j.cmd.eSrc1 - em).toNat
           let y' := y * 2 ^ (j.cmd.eSrc2 - em).toNat
           signedOf (Bytes.nat bytes (2 * i) 2) 16 =
             if j.cmd.opcode = 0x40 then (requantise (x' + y') (j.cmd.eOut - em)).1
             else if j.cmd.opcode = 0x41 then (requantise (x' - y') (j.cmd.eOut - em)).1
             else if j.cmd.opcode = 0x42 then (requantise (x * y) (j.cmd.eOut - (j.cmd.eSrc1 + j.cmd.eSrc2))).1
             else if j.cmd.opcode = 0x43 then (requantise (max x' y') (j.cmd.eOut - em)).1
             else (requantise (min x' y') (j.cmd.eOut - em)).1))) ∧
  (∀ (s : State) (b a id tag : Nat) (bs : Bytes) (r : MemReq), b < s.benches.length → (s.bench b).reqs = [r] → r.due ≤ s.now →
     r.write = true → r.rack = false → r.data = [(a, bs)] → r.who = .job id tag → a + bs.length ≤ actBytes →
       ((s.serveBench b).1.bench b).reqs = [] ∧
       (∀ x, Memory.get ((s.serveBench b).1.bench b).act x = if a ≤ x ∧ x < a + bs.length then bs.getD (x - a) 0
         else Memory.get (s.bench b).act x) ∧
       (∀ b', ((s.serveBench b).1.bench b').rack = (s.bench b').rack) ∧
       (∀ b', b' ≠ b → ((s.serveBench b).1.bench b').act = (s.bench b').act) ∧ (s.serveBench b).1.hbm = s.hbm) ∧
  (∀ (s : State) (b c ob oc oq p : Nat) (t : Task) (cmd : Cmd), s.issuable ob oc oq = some (p, t, cmd) → cmd.isRail = true →
     engineOf oq = 2 → (s.part p).balance = true → (s.part p).bw.getD 2 0 ≠ 0 → cmd.stealOk = true → s.neighbours p b ob = true →
     (s.bench b).computes = true → c < (s.bench b).cores.length → s.stealTime b c 2 ob oc oq = true → s.vecFault p ob oc oq cmd = none →
       ∃ u, exec (.commandSteal b c ob oc oq []) s = .next u ∧
         (u.queue ob oc oq).head = (s.queue ob oc oq).after (s.queue ob oc oq).head 1 ∧
         (u.core ob oc).steals = satAdd32 (s.core ob oc).steals 1 ∧
         (u.bench ob).jobs = (s.bench ob).jobs ++ [s.newJob p t ob oc oq b c .rail cmd s.now] ∧
         (u.core b c).busyUntil = (s.core b c).busyUntil.set 2 (s.now + if cmd.vecSteps = 1 then 1 else 2) ∧ sameBytes s u)

/-- R262, R263, R287: an MLOAD that issues takes its array, which wakes, and its queue holds it; the other arrays of the core keep
theirs. R277 to R279, R285, R286: with the last of its 128 rack rows the array holds the tile, its rows and columns exchanged where the
command transposes and zero from K_VALID on, the exponents and the counts; the accumulators stay. R264, R280: MGEN fills its generator slot with the descriptor it
reads. R270, R272: an array gates in the 64th jog row, which counts. R256, R259: the oldest row that waits before a feeder queue enters
it, where no MCONV runs. R308: a corrected rack word goes to the write slots of its bank. -/
def Obligations.ArraysLoadGateAndFeed : Prop :=
  (∀ (s : State) (b c q p : Nat) (t : Task) (cmd : Cmd), s.mayIssue b c q 0x10 = some (p, t, cmd) → s.mloadFault p b q cmd = none →
     (s.core b c).mx.arrays.length = 4 →
       (let x := (s.core b c).array cmd.array
        let from_ := s.now + if x.gated then 16 else 0
        ∃ u, exec (.mload b c q []) s = .next u ∧
          (u.core b c).array cmd.array = { x with
            gated := false, jogRun := if x.gated then 0 else x.jogRun, bus := .load from_, held := some q
            holdBias := cmd.biasLoad || (decide (x.held = some q) && x.holdBias) } ∧
          (∀ a, a ≠ cmd.array → (u.core b c).array a = (s.core b c).array a) ∧
          (u.bench b).jobs = (s.bench b).jobs ++ [s.newJob p t b c q b c .load cmd from_] ∧ sameBytes s u)) ∧
  (∀ (s : State) (b : Nat) (j : Job), j.row = 127 → j.window.length = 127 → (∀ w ∈ j.window, w.length = 256) → j.eb < s.benches.length →
     j.ec < (s.bench j.eb).cores.length → (s.core j.eb j.ec).mx.arrays.length = 4 →
       (let x := (s.core j.eb j.ec).array j.cmd.array
        let y := ((s.loadStep b j).core j.eb j.ec).array j.cmd.array
        let rows := (j.read 0 (s.tileAt b j) 256 :: j.window).reverse
        (∀ k n, k < 128 → n < 128 → (y.tile.getD (128 * k + n) 0).toInt =
          if k < j.cmd.kValid then
            (if j.cmd.transpose then signedOf (Bytes.nat (rows.getD n []) (2 * k) 2) 16
              else signedOf (Bytes.nat (rows.getD k []) (2 * n) 2) 16)
          else 0) ∧
        y.eW = j.cmd.eW ∧ y.kValid = j.cmd.kValid ∧ y.nValid = j.cmd.nValid ∧ y.acc = x.acc ∧
        (j.cmd.biasLoad = true → y.eB = j.cmd.eB ∧ y.bias = j.acc.map (BitVec.ofInt 16)) ∧
        (j.cmd.biasLoad = false → y.eB = x.eB ∧ y.bias = x.bias) ∧ sameBytes s (s.loadStep b j))) ∧
  (∀ (s : State) (b c q p : Nat) (t : Task) (cmd : Cmd),
     (s.mayIssue b c q 0x13 = some (p, t, cmd) → s.mgenFault p b q cmd = none →
       s.genIdx p b (ctxOf q) cmd.genSlot < (s.core b c).mx.gens.length →
       ∃ u, exec (.mgen b c q []) s = .next u ∧
         (u.core b c).mx.gens.getD (s.genIdx p b (ctxOf q) cmd.genSlot) {} =
           { valid := true, readyAt := s.now + 7, desc := s.actRead b (256 * s.unit p b (ctxOf q) cmd.desc) 32 } ∧ sameBytes s u) ∧
     (∀ a, (let x := (s.core b c).array a
       x.gated = false → x.carried = false → 63 ≤ x.jogRun → x.bus = .free → (s.core b c).mx.jogCmdEnd ≤ s.now →
       ∃ u, exec (.arrayGate b c a) s = .next u ∧ (u.core b c).array a = { x with gated := true, jogRun := 0 } ∧
         (u.core b c).mx.jogCount = satAdd32 (s.core b c).mx.jogCount 1 ∧ sameBytes s u))) ∧
  (∀ (s : State) (b c a : Nat) (r : Nat × Nat × Bytes) (rest : List (Nat × Nat × Bytes)),
     (let x := (s.core b c).array a
      x.pushes = r :: rest → x.feeder.length < 64 → x.conv = false →
       ∃ u, exec (.feederPush b c a) s = .next u ∧
         (u.core b c).array a = { x with pushes := rest, feeder := x.feeder ++ [(false, r.2.2)] } ∧ sameBytes s u)) ∧
  (∀ (s : State) (b bank : Nat) (w : Nat × Nat × Nat), ((s.bench b).toWriteBack.find? fun x => x.1 = bank) = some w →
     ∃ t, exec (.rackWriteback b bank) s = .next t ∧ t.bench b = { s.bench b with
         toWriteBack := (s.bench b).toWriteBack.erase w
         reqs := (s.bench b).reqs ++ [{ due := s.now, port := 7, rack := true, row := 2048 * bank + w.2.1, write := true
                                        who := .writeBack bank w.2.1 w.2.2 }] } ∧
       (∀ b', b' ≠ b → t.bench b' = s.bench b') ∧ t.hbm = s.hbm)

/-- R262, R264, R291: an MSTREAM or MCONV with rows that issues becomes a job of its bench with its west buses, and opens or closes its
accumulations (R248, R249); one with ROWS = 0 does nothing but end its queue's hold. R245 to R252: where the accumulation mode writes results, an input row on a
whole array sends its output row to its unit of the activation store, and to no other byte; where it does not, nothing is written. -/
def Obligations.StreamedRowsAtTheirUnits : Prop :=
  (∀ (s : State) (op b c q p : Nat) (t : Task) (cmd : Cmd), op = 0x11 ∨ op = 0x12 → s.mayIssue b c q op = some (p, t, cmd) →
     s.issueFaults p b c q t cmd = false → (s.core b c).mx.arrays.length = 4 →
       (let kind : JobKind := if op = 0x12 then .conv else if cmd.queueFed then .queue else .preskew
        ∃ u, exec (if op = 0x11 then .mstream b c q [] else .mconv b c q []) s = .next u ∧ sameBytes s u ∧
          (u.bench b).reqs = (s.bench b).reqs ∧
          (cmd.rowsM = 0 → (u.bench b).jobs = (s.bench b).jobs ∧
            ∀ a ∈ cmd.arrays, (u.core b c).array a =
              (let x := (s.core b c).array a
               if x.held = some q then { x with held := none } else x)) ∧
          (cmd.rowsM ≠ 0 → ((u.bench b).jobs.map fun j => (j.id, j.kind, j.cmd, j.row, j.q)) =
              ((s.bench b).jobs.map fun j => (j.id, j.kind, j.cmd, j.row, j.q)) ++ [((s.bench b).nextJob, kind, cmd, 0, q)] ∧
            ∀ a ∈ cmd.arrays, (let x := (s.core b c).array a
              let y := (u.core b c).array a
              y.gated = false ∧ y.held = x.held ∧ y.tile = x.tile ∧ y.acc = x.acc ∧
              y.bus = .stream (s.now + if cmd.arrays.any fun i => ((s.core b c).array i).gated then 16 else 0) ∧
              y.accOpen = (if cmd.accMode = 1 then true else if cmd.accMode = 3 then false else x.accOpen) ∧
              y.accExp = if cmd.accMode = 1 then cmd.eX + x.eW else x.accExp)))) ∧
  (∀ (s : State) (b j due a g : Nat) (e : Int) (row : List Int) (job : Job), b < s.benches.length →
     (let x := (s.core job.eb job.ec).array a
      let units := if job.cmd.outLa64 then 4 else 1
      let at_ := 256 * (s.unit job.p b (ctxOf job.q) job.cmd.dstM + units * (g * job.cmd.rowsM + j))
      let u := s.rowOn b job j due row (a, g, e)
      sameBytes s u ∧
      (x.wf = true → job.cmd.accMode = 0 ∨ job.cmd.accMode = 3 → ∃ rs, (u.bench b).reqs = (s.bench b).reqs ++ rs ∧
        (∀ r ∈ rs, r.due = due ∧ r.port = job.port) ∧ (x.outRow job.cmd e (x.rowSum job.cmd j row)).1.length = 256 * units ∧
        writesAt false rs at_ (x.outRow job.cmd e (x.rowSum job.cmd j row)).1) ∧
      (job.cmd.accMode = 1 ∨ job.cmd.accMode = 2 → (u.bench b).reqs = (s.bench b).reqs)))

/-! ## 08: streams and DMA -/

/-- R359 to R364: SSTART arms its slot at tile 0, SREARM arms it anew behind the tiles of the arming before, and SDRAIN makes it drain, or
leaves it idle where everything it started has landed. No byte of a store changes. R366, R367: a DOWEL joins the dowel queue as requests
of at most 512 bytes. -/
def Obligations.StreamAndDowelCommands : Prop :=
  (∀ (s : State) (b c q p : Nat) (t : Task) (cmd : Cmd),
     (let i := s.slotIdx p b (ctxOf q) (cmd.a 5 0)
      let x := (s.core b c).slot i
      i < (s.core b c).dma.slots.length →
       (s.mayIssue b c q 0xA0 = some (p, t, cmd) → s.sstartCause p b c q t cmd = none → ∃ u, exec (.sstart b c q) s = .next u ∧
         (u.core b c).slot i = { raw := x.raw, busy := true, starter := q, far := cmd.farOffset, count := x.tileCount, armAt := s.now } ∧
         sameBytes s u) ∧
       (s.mayIssue b c q 0xA2 = some (p, t, cmd) → s.srearmCause p b c q t cmd = none → ∃ u, exec (.srearm b c q) s = .next u ∧
         (u.core b c).slot i = { x with far := cmd.farOffset, count := (if cmd.a 31 6 = 0 then x.tileCount else cmd.a 31 6)
                                        armBase := x.armBase + x.count, armAt := s.now, issued := 0
                                        old := (x.armBase, x.far, x.armAt, x.count) :: x.old.take 4 } ∧ sameBytes s u) ∧
       (s.mayIssue b c q 0xA1 = some (p, t, cmd) → x.busy = true → x.persistent = true → ∃ u, exec (.sdrain b c q) s = .next u ∧
         (u.core b c).slot i = (if x.started = x.landed then x.quiet else { x with draining := true }) ∧ sameBytes s u))) ∧
  (∀ (s : State) (b c q p : Nat) (t : Task) (cmd : Cmd), s.mayIssue b c q 0xA3 = some (p, t, cmd) →
     s.dowelCause p b (ctxOf q) t cmd = none →
       ∃ u, exec (.dowel b c q []) s = .next u ∧
         (let id := (s.core b c).dma.nextId
          let parts := s.dowelParts p b q id cmd
          (u.core b c).dma.dowels = (s.core b c).dma.dowels ++ [{ id := id, q := q, total := parts.length, parts := parts }] ∧
          (u.core b c).dma.nextId = id + 1 ∧ (∀ r ∈ parts, r.len ≤ 512) ∧ (parts.map (·.len)).sum = cmd.dowelLen) ∧ sameBytes s u)

/-- R342, R349, R351, R371, R414: a stream starts its next tile; in credit mode a gated one takes one from GATE_TALLY, behind the waits of
lower slots. R338: the data of a dowel transfer's read go to their place in the store, as write requests of exactly its bytes, and once
they are written the request is no longer outstanding. R339: so is a write whose far end has its bytes. -/
def Obligations.StreamTilesStartAndRequestsEnd : Prop :=
  (∀ (s : State) (b c i p : Nat) (t : Task), s.benchPart b = some p → s.issuing p = some t → (s.bench b).computes = true →
     (let x := ((s.core b c).slot i).forTile ((s.core b c).slot i).started
      let num := x.started
      let tally := s.tallyOf p b (ctxOf x.starter) x.gateTally
      x.busy = true → x.draining = false → x.exhausted = false →
      (if t.credit then x.gated num = false ∨ s.slotWaits p b c i tally < s.tallyLeft b c 40 tally
        else x.armAt + (num - x.armBase) * x.period ≤ s.now ∧ x.cls = s.classNow p) →
        ∃ u, exec (.streamTileStart b c i []) s = .next u ∧ ((u.core b c).slot i).started = num + 1 ∧
          (((u.core b c).slot i).tiles.map (·.num)) = (((s.core b c).slot i).tiles.map (·.num)) ++ [num] ∧
          (u.core b c).tallies = (if t.credit && x.gated num then setNat tally ((s.core b c).tally tally - 1) (s.core b c).tallies
            else (s.core b c).tallies) ∧ sameBytes s u)) ∧
  (∀ (s : State) (b c id p : Nat) (r : Req), s.benchPart b = some p →
     (((s.core b c).dma.writes.find? fun w => w.id = id) = some r → r.stage = .sent →
       (∀ x ∈ s.benches, x.awaits (.dma b c id) = false) → ∃ u, exec (.writeComplete b c id) s = .next u ∧
       (u.core b c).dma.writes.map (·.id) = ((s.core b c).dma.writes.map (·.id)).filter (· != id) ∧ sameBytes s u) ∧
     (∀ data, ((s.core b c).dma.reads.find? fun w => w.id = id && w.stage = .away) = some r → s.dmaRuns p = true → r.write = false →
       r.slot = 64 → r.gate = none → r.srcSpace = 2 ∨ r.srcSpace = 3 → r.dstSpace < 2 →
       ∃ u rs, exec (.readDataReturn b c id (.ok data) []) s = .next u ∧ (u.bench b).reqs = (s.bench b).reqs ++ rs ∧
         (∀ x ∈ rs, x.port = c ∧ x.due = s.now ∧ x.who = .dma b c id) ∧
         writesAt (decide (r.dstSpace = 1)) rs r.dst ((List.range r.len).map fun n =>
           (if r.srcSpace = 2 then s.shareRead p r.src r.len else data).getD n 0) ∧ sameBytes s u) ∧
     (∀ x m bs, s.req b c id = some r → m.write = true → r.write = false → (s.bench x).awaits (.dma b c id) = false →
       ((s.dmaServed x b c id m bs).core b c).dma.reads.map (·.id) = ((s.core b c).dma.reads.map (·.id)).filter (· != r.id)))

/-- R392, R396, R641: a host read that ends with an error, or gets no completion, latches DMA_FAULT with cause 7 and aborts the task with
detail 0x63. R392: a translation that no answer reaches within 2^24 beats ends the task as an unresolvable one. -/
def Obligations.HostReadsAndTranslationsFail : Prop :=
  (∀ (s : State) (b c id p : Nat) (r : Req) (x : Instr),
     x = .readDataReturn b c id .ur [] ∨ x = .readDataReturn b c id .ca [] ∨ x = .completionTimeout b c id →
     s.benchPart b = some p → ((s.core b c).dma.reads.find? fun w => w.id = id) = some r → r.stage = .away → r.srcSpace = 3 →
     s.dmaRuns p = true → (s.part p).task.isSome = true → (s.part p).clamping = false →
       ∃ u, exec x s = .next u ∧ (u.core b c).dma.fault.getLsbD 0 = true ∧
         ((s.core b c).dma.fault.getLsbD 0 = false → (u.core b c).dma.fault.toNat / 16 % 16 = 7 ∧
           (u.core b c).dma.faultAddr = BitVec.ofNat 64 r.src) ∧
         (u.part p).stop = .abort { status := 0x0E, detail := 0x63, r1 := BitVec.ofNat 64 (7 + 256 * (r.q % 64)) } ∧ sameBytes s u) ∧
  (∀ (s : State) (b c p pasid iova : Nat) (t : Trans), s.benchPart b = some p → s.dmaRuns p = true → (s.part p).task.isSome = true →
     (s.part p).clamping = false → ((s.core b c).dma.trans.find? fun x => x.pasid = pasidOf pasid && x.iova = iova && decide (x.since + 2 ^ 24 ≤ s.beat.periods)) = some t →
       ∃ u, exec (.translationTimeout b c pasid iova) s = .next u ∧ (u.core b c).dma.fault.getLsbD 0 = true ∧
         (∃ e, (u.part p).stop = .abort e ∧ e.status = 0x0E ∧ e.detail = 0x63) ∧
         (u.core b c).dma.trans = (s.core b c).dma.trans.filter (· != t) ∧ sameBytes s u)

/-- R348, R364: tiles land in order; in credit mode the landing signals LAND_TALLY in the next cycle. R373 to R376, R465: a scheduled tile
that misses its decision cycle is late: DEADLINE_MISS, one count, the class bit, and the partition holds; when no late tile or baton is left the
run goes on, shifted by a multiple of 16 beats. -/
def Obligations.TilesLandOrAreLate : Prop :=
  (∀ (s : State) (b c i p : Nat) (t : Tile) (rest : List Tile), s.benchPart b = some p → ((s.core b c).slot i).tiles = t :: rest →
     (let x := (s.core b c).slot i
      x.busy = true → t.num = x.landed → s.tileWhole b c i x t = true →
        ∃ u, exec (.tileLand b c i) s = .next u ∧
          (let y := { x with landed := t.num + 1, tiles := rest }
           (u.core b c).slot i = (if (x.draining && decide (x.started = t.num + 1)) ||
             (!x.persistent && decide (x.armBase + x.count ≤ t.num + 1)) then y.quiet else y)) ∧
          (u.core b c).signals = (s.core b c).signals ++
            (if !(s.part p).scheduledRun && x.landEn && decide (x.noLand ≤ t.num) then
              [{ key := 64 + i, tally := s.tallyOf p b (ctxOf x.starter) x.landTally, delta := 1, ctx := ctxOf x.starter }] else []) ∧
          sameBytes s u)) ∧
  (∀ (s : State) (p : Nat) (t : Task), (s.part p).task = some t →
     (∀ b c i x, s.benchPart b = some p → (((s.core b c).slot i).tiles.find? fun y => !y.late && s.isLate y && !s.dueMoves p y) = some x →
       (s.part p).scheduledRun = true → (s.part p).stop = .none → s.dmaRuns p = true →
       ∃ u, exec (.deadlineMiss b c i) s = .next u ∧ (u.core b c).dma.fault.getLsbD 1 = true ∧
         (u.core b c).dma.deadlineCount = satAdd32 (s.core b c).dma.deadlineCount (if x.counted then 0 else 1) ∧
         (u.part p).stop = .late b c i (s.lateAt x) ∧ (u.part p).task = some (t.mark 4) ∧ sameBytes s u) ∧
     (∀ b c i d, (s.part p).stop = .late b c i d → s.lateLeft p = false →
       ∃ u, exec (.lateTileResume p) s = .next u ∧ (u.part p).stop = .none ∧
         (u.part p).task = some { t with shift := t.shift + roundUp (t.lateGate - d / s.m) 16, lateGate := 0 } ∧ sameBytes s u))

/-- R388, R390, R391: an ATS grant fills the cache, a refused access asks for the page where PRI is enabled, and a granted page is
translated anew. R393: an invalidation empties the function's part of the range from every core's cache, and is answered when the
requests that were issued with it have completed. -/
def Obligations.TranslationsAndInvalidations : Prop :=
  (∀ (s : State) (b c p pasid iova : Nat) (t : Trans), s.benchPart b = some p → b < s.benches.length → c < (s.bench b).cores.length →
     (∀ base len addr, (s.core b c).dma.findTrans pasid iova false = some t → (s.core b c).dma.atc.length < 1024 →
       ∃ u, exec (.atsTranslationCompletion b c pasid iova (.grant base len addr)) s = .next u ∧
         (u.core b c).dma.atc = (s.core b c).dma.atc ++ [{ fn := s.runFn p, pasid := t.pasid, base := base, len := len, addr := addr }] ∧
         (u.core b c).dma.trans = (s.core b c).dma.trans.filter (· != t)) ∧
     ((s.core b c).dma.findTrans pasid iova false = some t → t.phase = 0 → s.priOn p = true →
       ∃ u, exec (.atsTranslationCompletion b c pasid iova .noAccess) s = .next u ∧
         (u.core b c).dma.priCount = satAdd32 (s.core b c).dma.priCount 1 ∧ Output.pageRequest t.pasid t.iova ∈ u.out) ∧
     ((s.core b c).dma.findTrans pasid iova true = some t →
       ∃ u, exec (.priResponse b c pasid iova .success) s = .next u ∧ Output.atsRequest t.pasid t.iova ∈ u.out ∧
         (u.core b c).dma.trans = (s.core b c).dma.trans.filter (· != t) ++ [{ t with phase := 2, since := s.beat.periods }])) ∧
  (∀ (s : State) (f pasid base len : Nat),
     (∃ u, exec (.atsInvalidate f pasid base len) s = .next u ∧
       (∀ b c, (b, c) ∈ s.cores → (u.core b c).dma.atc = (s.core b c).dma.atc.filter fun e => !e.hit f (pasidOf pasid) base len) ∧
       u.invals = s.invals ++ [(f, s.cores.flatMap fun bc =>
         ((s.core bc.1 bc.2).dma.users f (pasidOf pasid) base len).map fun id => (bc.1, bc.2, id))] ∧ sameBytes s u) ∧
     (∀ i, (s.invals.findIdx? fun v => v.1 = f && !v.2.any s.outstanding) = some i →
       exec (.atsInvalidateComplete f) s =
         .next (settle s { s with invals := s.invals.eraseIdx i, out := .invalidateDone f :: s.out })))

/-! ## 10: the plumb engine -/

/-- R433, R441, R454, R456: a PSOLVE or PBATCH occupies its engine until its last problem ends; a PDELTA whose indices are all in range
asks for writes that give each of the engine's own nonzeros that its list names its last value, and no other byte, and is complete after
ceil(n / 16) + 24 cc. R443, R450, R834: in its write phase an engine writes its rows of the solution and the result record. R457: the
last problem of a batch ends: the engine is free and its command completes. -/
def Obligations.PlumbCommandsStartAndEnd : Prop :=
  (∀ (s : State) (b c q p : Nat) (t : Task) (cmd : Cmd),
     (s.mayIssue b c q 0xC0 = some (p, t, cmd) → s.psolveFault p b c q cmd = none → ∃ u, exec (.psolve b c q []) s = .next u ∧
       ((u.core b c).plb.job.map fun j => (j.kind, j.q, j.desc)) = some (.solve, q, cmd.b 25 0) ∧ sameBytes s u) ∧
     (s.mayIssue b c q 0xC1 = some (p, t, cmd) → s.pbatchFault p b q cmd = none → ∃ u, exec (.pbatch b c q []) s = .next u ∧
       ((u.core b c).plb.job.map fun j => (j.kind, j.q, j.desc, j.count, j.done, j.running)) =
         some (.batch, q, cmd.b 25 0, cmd.a 15 0, 0, true) ∧ sameBytes s u) ∧
     (∀ r, s.mayIssue b c q 0xC2 = some (p, t, cmd) → s.residentOf b c = some r →
       (let n := cmd.a 23 0
        let a := s.actOff p b (ctxOf q) (cmd.b 25 0)
        let xs := s.deltas b a n
        actFits a (8 * n) 8 = true → (∀ x ∈ xs, x.1 < r.nnzTotal) →
         ∃ u rs, exec (.pdelta b c q []) s = .next u ∧ (u.core b c).plb.job.map (·.endAt) = some (s.now + ceilDiv n 16 + 24) ∧
           (u.bench b).reqs = (s.bench b).reqs ++ rs ∧ (∀ x ∈ rs, x.port = 4 + c ∧ x.rack = false ∧ x.who = .plumb c) ∧
           (∀ i v m, xs.reverse.lookup i = some v → r.nzFirst ≤ i → i < r.nzFirst + r.nzCount →
             Memory.read (writesOf rs m) (r.at_ + r.vals + 2 * (i - r.nzFirst)) 2 = v) ∧
           (∀ x m, x < r.at_ + r.vals ∨ r.at_ + r.vals + 2 * r.nzCount ≤ x → Memory.get (writesOf rs m) x = Memory.get m x) ∧
           sameBytes s u))) ∧
  (∀ (s : State) (o : Outcome) (start len lo : Nat) (e : PEng), e.b < s.benches.length →
     (let u := s.writeSolution o start len e lo
      let xs := lx16Bytes (requantAll ((o.sol.x.drop lo).take e.rowCount) (e.d.eOut + 32)).1
      let at_ := e.base + e.d.resultAddr
      ∃ rs, (u.bench e.b).reqs = (s.bench e.b).reqs ++ rs ∧ (∀ r ∈ rs, r.port = 4 + e.c ∧ r.write = true ∧ r.rack = false) ∧
        (∀ m, Memory.read (writesOf rs m) at_ 32 = resultRecord o ((o.reg.drop lo).take e.rowCount).sum) ∧
        (e.base + e.d.xAddr + xs.length ≤ at_ ∨ at_ + 32 ≤ e.base + e.d.xAddr → ∀ m,
          Memory.read (writesOf rs m) (e.base + e.d.xAddr) xs.length = xs) ∧ sameBytes s u)) ∧
  (∀ (s : State) (b c p : Nat) (j : PlbJob), s.benchPart b = some p → (s.core b c).plb.job = some j → j.running = true → j.kind = .batch →
     j.total < j.phase → s.phaseEnd (s.runningEngs p b c j) j ≤ s.now → j.count ≤ j.done + 1 →
       ∃ u, exec (.solveComplete b c) s = .next u ∧ (u.core b c).plb.job = none ∧
         (∀ q, ∀ i ∈ (u.queue b c q).inflight, i.on ≠ .solve) ∧ sameBytes s u)

/-! ## 11, 13, 14, 15: runs, steps and their ends -/

/-- R88, R94, R671 to R675: an accepted RUN without a start count launches at its admission gate, and one with a start count becomes the
partition's pending launch. R675, R91 to R93: a refused RUN completes with the status and detail of its first failing check, and nothing
of the partition changes. R94: at its gate a pending launch launches; where ALIGNED is clear it is refused with BEAT_LOST, and behind a
task with START_PAST, both detail 0x02. -/
def Obligations.RunsLaunchWaitOrAreRefused : Prop :=
  (∀ (s : State) (f i : Nat) (x : Pkt) (hostIn : List Bytes), (s.wakeForRun f).admits f 0x11 i x →
     s.runRefusal (x.part f) x = none →
       (bitOf (x.u 0x28 1) 0 = false → ∃ u, exec (.run f hostIn) s = .next u ∧
         (u.part (x.part f)).state = .running ∧ (u.part (x.part f)).launch = none ∧
         ((u.part (x.part f)).task.map fun t => (t.id, t.startAt, t.startGate, t.step)) =
           some (s.pktId f x, s.beat.periods * s.m, s.beat.count.toNat, 0) ∧
         u.ldg.reserved = s.ldg.reserved + 1 ∧ x.part f ∈ u.gpio.launched ∧
         (∀ b ∈ s.activeBenches (x.part f), ∀ c < 2, ∀ q, (u.queue b c q).head = 0 ∧ (u.queue b c q).inflight = []) ∧
         sameBytes s u) ∧
       (bitOf (x.u 0x28 1) 0 = true → ∃ u, exec (.run f hostIn) s = .next u ∧
         ((u.part (x.part f)).launch.map fun t => (t.id, t.startGate)) = some (s.pktId f x, roundUp (x.u 0x20 8) 16) ∧
         (u.part (x.part f)).task = (s.part (x.part f)).task ∧ u.ldg.reserved = s.ldg.reserved + 1 ∧ u.benches = (s.wakeForRun f).benches ∧
         u.hbm = s.hbm)) ∧
  (∀ (s : State) (f i st d : Nat) (x : Pkt) (hostIn : List Bytes), (s.wakeForRun f).admits f 0x11 i x →
     s.runRefusal (x.part f) x = some (st, d) →
       ∃ u, exec (.run f hostIn) s = .next u ∧ u.answered (s.pktId f x) (x.part f) st d 0 0 0 ∧ u.parts = s.parts ∧
         u.ldg = s.ldg ∧ u.hbm = s.hbm) ∧
  (∀ (s : State) (p : Nat) (t : Task), (s.part p).launch = some t → s.beat.gateOpen = true → t.startGate = s.beat.count.toNat →
     (s.beat.aligned = true → (s.part p).hasTask = false → (s.part p).prog.isSome = true →
       ∃ u, exec (.startLaunch p) s = .next u ∧ (u.part p).state = .running ∧ (u.part p).launch = none ∧
         ((u.part p).task.map fun v => (v.id, v.startAt)) = some (t.id, s.beat.periods * s.m) ∧ sameBytes s u) ∧
     (t.id.f < s.fns.length → (s.fn t.id.f).epoch = t.id.epoch →
       (s.beat.aligned = false → ∃ u, exec (.startLaunch p) s = .next u ∧ u.answered t.id p 0x11 0x02 0 0 0 ∧ (u.part p).launch = none ∧
         (u.part p).task = (s.part p).task ∧ sameBytes s u) ∧
       (s.beat.aligned = true → (s.part p).hasTask = true → ∃ u, exec (.startLaunch p) s = .next u ∧
         u.answered t.id p 6 0x02 0 0 0 ∧ (u.part p).launch = none ∧ (u.part p).task = (s.part p).task ∧ sameBytes s u)))

/-- R608, R230: the commit of a step that is not the last adds the shadow counts, and the next step is the one after it; the commit of the
last step ends the task: the partition is LOADED, the run's completion waits, and its record is staged. R397, R403: once its engines are
idle an aborted task ends: the partition is LOADED, its engines are quiet, and its completion carries the status, detail and result of
the first cause. -/
def Obligations.StepsCommitAndTasksEnd : Prop :=
  (∀ (s : State) (p : Nat) (t : Task) (hostOut : List Bytes), (s.part p).task = some t → t.startAt ≤ s.now → t.resumeAt ≤ s.now →
     (s.part p).stop = .none → (s.part p).after = .none → s.allQueues p (s.queueDone p t.step) = true → (s.part p).ckp.buddyOn = false →
     (s.part p).ckp.armed = false →
     (s.allQueues p (s.queueLast p t.step) = false → t.preempt = false →
       ∃ u, exec (.stepCommit p hostOut) s = .next u ∧ (u.part p).task.map (·.step) = some (t.step + 1) ∧ (u.part p).stop = .none ∧
         ((s.activeBenches p).Nodup → ∀ b ∈ s.activeBenches p, ∀ c,
           (u.core b c).sat = List.zipWith satAdd32 (s.core b c).sat ((List.range 4).map ((s.core b c).shadowed t.step))) ∧
         (∀ b, (u.bench b).rack = (s.bench b).rack ∧ (u.bench b).act = (s.bench b).act)) ∧
     (s.allQueues p (s.queueLast p t.step) = true → s.persistentSlots p = [] → (s.part p).dropProg = false → t.id.f < s.fns.length →
       (s.fn t.id.f).epoch = t.id.epoch → s.discards p = false →
       ∃ u, exec (.stepCommit p hostOut) s = .next u ∧ (u.part p).task = none ∧ (u.part p).state = .loaded ∧
         (∃ r ∈ (u.fn t.id.f).compl, r.id = t.id ∧ r.part = p ∧ r.ends = false) ∧
         (∃ e ∈ u.ldg.stage, e.part = p ∧ e.decision = true ∧ e.seq = (s.part p).stream.nextSeq))) ∧
  (∀ (s : State) (p : Nat) (t : Task) (e : Ending), (s.part p).stop = .abort e → (s.part p).task = some t → s.partIdle p = true →
     (s.part p).dropProg = false → e.status ≠ 0 → t.id.f < s.fns.length → (s.fn t.id.f).epoch = t.id.epoch →
       ∃ u, exec (.taskAbortComplete p) s = .next u ∧ (u.part p).task = none ∧ (u.part p).state = .loaded ∧ (u.part p).stop = .none ∧
         (∃ r ∈ (u.fn t.id.f).compl, r.id = t.id ∧ r.part = p ∧ r.status = e.status ∧ r.detail = e.detail ∧ r.r1 = e.r1 ∧ r.ends = true) ∧
         (∀ b ∈ s.arcBenches p, ∀ c q, (u.queue b c q).inflight = []) ∧ sameBytes s u)

/-- R588, R589, R562 to R564: the end of a buddy pause copies the dirty pages and lets the step commit; at the first gate at or after the
movers' end the run goes on, CLAMP_DONE is raised and the drain starts. R463, R595, R596, R600: after a buddy load the run goes on from the
step's start, a takeover is counted and sets mask bit 6, and a shrink is raised; without a task the partition is LOADED again. R317, R318: with every engine
idle the step runs again from what its cores held at its start, as one attempt more. -/
def Obligations.PausesClampsLoadsAndReruns : Prop :=
  (∀ (s : State) (p : Nat),
     (∀ e t, (s.part p).stop = .pause e → e ≤ s.now → (s.part p).task = some t → t.paused = false →
       ∃ u, exec (.buddyPauseEnd p) s = .next u ∧ (u.part p).ckp.buddyDirty = [] ∧ (u.part p).task = some { t with paused := true } ∧
         (∀ b, (u.bench b).rack = (s.bench b).rack ∧ (u.bench b).act = (s.bench b).act)) ∧
     (∀ e, (s.part p).stop = .clamp (e + 1) → (s.part p).after = .none → s.beat.gateOpen = true → e + 1 ≤ s.now →
       ((s.part p).task.map (·.preempt)) ≠ some true →
       ∃ u, exec (.clampDone p) s = .next u ∧ (u.part p).stop = .none ∧ (u.part p).ckp.event.getLsbD 0 = true ∧
         (u.part p).ckp.drain = ((s.part p).ckp.clamped.map fun d => { d with todo := (s.part p).ckp.pending, beat := s.beat.count }) ∧
         (u.part p).ckp.clamped = none ∧ sameBytes s u)) ∧
  (∀ (s : State) (p e k : Nat), (s.part p).stop = .load e k → (s.part p).after = .none → e ≤ s.now →
     (∀ t, (s.part p).task = some t → ∃ u, exec (.buddyLoadDone p) s = .next u ∧ (u.part p).stop = .none ∧
       ((u.part p).task.map fun v => (v.step, v.takeovers)) = some (t.step, if k = 0 then t.takeovers + 1 else t.takeovers) ∧
       (k = 0 → ((u.part p).task.map fun v => bitOf v.mask 6) = some true) ∧
       (k = 1 → (u.part p).ckp.event.getLsbD 5 = true) ∧ sameBytes s u) ∧
     ((s.part p).task = none → (s.part p).prog.isSome = true → ∃ u, exec (.buddyLoadDone p) s = .next u ∧ (u.part p).stop = .none ∧
       (u.part p).state = .loaded ∧ sameBytes s u)) ∧
  (∀ (s : State) (p b : Nat) (t : Task), (s.part p).stop = .rerun b → (s.part p).task = some t → s.partIdle p = true →
     ∃ u, exec (.stepRerun p) s = .next u ∧ (u.part p).stop = .none ∧
       ((u.part p).task.map fun v => (v.step, v.attempt, v.reruns)) = some (t.step, t.attempt + 1, t.reruns + 1) ∧
       (u.part p).hurdles = t.hurdleSnap ∧
       ((t.snaps.map fun n => (n.bench, n.core)).Nodup → ∀ n ∈ t.snaps, n.bench < s.benches.length →
         n.core < (s.bench n.bench).cores.length →
           (u.core n.bench n.core).tallies = n.tallies ∧ (u.core n.bench n.core).credits = n.credits ∧
           ∀ q, q < (s.core n.bench n.core).queues.length → (u.queue n.bench n.core q).head = n.heads.getD q 0) ∧
       sameBytes s u)

/-- R588, R589: BUDDY_PAUSE_END, of a run's pause, ends with the pages copied and nothing dirty. R562, R564: CLAMP_DONE, at a gate with
the movers done, lets the partition go on and starts the drain. R595, R600, R702: BUDDY_LOAD_DONE, once the load's cycles are over, ends
the wait with a run or without one. R317: STEP_RERUN, with every engine idle, puts the step in work again. Each leaves every other
partition as it is. -/
def Obligations.WaitsOfAPartitionEnd : Prop :=
  ∀ (s : State) (p : Nat), p < s.parts.length →
    (∀ e t, (s.part p).stop = .pause e → e ≤ s.now → (s.part p).task = some t → t.paused = false →
      ∃ u, exec (.buddyPauseEnd p) s = .next u ∧ (u.part p).stop = .pause e ∧ (u.part p).task = some { t with paused := true } ∧
        (u.part p).ckp.buddyDirty = [] ∧ (u.part p).ckp.dirty = (s.part p).ckp.dirty ∧ u.benches = s.benches ∧
        ∀ p', p' ≠ p → u.part p' = s.part p') ∧
    (∀ e, (s.part p).stop = .clamp (e + 1) → (s.part p).after = .none → s.beat.gateOpen = true → e + 1 ≤ s.now →
      (∀ t, (s.part p).task = some t → t.preempt = false) →
      ∃ u, exec (.clampDone p) s = .next u ∧ (u.part p).stop = .none ∧ (u.part p).task = (s.part p).task ∧
        (u.part p).state = (if (s.part p).task.isSome then (s.part p).state else .loaded) ∧
        (u.part p).ckp.drain = ((s.part p).ckp.clamped.map fun d => { d with todo := (s.part p).ckp.pending, beat := s.beat.count }) ∧
        (u.part p).ckp.event = setBit (s.part p).ckp.event 0 ∧ u.benches = s.benches ∧ u.hbm = s.hbm ∧ ∀ p', p' ≠ p → u.part p' = s.part p') ∧
    (∀ e k, (s.part p).stop = .load e k → (s.part p).after = .none → e ≤ s.now →
      ∃ u, exec (.buddyLoadDone p) s = .next u ∧ (u.part p).stop = .none ∧
        (u.part p).task.map (·.step) = (s.part p).task.map (·.step) ∧ (u.part p).prog = (s.part p).prog ∧ sameBytes s u ∧
        ∀ p', p' ≠ p → u.part p' = s.part p') ∧
    (∀ b t, (s.part p).stop = .rerun b → (s.part p).task = some t → s.partIdle p = true →
      ∃ u, exec (.stepRerun p) s = .next u ∧ (u.part p).stop = .none ∧ (u.part p).after = .none ∧
        (u.part p).task.map (·.step) = some t.step ∧ (u.part p).task.map (·.attempt) = some (t.attempt + 1) ∧
        (b < s.benches.length → (u.bench b).spd.reruns = satAdd32 (s.bench b).spd.reruns 1) ∧ sameBytes s u ∧
        ∀ p', p' ≠ p → u.part p' = s.part p')

/-! ## 12: the ledger -/

/-- R495, R513, R516 to R519: a stripe of staged entries begins on its members; when its last page has reported, it joins the log and its
entries are durable; a failed page abandons the stripe. -/
def Obligations.StripesAreProgrammed : Prop :=
  ∀ s : State,
    (∀ r, s.ldg.mounted = true → s.ldg.prog = none → s.ldg.erase = none → s.ldg.anchorDue = false → s.ldg.appends = true →
      s.ldg.toRelocate = [] → s.reclaimable = none → s.ldg.abandoned = none → s.ldg.staged ≠ [] → s.ldg.curRow = some r →
      s.ldg.rowOpen = true →
      (let x : Stripe :=
        { num := s.ldg.nextStripe, row := r, page := s.ldg.curPage, sectors := entrySectors (s.ldg.staged.map (·.bytes)) }
       ∃ t, exec .stripeStart s = .next t ∧
         (t.ldg.prog.map fun g => (g.stripe, g.issued ++ g.rest, g.anchor)) =
           some (x, s.ldg.dataMembers x.num ++ s.ldg.parityMembers x.num, none) ∧
         t.ldg.curPage = s.ldg.curPage + 1 ∧ t.ldg.nextStripe = s.ldg.nextStripe + 1 ∧ t.ldg.stripes = s.ldg.stripes ∧
         ∀ m ∈ s.ldg.dataMembers x.num, s.ldg.parityMembers x.num ≠ [] → Output.nandProgram m x.row x.page (x.page_ m s.ldg.geometry.pageBytes) ∈ t.out)) ∧
    (∀ g m, s.ldg.prog = some g → m ∈ g.issued →
      (g.issued.erase m ≠ [] → ∃ t, exec (.nandProgramDone m true) s = .next t ∧
        t.ldg.prog = some { g with issued := g.issued.erase m } ∧ t.ldg.stripes = s.ldg.stripes ∧ t.ldg.stage = s.ldg.stage) ∧
      (∀ k r, g.issued = [m] → g.rest = k :: r → ∃ t, exec (.nandProgramDone m true) s = .next t ∧
        t.ldg.prog = some { g with issued := [k], rest := r, since := s.beat.periods } ∧ t.ldg.stripes = s.ldg.stripes) ∧
      (g.issued = [m] → g.rest = [] → g.anchor = none → (∀ e ∈ s.ldg.stage, e.seq < 2 ^ 64) →
        ∃ t, exec (.nandProgramDone m true) s = .next t ∧ t.ldg.prog = none ∧ t.ldg.stripes = s.ldg.stripes ++ [g.stripe] ∧
          t.ldg.tail = g.stripe.num ∧ t.ldg.stage = (s.ldg.stage.filter fun e => e.inStripe != some g.stripe.num) ∧
          ∀ e ∈ s.ldg.stage, e.inStripe = some g.stripe.num → ∀ p, p < s.parts.length → (s.part p).stream.id = e.stream →
            e.seq ≤ (t.part p).stream.durable.toNat) ∧
      (g.anchor = none → ∃ t, exec (.nandProgramDone m false) s = .next t ∧ t.ldg.prog = none ∧ t.ldg.stripes = s.ldg.stripes ∧
        g.stripe.row ∈ t.ldg.retired ∧ t.ldg.event.getLsbD 5 = true ∧
        (g.moves = none → t.ldg.abandoned = some g.stripe.num) ∧ (∀ n, g.moves = some n → n ∈ t.ldg.toRelocate.map (·.1)) ∧
        ∀ e ∈ t.ldg.stage, e.inStripe ≠ some g.stripe.num))

/-- R526, R530 to R532, R489: an erase of a reclaimed row frees it; a member without ready status is FAILED and its rebuild stops, not
before an operation of its has had its 65,536 beats; the
third seals the ledger, and completions that wait for staged audit-mode entries are posted with LEDGER_SEALED (R610); the anchor is due when its timer says so; an old bundle is signed. -/
def Obligations.ErasesFailuresAndTimers : Prop :=
  ∀ s : State,
    (∀ j m, s.ldg.erase = some j → m ∈ j.members →
      (j.members.erase m ≠ [] → ∃ t, exec (.nandEraseDone m true) s = .next t ∧
        t.ldg.erase = some { j with members := j.members.erase m } ∧ t.ldg.rows = s.ldg.rows) ∧
      (∀ row, j.members = [m] → j.why = .reclaim row → ∃ t, exec (.nandEraseDone m true) s = .next t ∧ t.ldg.erase = none ∧
        t.ldg.rows = (s.ldg.rows.filter fun r => r.1 != row) ∧ t.ldg.stripes = (s.ldg.stripes.filter fun x => x.row != row) ∧
        t.ldg.anchorDue = true)) ∧
    (∀ m, s.ldg.takes m = true → s.ldg.prog = none → s.ldg.erase = none → ∃ t, exec (.memberFailed m) s = .next t ∧
      t.ldg.members = s.ldg.members.set m .failed ∧ t.ldg.event.getLsbD 0 = true ∧ t.ldg.anchorDue = true ∧
      t.ldg.rebuild = (s.ldg.rebuild.filter fun r => r.1 != m) ∧ t.ldg.stripes = s.ldg.stripes ∧
      (s.ldg.mounted = true → s.ldg.anchor.isSome = true → 3 ≤ t.ldg.down.length → t.ldg.sealed = true ∧
        (s.ldg.appends = true → ∀ f e c, e ∈ s.ldg.stage → e.audit = true → c ∈ (s.fn f).compl → c.cond = .durable e.stream e.seq →
          c.status = 0 → { c with cond := .ready, status := stSEALED } ∈ (t.fn f).compl))) ∧
    (∀ m, s.memberWaits m = true → exec (.memberFailed m) s = .next (settle s s)) ∧
    (∀ a, s.ldg.anchor = some a → s.ldg.prog = none → s.ldg.mounted = true → s.ldg.age.toNat / 2 ^ 32 ≠ a.age.toNat / 2 ^ 32 →
      exec .anchorTimer s = .next (settle s { s with ldg := { s.ldg with anchorDue := true } })) ∧
    (∀ p, (s.part p).stream.isOpen = true → (s.part p).stream.bundleOpen = true → s.discards p = false →
      (s.part p).stream.bundleBeat + 2 ^ 24 ≤ s.beat.periods →
      ∃ t e, exec (.signatureTimer p) s = .next t ∧ t.ldg.stage = stageInsert e s.ldg.stage ∧ e.part = p ∧
        e.seq = (s.part p).stream.nextSeq ∧ Bytes.nat e.bytes 0 1 = 3 ∧ (t.part p).stream.bundleOpen = false ∧
        (t.part p).stream.nextSeq = (s.part p).stream.nextSeq + 1)

/-- R523, R533 to R535, R539, R540: a due scrub read counts, sets the next one, and names a stripe that needs it for relocation; a rebuild
writes the member's page of its next stripe and goes on, or ends with the member ONLINE; a stripe with a slot that cannot be
reconstructed enters the loss map. -/
def Obligations.ScrubReadsAndRebuilds : Prop :=
  ∀ (s : State) (pages : List PageRead),
    (∀ x w, s.ldg.mounted = true → s.ldg.scrubInterval ≠ 0 → s.ldg.scrubDue ≠ 0 → s.glb.asleep = false →
      s.ldg.scrubStripe = some (x, w) →
      ∃ t, exec (.scrubRead pages) s = .next t ∧ t.ldg.scrubNext = x.num + 1 ∧ t.ldg.scrubDue = s.ldg.scrubDue - 1 ∧
        t.ldg.scrubPass = (if w then satAdd32 s.ldg.scrubPass 1 else s.ldg.scrubPass) ∧
        t.ldg.syncRetry = satAdd32 s.ldg.syncRetry ((s.ldg.seenAll x pages).map (·.2.rereads)).sum ∧
        t.ldg.erasures = satAdd32 s.ldg.erasures
          ((s.ldg.seenAll x pages).filter fun y => y.2.body.isNone && (y.1 != memberP x.num && y.1 != memberQ x.num)).length ∧
        (s.ldg.prog.isSome = true → s.ldg.mustRelocate x pages = true → s.ldg.inLog x = true → x.num ∈ t.ldg.toRelocate.map (·.1))) ∧
    (∀ m next tail x, s.ldg.rebuild = some (m, next, tail) → (s.ldg.log.find? fun x => decide (next ≤ x.num)) = some x → x.num ≤ tail →
      (let more := s.ldg.log.any fun y => decide (x.num + 1 ≤ y.num) && decide (y.num ≤ tail)
       ∃ t, exec (.rebuildStripe pages) s = .next t ∧
         (more = true → t.ldg.rebuild = some (m, x.num + 1, tail) ∧ t.ldg.members = s.ldg.members) ∧
         (more = false → t.ldg.rebuild = none ∧ t.ldg.lastRebuild = x.num + 1 ∧ t.ldg.members = s.ldg.members.set m .online ∧
           t.ldg.event.getLsbD 1 = true) ∧
         (s.ldg.lostSlots x pages = [] → t.ldg.stripes = s.ldg.stripes ∧ t.ldg.lossMap = s.ldg.lossMap ∧
           (let y := (s.ldg.stripes.find? fun y => y.num = x.num).getD x
            Output.nandProgram m y.row y.page (y.page_ m s.ldg.geometry.pageBytes) ∈ t.out)) ∧
         (s.ldg.lostSlots x pages ≠ [] → x.num ∈ t.ldg.lossMap ∧ t.ldg.event.getLsbD 2 = true ∧
           t.ldg.lossCount = satAdd32 s.ldg.lossCount 1)))

/-! ## 13: store sessions -/

/-- R567 to R571, R576: the outcome of a session that opens; what closes a session fails its drains; Keep Alive at half its timeout; a
completion waits for a gate. R567, R570, R635: STORE_CONNECT opens a session that is DOWN; STORE_DISCONNECT closes one that no drain
uses. -/
def Obligations.StoreSessions : Prop :=
  (∀ (s : State) (i : Nat),
     (∀ id, (s.session i).state = .connecting → (s.session i).id = some id → s.hears id →
       (∀ size alive, ∃ t, exec (.storeSessionConnected i (.connected 4096 false true size alive)) s = .next t ∧
         t.session i = { s.session i with
           state := .connected, id := none, sizeLbas := size, keepAlive := alive, aliveAt := s.beat.periods } ∧
         t.answered id 0xFF 0 0 size 0 0) ∧
       (∀ lba md size alive, lba ≠ 4096 ∨ md = true → ∃ t, exec (.storeSessionConnected i (.connected lba md true size alive)) s = .next t ∧
         (t.session i).state = .down ∧ t.answered id 0xFF 7 0 0 0 0) ∧
       (∃ t, exec (.storeSessionConnected i .failed) s = .next t ∧ (t.session i).state = .down ∧ t.answered id 0xFF 0xE 0x6D 0 0 0)) ∧
     ((s.session i).state ≠ .down → ∀ why, ∃ t, exec (.sessionClose i why) s = .next t ∧ (t.session i).state = .down ∧
       (t.session i).digestErrors =
         (if why = .digest then satAdd32 (s.session i).digestErrors 1 else (s.session i).digestErrors) ∧
       ∀ p < 6, (s.part p).ckp.session = i → (s.part p).ckp.drain.isSome = true →
         (t.part p).ckp.drain = none ∧ (t.part p).ckp.event.getLsbD 2 = true) ∧
     ((s.session i).state = .connected →
       (∃ t, exec (.keepAliveTimeout i) s = .next t ∧ (t.session i).state = .down ∧
         ∀ p < 6, (s.part p).ckp.session = i → (s.part p).ckp.drain.isSome = true →
           (t.part p).ckp.drain = none ∧ (t.part p).ckp.event.getLsbD 2 = true) ∧
       ((s.session i).aliveAt + (s.session i).keepAlive / 2 ≤ s.beat.periods →
         exec (.keepAlive i) s = .next (settle s { s with
           sessions := s.sessions.modify i fun e => { e with aliveAt := s.beat.periods }, out := .keepAlive i :: s.out })) ∧
       (∀ status, exec (.nvmeCompletion i status) s = .next (settle s { s with
         sessions := s.sessions.modify i fun e => { e with rx := e.rx ++ [(s.beat.periods, status)] } })))) ∧
  (∀ (s : State) (f i : Nat) (x : Pkt),
     (let n := x.u 0x20 1
      let id := s.pktId f x
      (s.admits f 0x21 i x → n ≤ 7 → x.u 0x21 1 ≤ 1 → x.u 0x23 1 = 4 ∨ x.u 0x23 1 = 6 → x.paramLen = 512 → s.partExists (x.u 0x22 1) = true →
        (s.latched (32 + n) = true → ∃ t, exec (.storeConnect f) s = .next t ∧ t.answered id 0xFF 0xF 0 0 0 0 ∧ t.sessions = s.sessions) ∧
        (s.latched (32 + n) = false → (s.session n).state ≠ .down → ∃ t, exec (.storeConnect f) s = .next t ∧
          t.answered id 0xFF 1 0 0 0 0 ∧ t.sessions = s.sessions) ∧
        (s.latched (32 + n) = false → (s.session n).state = .down → ∃ t, exec (.storeConnect f) s = .next t ∧ Output.connect n ∈ t.out ∧
          t.sessions = s.sessions.modify n fun e =>
            { e with state := .connecting, port := x.u 0x21 1, owner := x.u 0x22 1, id := some id, rx := [] })) ∧
      (s.admits f 0x22 i x → n ≤ 7 →
        ((s.parts.any fun y => y.ckp.session = n && y.ckp.drain.isSome) = true → ∃ t, exec (.storeDisconnect f) s = .next t ∧
          t.answered id 0xFF 1 0 0 0 0 ∧ t.sessions = s.sessions) ∧
        ((s.parts.any fun y => y.ckp.session = n && y.ckp.drain.isSome) = false → ∃ t, exec (.storeDisconnect f) s = .next t ∧
          (t.session n).state = .down ∧ Output.disconnect n ∈ t.out ∧ t.answered id 0xFF 0 0 0 0 0 ∧ t.parts = s.parts))))

/-! ## 15: windows, completions, BAR2 -/

/-- R649, R651 to R656: doorbells, captures, and completions written at AIVIA_CQ_TAIL. R657: ENABLE zeroes the indices and sets READY;
without it fetching stops, and READY stays while packets are in work. -/
def Obligations.WindowsQueuesAndCompletions : Prop :=
  (∀ (s : State) (fn f : Nat), f < s.fns.length →
     (let a := s.fn f
      (s.aiviaOpen fn f = true → ∀ word : W32,
       (let tail := word.toNat % 8192 % (2 * a.sqSize)
        ∃ t, exec (.aiviaDoorbell fn f word) s = .next t ∧
          t.fn f = (if a.sqSize < occupied tail a.sqHead a.sqSize then { a with badDoorbell := true } else { a with sqTail := tail }) ∧
          ∀ g, g ≠ f → t.fn g = s.fn g) ∧
       (∃ t, exec (.completionQueueFree fn f word) s = .next t ∧
         t.fn f = { a with cqHead := word.toNat % 8192 % (2 * a.cqSize) })) ∧
      (a.fetches = true → s.life = .up →
       (∀ bytes ext, ∃ t, exec (.packetCapture f (.packet bytes ext)) s = .next t ∧
         t.fn f = { a with gateBuf := a.gateBuf ++ [{ bytes := bytes, ext := ext, at_ := s.beat.periods }]
                           sqHead := (a.sqHead + 1) % (2 * a.sqSize) }) ∧
       (∃ t, exec (.packetCapture f .unresolvable) s = .next t ∧ (t.fn f).fetchFault = true ∧ (t.fn f).enable = false ∧
         (t.fn f).gateBuf = a.gateBuf)) ∧
      (∀ c, a.cqFull = false → s.nextPost false a.compl = some c →
       ∃ t, exec (.completionPost f) s = .next t ∧ (t.fn f).compl = a.compl.erase c ∧ (t.fn f).cqTail = (a.cqTail + 1) % (2 * a.cqSize) ∧
         Output.hostWrite none (a.cqBase.toNat + 32 * (a.cqTail % a.cqSize)) (complBytes c a) ∈ t.out ∧
         (f = 0 → t.irq.pfCompletion = true) ∧ (f ≠ 0 → Output.msix f ∈ t.out)))) ∧
  (∀ (s : State) (fn f : Nat), f < s.fns.length → s.aiviaOpen fn f = true →
     ((s.fn f).enable = false → ∃ t, exec (.aiviaEnable fn f) s = .next t ∧
       t.fn f = { s.fn f with enable := true, ready := true, sqHead := 0, sqTail := 0, cqHead := 0, cqTail := 0 } ∧
       ∀ g, g ≠ f → t.fn g = s.fn g) ∧
     (∃ t, exec (.aiviaDisable fn f) s = .next t ∧
       t.fn f = { s.fn f with enable := false, ready := (s.fn f).ready && (!(s.fn f).gateBuf.isEmpty || (s.fn f).inWork != 0) } ∧
       ∀ g, g ≠ f → t.fn g = s.fn g))

/-- R643, R644, R646: a BAR2 read returns the bytes of HBM, a write stores its own and no others, and an access waits behind an earlier one
of its function, for a refresh window, and for a retraining. -/
def Obligations.Bar2ReachesHbm : Prop :=
  ∀ (s : State) (fn off : Nat) (acc : Bar2), s.life = .up →
    (let waits := s.bar2Wait.any (fun w => w.1 = fn) || s.bar2Holds fn off
     (waits = true → exec (.bar2Access fn off acc) s = .next (settle s { s with bar2Wait := s.bar2Wait ++ [(fn, off, acc)] })) ∧
     (waits = false → s.glb.asleep = false →
      (∀ n, acc = .read n → ∃ data, exec (.bar2Access fn off acc) s = .next (settle s { s with out := .bar2Read fn data :: s.out }) ∧
        data.length = n ∧ ∀ i a, i < n → s.bar2Addr fn (off + i) = some a → data[i]? = some (Memory.get s.hbm a)) ∧
      (∀ bs a, acc = .write bs → s.bar2Addr fn off = some a → (bs ≠ [] → s.bar2Addr fn (off + bs.length - 1) ≠ none) →
        ∃ t, exec (.bar2Access fn off acc) s = .next t ∧ t.benches = s.benches ∧
          ∀ x, Memory.get t.hbm x = if a ≤ x ∧ x < a + bs.length then bs.getD (x - a) 0 else Memory.get s.hbm x)))

/-! ## 15: packets -/

/-- R659, R666: the open gate's packet at the front is refused with the detail of its header's first failing check, SHAPE_MISMATCH and no
partition; a packet row whose opcode is not that packet's leaves the packet alone. -/
def Obligations.PacketsWithBadHeadersAreRefused : Prop :=
  ∀ (s : State) (c : Instr) (f op : Nat), packetRow c = some (f, op) →
    (let s' := if op = 0x11 then s.wakeForRun f else s
     (∀ i x d, s'.nextPkt f = some (i, x) → x.op = op → s'.headerDetail f x = some d →
       ∃ t, exec c s = .next t ∧ t.answered (s.pktId f x) 0xFF 7 d 0 0 0 ∧ t.parts = s.parts ∧ t.hbm = s.hbm ∧ t.ldg = s.ldg ∧
         t.glue = s.glue ∧ t.ring = s.ring ∧ t.sessions = s.sessions) ∧
     (∀ i x, s'.nextPkt f = some (i, x) → x.op ≠ op → exec c s = .next (settle s s')) ∧
     (s'.nextPkt f = none → exec c s = .next (settle s s')))

/-- R667, R668, R770: NOP completes with its gate; IDENT_CERT writes the certificate, or answers the length that it needs; STORE_PORT_SET
sets its port. -/
def Obligations.NopCertificateAndStorePort : Prop :=
  ∀ (s : State) (f i : Nat) (x : Pkt),
    (let id := s.pktId f x
     (s.admits f 0x00 i x → ∃ t, exec (.aiviaNop f) s = .next t ∧ t.answered id 0xFF 0 0 s.beat.count.toNat 0 0 ∧ t.parts = s.parts ∧
       t.benches = s.benches ∧ t.hbm = s.hbm) ∧
     (s.admits f 0x30 i x →
       (let cert := Config.certificate s.fuses.serial
        ∃ t, exec (.identCert f) s = .next t ∧
          (x.u 0x30 4 < cert.length → t.answered id 0xFF 7 0x52 cert.length 0 0) ∧
          (cert.length ≤ x.u 0x30 4 → Output.hostWrite id.pasid (x.u 0x28 8) cert ∈ t.out ∧
            t.answered id 0xFF 0 0 cert.length (Bytes.nat (Config.keyId s.fuses.serial) 0 8) 0))) ∧
     (s.admits f 0x20 i x →
       (let port := x.u 0x20 1
        let fam := x.u 0x21 1
        port ≤ 1 → fam = 4 ∨ fam = 6 → x.u 0x22 1 ≤ (if fam = 4 then 32 else 128) → 1500 ≤ x.u 0x24 2 → x.u 0x24 2 ≤ 9000 →
        x.u 0x26 2 ≤ 4094 →
        ((s.sessions.any fun e => e.port = port && e.state != .down) = false → ∃ t, exec (.storePortSet f) s = .next t ∧
          t.ports = s.ports.set port { family := fam, prefixLen := x.u 0x22 1, mtu := x.u 0x24 2, vlan := x.u 0x26 2
                                       ip := Bytes.sub x.bytes 0x28 16, gateway := Bytes.sub x.bytes 0x38 16
                                       mac := BitVec.ofNat 48 (s.glue.value (7 + port)) } ∧ t.answered id 0xFF 0 0 0 0 0) ∧
        ((s.sessions.any fun e => e.port = port && e.state != .down) = true → ∃ t, exec (.storePortSet f) s = .next t ∧
          t.ports = s.ports ∧ t.answered id 0xFF 1 0 0 0 0))))

/-- R137, R142, R143, R485, R669, R670: an accepted PART_CREATE claims its entry, opens its stream and waits for a splice window; a refused
one leaves the partitions as they are. R144 to R147, R313: PART_RESIZE and PART_DESTROY of a partition without a run; the end of the
zeroing leaves the partition free, its share and its benches' stores zero and its benches UNASSIGNED, and completes PART_DESTROY. -/
def Obligations.PartitionsAreCreatedResizedDestroyed : Prop :=
  (∀ (s : State) (f i : Nat) (x : Pkt), s.admits f 0x01 i x →
     (let p := x.part f
      (s.createRefusal p x = none → p < s.parts.length →
        ∃ t, exec (.partCreate f) s = .next t ∧ (t.part p).valid = false ∧ (t.part p).state = .free ∧
          (t.part p).first = x.u 0x20 1 ∧ (t.part p).seats = x.u 0x21 1 ∧ s.freeHbm (x.u 0x2C 2) = some (t.part p).hbmBase ∧
          (t.part p).hbmSize = x.u 0x2C 2 ∧ (t.part p).tallyBlocks = x.u 0x22 1 ∧ (t.part p).hurdleCount = x.u 0x24 2 ∧
          (t.part p).audit = bitOf (x.u 0x23 1) 0 ∧ (t.part p).stream.id = s.ldg.nextStream ∧ (t.part p).stream.closed = false ∧
          t.ldg.nextStream = s.ldg.nextStream + 1 ∧
          t.ring.waiting = s.ring.waiting ++ [{ part := p, change := .create, id := some (s.pktId f x), notBefore := s.beat.periods + 1 }] ∧
          (∀ q, q ≠ p → t.part q = s.part q) ∧ t.benches = s.benches ∧ t.hbm = s.hbm) ∧
      (∀ st d, s.createRefusal p x = some (st, d) → ∃ t, exec (.partCreate f) s = .next t ∧ t.answered (s.pktId f x) p st d 0 0 0 ∧
        t.parts = s.parts ∧ t.ring = s.ring ∧ t.ldg = s.ldg))) ∧
  (∀ s : State,
     (∀ f i x, s.admits f 0x02 i x → (s.part (x.part f)).hasTask = false → (s.part (x.part f)).hasLaunch = false →
       s.partBusy (x.part f) = false →
       (let p := x.part f
        let a := s.resizeArc p x
        let old := s.arcSeats p
        let new := s.seatRun a.1.toNat a.2.toNat
        2 ≤ a.2 → a.2 ≤ (s.maxArc : Int) → s.claimedSeats.length - old.length + new.length ≤ s.maxArc →
        -((s.part p).seats : Int) ≤ signedOf (x.u 0x20 1) 8 → -((s.part p).seats : Int) ≤ signedOf (x.u 0x21 1) 8 →
        s.seatsFree (new.filter fun k => !old.contains k) = true →
        s.blocksUsed + 2 * (new.length - old.length) * (s.part p).tallyBlocks ≤ 128 →
        ∃ t, exec (.partResize f) s = .next t ∧ (t.part p).prog = none ∧ (t.part p).ckp.buddyOn = false ∧
          t.ring.waiting = s.ring.waiting ++
            [{ part := p, change := .resize a.1.toNat new.length (old.filter fun k => !new.contains k), id := some (s.pktId f x)
               notBefore := s.beat.periods + 1 }] ∧
          t.benches = s.benches ∧ t.hbm = s.hbm)) ∧
     (∀ f i x, s.admits f 0x03 i x →
       (let p := x.part f
        ((s.part p).hasTask = false → (s.part p).hasLaunch = false → ∃ t, exec (.partDestroy f) s = .next t ∧
          (t.part p).destroying = some (s.pktId f x) ∧ (t.part p).prog = none ∧ (t.part p).ckp.armed = false ∧
          (t.part p).ckp.buddyOn = false ∧ t.hbm = s.hbm) ∧
        ((s.part p).hasTask = true → ∃ t, exec (.partDestroy f) s = .next t ∧ t.answered (s.pktId f x) p 1 0 0 0 0 ∧ t.parts = s.parts))) ∧
     (∀ p id, (s.part p).destroying = some id → s.hears id →
       ∃ t, exec (.partitionZeroed p) s = .next t ∧ t.answered id p 0 0 0 0 0 ∧ (t.part p).valid = false ∧ (t.part p).seats = 0 ∧
         (t.part p).state = .free ∧ (t.part p).stream.closed = true ∧ t.ring.switches = s.ring.switches ∧
         t.ring.waiting = s.ring.waiting ++ [{ part := p, change := .destroy (s.arcSeats p) }] ∧
         (∀ a, Memory.get t.hbm a = if (s.part p).hbmStart ≤ a ∧ a < (s.part p).hbmStart + (s.part p).hbmBytes then 0
           else Memory.get s.hbm a) ∧
         (∀ b ∈ s.arcBenches p, b < s.benches.length → (t.bench b).rack = [] ∧ (t.bench b).act = [] ∧
           ((s.bench b).state = .active → (t.bench b).state = .unassigned) ∧ ((s.bench b).state = .bypassed → (t.bench b).state = .fenced)) ∧
         (∀ b, b ∉ s.arcBenches p → t.bench b = s.bench b)))

/-- R190, R617 to R623: PART_BALANCE sets BALANCE; PART_PREEMPT cancels a pending launch, and marks the task for its step's end, or ends it
at once. -/
def Obligations.BalanceAndPreempt : Prop :=
  ∀ (s : State) (f i : Nat) (x : Pkt),
    (let p := x.part f
     let id := s.pktId f x
     (s.admits f 0x04 i x →
       ((s.part p).hasTask = false → (s.part p).hasLaunch = false → ∃ t, exec (.partBalance f) s = .next t ∧
         t.part p = { s.part p with balance := bitOf (x.u 0x20 1) 0 } ∧ t.answered id p 0 0 0 0 0 ∧ t.benches = s.benches) ∧
       ((s.part p).hasTask = true → ∃ t, exec (.partBalance f) s = .next t ∧ t.answered id p 1 0 0 0 0 ∧ t.parts = s.parts)) ∧
     (s.admits f 0x05 i x →
       (((s.part p).preemptible = false → ∃ t, exec (.partPreempt f) s = .next t ∧ t.answered id p 0 0 0 0 0 ∧ (t.part p).launch = none ∧
          (t.part p).task = (s.part p).task) ∧
        ((s.part p).preemptible = true → ∃ t, exec (.partPreempt f) s = .next t ∧ (t.part p).launch = none ∧
          (t.part p).preempts = (s.part p).preempts ++ [id] ∧
          (bitOf (x.u 0x20 1) 0 = false → (t.part p).task = ((s.part p).task.map fun u => { u with preempt := true }) ∧
            (t.part p).stop = (s.part p).stop) ∧
          (bitOf (x.u 0x20 1) 0 = true → (s.part p).after = .none → (t.part p).stop = .abort (s.cutEnding (s.arcCores p) 0x69 preempted))))))

/-- R722, R724 to R727: a GLUE_WRITE, with no program in progress, is refused, needs no slot, or consumes the next slot; the value is in
force once the slot is programmed. -/
def Obligations.GlueWritesConsumeSlots : Prop :=
  ∀ s : State,
    (∀ f i x, s.admits f 0x31 i x →
      (let n := x.u 0x20 1
       let v := x.u 0x28 8
       let id := s.pktId f x
       (15 < n → ∃ t, exec (.glueWrite f) s = .next t ∧ t.answered id 0xFF 7 0x52 0 0 0 ∧ t.glue = s.glue) ∧
       (n ≤ 15 → s.glue.jobs = [] →
         (s.glueRange n v = false → ∃ t, exec (.glueWrite f) s = .next t ∧ t.answered id 0xFF 7 0x52 0 0 0 ∧ t.glue = s.glue) ∧
         (s.glueRange n v = true →
           (s.glue.value n = v → ∃ t, exec (.glueWrite f) s = .next t ∧ t.answered id 0xFF 0 0 (s.glue.left n) 0 0 ∧ t.glue = s.glue) ∧
           (s.glue.value n ≠ v → s.glue.left n = 0 → glueSlots n = 1 → ∃ t, exec (.glueWrite f) s = .next t ∧
             t.answered id 0xFF 9 0 0 0 0 ∧ t.glue.event.getLsbD 0 = true ∧ t.glue.values = s.glue.values ∧ t.glue.used = s.glue.used) ∧
           (s.glue.value n ≠ v → s.glue.left n = 0 → glueSlots n ≠ 1 → ∃ t, exec (.glueWrite f) s = .next t ∧
             t.answered id 0xFF 8 0 0 0 0 ∧ t.glue.event.getLsbD 1 = true ∧ t.glue.values = s.glue.values ∧ t.glue.used = s.glue.used) ∧
           (s.glue.value n ≠ v → s.glue.left n ≠ 0 → ∃ t, exec (.glueWrite f) s = .next t ∧
             t.glue = { s.glue with used := s.glue.used.modify n (· + 1), jobs := [{ setting := n, value := v, who := .packet id }] }))))) ∧
    (∀ j, s.glue.jobs = [j] → ∃ t, exec .glueSlotProgrammed s = .next t ∧
      t.glue = { s.glue with values := s.glue.values.set j.setting j.value, jobs := [] } ∧
      ∀ id, j.who = .packet id → s.hears id → t.answered id 0xFF 0 0 (s.glue.left j.setting) 0 0)

/-- R210 to R213, R196: PROGRAM_LOAD is turned away, refused with its first failing check, or in work; at its end the partition is LOADED,
its cores have the lists of the image, and the fingerprint is in host memory. With buddy copies the pause that copies every page comes
first. -/
def Obligations.ProgramLoadsAndItsEnd : Prop :=
  ∀ s : State,
    (∀ f i x image, s.admits f 0x10 i x →
      (let p := x.part f
       let id := s.pktId f x
       let st := (s.part p).shownState
       ((st ≠ .idle ∧ st ≠ .loaded) ∨ (s.part p).load.isSome = true → ∃ t, exec (.programLoad f image) s = .next t ∧
         t.answered id p 1 0 0 0 0 ∧ t.parts = s.parts) ∧
       (st = .idle ∨ st = .loaded → (s.part p).load = none →
         (s.imageOf p x image = none → ∃ t, exec (.programLoad f image) s = .next t ∧ t.answered id p 7 0x52 0 0 0 ∧ t.parts = s.parts) ∧
         (∀ img, s.imageOf p x image = some img →
           (∀ r, s.loadRefusal p img = some r → ∃ t, exec (.programLoad f image) s = .next t ∧ t.answered id p r.1 r.2 0 0 0 ∧
             t.parts = s.parts) ∧
           (s.loadRefusal p img = none → ∃ t, exec (.programLoad f image) s = .next t ∧
             (t.part p).load = some { id := id, image := img, reply := x.u 0x38 8 } ∧ (t.part p).prog = (s.part p).prog ∧
             t.benches = s.benches ∧ t.hbm = s.hbm))))) ∧
    (∀ p j, (s.part p).load = some j → j.copying = false → (s.part p).hasTask = false →
      ∃ t, exec (.programLoadDone p) s = .next t ∧
        ((t.part p).prog.map fun g => (g.image, g.fingerprint)) = some (j.image, sha256 j.image) ∧
        (t.part p).credit = !Img.scheduled j.image ∧
        ((s.activeBenches p).Nodup → ∀ k b, (s.activeBenches p)[k]? = some b → ∀ c, c < (s.bench b).cores.length →
          (t.core b c).queues = loadedQueues (s.core b c).queues j.image k c ∧ (t.core b c).tables = loadedTables j.image k c) ∧
        ((s.part p).ckp.buddyOn = false → s.hears j.id → (t.part p).state = .loaded ∧ (t.part p).load = none ∧
          Output.hostWrite j.id.pasid j.reply (sha256 j.image) ∈ t.out ∧
          t.answered j.id p 0 0 (Bytes.nat (sha256 j.image) 0 8) 0 0) ∧
        ((s.part p).ckp.buddyOn = true → (t.part p).stop = .pause (s.now + 57344)))

/-- R558 to R561, R587: CKP_ARM, CKP_DISARM and BUDDY_SET. R583 to R586: CKP_RESTORE takes the generation of the newest valid header and the
pages that it holds. -/
def Obligations.CheckpointPackets : Prop :=
  (∀ (s : State) (f i : Nat) (x : Pkt),
     (let p := x.part f
      let id := s.pktId f x
      (∀ found, s.admits f 0x18 i x →
        (∀ r, s.armRefusal p x found = some r → ∃ t, exec (.ckpArm f found) s = .next t ∧ t.answered id p r.1 r.2 0 0 0 ∧
          t.parts = s.parts) ∧
        (s.armRefusal p x found = none →
          (let pages := s.nSlots p * 1792 + x.armPages
           let gen := if x.armNew then 0 else Bytes.nat ((foundNewest found).getD []) 8 8
           ∃ t, exec (.ckpArm f found) s = .next t ∧ (t.part p).ckp.armed = true ∧ (t.part p).ckp.dirty = List.range pages ∧
             (t.part p).ckp.session = x.armSession ∧ (t.part p).ckp.lba = x.armLba ∧ (t.part p).ckp.interval = x.armInterval ∧
             (t.part p).ckp.units = x.armUnits ∧ (t.part p).ckp.lastGen = BitVec.ofNat 64 gen ∧
             (x.armNew = true → ∃ data, Output.nvmeWrite x.armSession x.armLba data 4096 ∈ t.out) ∧
             t.answered id p 0 0 gen pages 0 ∧ sameBytes s t))) ∧
      (s.admits f 0x19 i x → ∃ t, exec (.ckpDisarm f) s = .next t ∧
        (t.part p).ckp = { (s.part p).ckp with armed := false, dirty := [] } ∧ t.answered id p 0 0 0 0 0 ∧ sameBytes s t) ∧
      (s.admits f 0x1B i x →
        ((s.part p).hasTask = true → ∃ t, exec (.buddySet f) s = .next t ∧ t.answered id p 1 0 0 0 0 ∧ t.parts = s.parts) ∧
        ((s.part p).hasTask = false → (s.part p).hasLaunch = false → (s.part p).load = none → (s.part p).await = none →
          (x.u 0x28 8 = 0 → ∃ t, exec (.buddySet f) s = .next t ∧ (t.part p).ckp.buddyOn = false ∧ t.answered id p 0 0 0 0 0 ∧
            sameBytes s t) ∧
          (x.u 0x28 8 ≠ 0 → x.u 0x28 8 % 65536 = 0 → x.u 0x28 8 + s.buddySlots p * 234881024 ≤ (s.part p).hbmBytes →
            ∃ t, exec (.buddySet f) s = .next t ∧ (t.part p).ckp.buddyOn = true ∧ (t.part p).ckp.buddyBase = x.u 0x28 8 ∧
              (t.part p).await = some (id, 0, 0) ∧ (t.part p).stop = .pause (s.now + 57344) ∧ sameBytes s t))))) ∧
  (∀ (s : State) (f i : Nat) (x : Pkt) (found : Container), s.admits f 0x1A i x →
     (let p := x.part f
      let id := s.pktId f x
      let k := (s.part p).ckp
      (k.armed = false → ∃ t, exec (.ckpRestore f found) s = .next t ∧ t.answered id p 1 0 0 0 0 ∧ t.parts = s.parts) ∧
      (k.armed = true → (s.part p).shownState = .loaded → (s.part p).load = none → (s.part p).await = none →
        (s.activeBenches p).length = s.nSlots p →
        (foundNewest found = none → ∃ t, exec (.ckpRestore f found) s = .next t ∧ t.answered id p 7 0 0 0 0 ∧ t.parts = s.parts) ∧
        (∀ h, foundNewest found = some h → superblockOk found.superblock (s.nSlots p) k.regionPages (s.scopePages p) = true →
          k.buddyOn = false → ∃ t, exec (.ckpRestore f found) s = .next t ∧ (t.part p).ckp.dirty = [] ∧
            (t.part p).ckp.lastGen = BitVec.ofNat 64 (Bytes.nat h 8 8) ∧ (t.part p).ckp.held = foundHeld found h ∧
            t.answered id p 0 0 (Bytes.nat h 8 8) (foundHeld found h).length 0))))

/-- R504, R533, R538, R542, R546: LDG_FORMAT and LDG_MEMBER_REPLACE begin their erases, LDG_UNSEAL and LDG_RELEASE complete at once. R548 to
R551: LDG_EXPORT writes the entries of its SEQ range, GAP entries in place of what does not read, and answers the counts. -/
def Obligations.LedgerPacketsAndExport : Prop :=
  (∀ (s : State) (f i : Nat) (x : Pkt),
     (let id := s.pktId f x
      (∀ g : Geometry, ∀ bad, s.admits f 0x28 i x → s.glue.value 2 = 0 ∨ s.ldg.anchor = none → s.parts.any (·.used) = false →
        s.ldg.erase = none → s.ldg.prog = none → s.ldg.rebuild = none → 1 ≤ g.luns → g.luns ≤ 4 → 16592 ≤ g.pageBytes →
        ∃ t, exec (.ldgFormat f { geometry := List.replicate 10 g, badRows := bad }) s = .next t ∧ t.ldg.stripes = [] ∧
          t.ldg.anchors = [none, none] ∧ t.ldg.retired = bad ∧ t.ldg.members = List.replicate 10 .online ∧ t.ldg.sealed = false ∧
          t.ldg.erase = some { why := .format id, members := List.range 10, since := s.beat.periods } ∧ ∀ m < 10, Output.nandErase m ∈ t.out) ∧
      (∀ media, s.admits f 0x29 i x → x.u 0x20 1 < 10 → s.latched (16 + x.u 0x20 1) = false →
        s.ldg.members.getD (x.u 0x20 1) .online = .failed ∨ s.ldg.members.getD (x.u 0x20 1) .online = .absent →
        s.ldg.rebuild = none → s.ldg.erase = none → media.geometry = [s.ldg.geometry] → s.ldg.geometry.luns ≤ s.glue.value 10 → geometryOk s.ldg.geometry [s.ldg.geometry] = true →
        ∃ t, exec (.ldgMemberReplace f media) s = .next t ∧ t.ldg.members = s.ldg.members.set (x.u 0x20 1) .rebuilding ∧
          t.ldg.erase = some { why := .replace id, members := [x.u 0x20 1], since := s.beat.periods } ∧ Output.nandErase (x.u 0x20 1) ∈ t.out) ∧
      (s.admits f 0x2A i x →
        (s.ldg.mustSeal = false → ∃ t, exec (.ldgUnseal f) s = .next t ∧ t.ldg = { s.ldg with sealed := false } ∧
          t.answered id 0xFF 0 0 0 0 0) ∧
        (s.ldg.mustSeal = true → ∃ t, exec (.ldgUnseal f) s = .next t ∧ t.ldg = s.ldg ∧ t.answered id 0xFF 0x10 0 0 0 0)) ∧
      (s.admits f 0x2B i x → s.ldg.dir.any (fun d => d.1 = x.u 0x20 4) = true →
        ∃ t, exec (.ldgRelease f) s = .next t ∧ s.ldg.releasedOf (x.u 0x20 4) ≤ t.ldg.releasedOf (x.u 0x20 4) ∧
          t.ldg.releasedOf (x.u 0x20 4) = max (s.ldg.releasedOf (x.u 0x20 4)) (x.u 0x28 8) ∧
          t.answered id 0xFF 0 0 (t.ldg.releasedOf (x.u 0x20 4)) 0 0 ∧ t.ldg.stripes = s.ldg.stripes))) ∧
  (∀ (s : State) (f i : Nat) (x : Pkt) (pages : List PageRead), s.admits f 0x2C i x →
     (let stream := x.u 0x20 4
      let first := x.u 0x28 8
      let count := x.u 0x30 8
      let part := if f = 0 then 0xFF else x.part f
      let id := s.pktId f x
      let es := s.ldg.exported stream first (first + count - 1) pages
      let owner := ((s.ldg.dir.find? fun d => d.1 = stream).map fun d => d.2.1).getD 0
      let all := withGaps owner stream (first + count - 1) first es
      (f ≠ 0 → (s.part (x.part f)).stream.id ≠ stream → ∃ t, exec (.ldgExport f pages) s = .next t ∧ t.answered id part 7 0x55 0 0 0 ∧
        t.ldg = s.ldg) ∧
      (f = 0 ∨ (s.part (x.part f)).stream.id = stream → 0 < count → 
        (x.u 0x40 8 < 256 * all.length → ∃ t, exec (.ldgExport f pages) s = .next t ∧ t.answered id part 7 0x52 0 0 0) ∧
        (256 * all.length ≤ x.u 0x40 8 → ∃ t, exec (.ldgExport f pages) s = .next t ∧
          (all ≠ [] → Output.hostWrite id.pasid (x.u 0x38 8) all.flatten ∈ t.out) ∧
          t.answered id part 0 0 es.length (first + count - 1) (all.length - es.length) ∧ t.ldg.stripes = s.ldg.stripes))))

/-! ## 14, 17, 18: reconciliation, self-test, calibration, firmware -/

/-- R785, R632, R636: a tripped supply monitor reads UNUSABLE for 16 gates; RECONCILE clears a latched unit where both views agree, and is
turned away with DISAGREE where they do not. R728 to R733: SELF_TEST tests the benches that no partition owns and defers the others; a
deferred test starts at a gate; its end records the result, returns the bench to its former state with zero stores, and completes the
packet. -/
def Obligations.ReconcileSuppliesAndSelfTests : Prop :=
  (∀ s : State,
     (∀ b, ∃ t, exec (.supplyMonitorTrip b) s = .next t ∧ t.benches = s.benches.modify b (fun y => { y with supplyBad := 16 }) ∧
       ∀ env, b < s.benches.length → t.mgmtView env 0 b = 1) ∧
     (∀ f i x m d, s.admits f 0x0A i x → x.u 0x20 1 ≤ 2 → x.u 0x21 1 < s.unitCount (x.u 0x20 1) →
       (let n := 16 * x.u 0x20 1 + x.u 0x21 1
        ((m = 0 ∧ d ≠ 0) ∨ (m ≠ 0 ∧ d = 0) → ∃ t, exec (.reconcile f m d) s = .next t ∧ t.answered (s.pktId f x) 0xFF 0xF 0 0 0 0 ∧
          t.glb = s.glb) ∧
        ((m = 0 ∧ d = 0) ∨ (m ≠ 0 ∧ d ≠ 0) → ∃ t, exec (.reconcile f m d) s = .next t ∧
          t.answered (s.pktId f x) 0xFF 0 0 (min m 2 + 16 * min d 2) 0 0 ∧ t.latched n = false ∧
          (∀ k, k ≠ n → t.latched k = s.latched k) ∧ (s.latched n = true → t.glb.disStatus.getLsbD 1 = true))))) ∧
  (∀ s : State,
     (∀ f i x, s.admits f 0x32 i x → x.u 0x20 2 % 2 ^ 13 < 2 ^ s.nSeats → x.u 0x20 2 % 2 ^ 13 ≠ 0 →
       (let mask := x.u 0x20 2 % 2 ^ 13
        ∃ t, exec (.selfTest f) s = .next t ∧
          (∃ d, ({ id := s.pktId f x, left := mask, deferred := d } : TestJob) ∈ t.glb.tests ∧
            (d = true ↔ ∃ b, b < 13 ∧ bitOf mask b = true ∧ (s.bench b).testCounts = false ∧ s.testable b = false)) ∧
          (∀ b, b < 13 → b < s.benches.length → bitOf mask b = true → (s.bench b).testCounts = false →
            (s.testable b = true → (t.bench b).state = .testing ∧ (t.bench b).rack = [] ∧ (t.bench b).act = []) ∧
            (s.testable b = false → (t.bench b).testDeferred = true ∧ (t.bench b).state = (s.bench b).state)) ∧
          (∀ b, bitOf mask b = false → t.bench b = s.bench b))) ∧
     (∀ b, s.beat.gateOpen = true → (s.bench b).testDeferred = true → s.testable b = true → ∃ t, exec (.deferredSelfTestStart b) s = .next t ∧
       (t.bench b).state = .testing ∧ (t.bench b).testDeferred = false ∧ ∀ c, c ≠ b → t.bench c = s.bench c) ∧
     (∀ b pass w, (s.bench b).test = some w → w.why = .selfTest → w.endAt ≤ s.beat.periods → (s.bench b).state = .testing →
       ∃ t, exec (.selfTestDone b pass) s = .next t ∧ (t.bench b).state = w.former ∧ (t.bench b).testPass = pass ∧ (t.bench b).test = none ∧
         (t.bench b).rack = [] ∧ (t.bench b).act = [] ∧
         ∀ j, s.glb.tests = [j] → j.left = 2 ^ b → s.hears j.id →
           t.answered j.id 0xFF (if j.deferred then 1 else 0) 0 (j.passed + if pass then 2 ^ b else 0) s.beat.count.toNat 0))

/-- R735 to R740, R763 to R767: a calibration begins at once or at a quiescent gate, clears LOCKED where it relocks, and ends with its
completion; FW_STAGE takes an authentic image into the bank that does not run. -/
def Obligations.CalibrationAndFirmware : Prop :=
  ∀ s : State,
    (∀ f i x, s.admits f 0x33 i x → x.u 0x20 1 ≤ 1 →
      (let kind := x.u 0x20 1
       let id := s.pktId f x
       (s.glb.cal.isSome = true → ∃ t, exec (.calibrate f) s = .next t ∧ t.answered id 0xFF 1 0 0 0 0 ∧ t.glb = s.glb) ∧
       (s.glb.cal = none → s.quiescent = true → ∃ t, exec (.calibrate f) s = .next t ∧
         t.glb.cal = some { id := id, kind := kind, begun := some (s.beat.count, s.beat.periods + if kind = 0 then 20000 else 1024) } ∧
         t.beat.locked = (decide (kind ≠ 0) && s.beat.locked)) ∧
       (s.glb.cal = none → s.quiescent = false → ∃ t, exec (.calibrate f) s = .next t ∧
         t.glb.cal = some { id := id, kind := kind, deferred := true } ∧ t.beat = s.beat))) ∧
    (∀ j, s.glb.cal = some j → j.begun = none → s.beat.gateOpen = true → s.quiescent = true → ∃ t, exec .calibrateStart s = .next t ∧
      t.glb.cal = some { j with begun := some (s.beat.count, s.beat.periods + if j.kind = 0 then 20000 else 1024) }) ∧
    (∀ j n e, s.glb.cal = some j → j.begun = some (n, e) → e ≤ s.beat.periods → s.hears j.id → ∃ t, exec .calibrateDone s = .next t ∧
      t.glb.cal = none ∧ t.answered j.id 0xFF (if j.deferred then 1 else 0) 0 n.toNat 0 0 ∧
      (j.kind = 0 → t.beat.locked = !s.beat.lost) ∧ (j.kind ≠ 0 → t.beat.locked = s.beat.locked)) ∧
    (∀ f i x img, s.admits f 0x34 i x → img.length = x.u 0x30 4 → img.length ≤ 4194304 →
      (s.fwAuthentic img = true → ∃ t, exec (.fwStage f (.ok img)) s = .next t ∧
        t.mgmt.banks = s.mgmt.banks.set (1 - s.mgmt.bank) (some img) ∧ t.mgmt.event.getLsbD 0 = true ∧ t.mgmt.bank = s.mgmt.bank ∧
        t.answered (s.pktId f x) 0xFF 0 0 0 0 0) ∧
      (s.fwAuthentic img = false → ∃ t, exec (.fwStage f (.ok img)) s = .next t ∧ t.mgmt = s.mgmt ∧
        t.answered (s.pktId f x) 0xFF 7 0x52 0 0 0))

/-! ## 16: interrupts -/

/-- R684, R685, R687: an EOI sends a further message while the interrupt is pending; a message held by a masked vector is sent when the
vector is unmasked. -/
def Obligations.EoiAndUnmaskSendMessages : Prop :=
  ∀ s : State,
    (∀ w : W32, s.running = true → w.getLsbD 0 = true →
      (s.irqPending = true → s.irq.msixEnabled = true → exec (.irqEoi 0 w) s = .next { s with out := .msix 0 :: s.out }) ∧
      (s.irqPending = true → s.irq.msixEnabled = false →
        exec (.irqEoi 0 w) s = .next { s with irq := { s.irq with msixPending := true } }) ∧
      (s.irqPending = false → exec (.irqEoi 0 w) s = .next s)) ∧
    (∀ w : W32, w.getLsbD 0 = false → exec (.irqEoi 0 w) s = .next s) ∧ (∀ fn w, fn ≠ 0 → exec (.irqEoi fn w) s = .next s) ∧
    (∃ t, exec .msixVectorUnmask s = .next t ∧ t.irq = { s.irq with msixEnabled := true, msixPending := false } ∧
      t.out = (if s.irq.msixPending then .msix 0 :: s.out else s.out) ∧ t.fns = s.fns ∧ t.benches = s.benches)

/-! ## 17, 19: resets and power -/

/-- R695, R696, R699, R720, R721, R802, R803: what a power-on reset, a package reset, power-off and a thermal trip leave: every store and
register at reset, NAND, fuses, settings, slots and firmware banks as they were; the stage survives a package reset only. R720, R802,
R803: power-off and the thermal trip stop the package and lose its volatile state; the trip drives THERMTRIP_N. -/
def Obligations.PackageResetsAndStops : Prop :=
  (∀ (s : State) (env : StartEnv) (c : Instr) (last : Nat),
     ((c = .por env ∧ last = 0) ∨ (c = .perstAssert env ∧ last = 2 ∧ s.smbusAnswers = true) ∨
       (∃ w : W32, c = .pkgReset 0 w env ∧ w.getLsbD 0 = true ∧ last = 1 ∧ s.running = true)) → s.ldg.prog = none → s.glue.jobs = [] →
     (∃ t, exec c s = .next t ∧ t.life = (if s.bootBank.isSome then .awaitLock else .noFirmware) ∧ t.fuses = s.fuses ∧
       t.parts = State.reset.parts ∧ t.benches = State.reset.benches ∧ t.hbm = [] ∧ t.fns = State.reset.fns ∧
       t.sessions = State.reset.sessions ∧ t.ring = State.reset.ring ∧ t.gpio = State.reset.gpio ∧
       t.beat = { State.reset.beat with mActive := s.glue.value 0 } ∧ t.glue.values = s.glue.values ∧ t.glue.used = s.glue.used ∧
       t.glb = { State.reset.glb with lastStart := last } ∧ t.mgmt.banks = s.mgmt.banks ∧ t.ldg.stripes = s.ldg.stripes ∧
       t.ldg.anchors = s.ldg.anchors ∧ t.ldg.mounted = false ∧ (last = 0 → t.ldg.stage = []) ∧
       (last ≠ 0 → t.ldg.stage = s.ldg.stage.map fun e => { e with inStripe := none }))) ∧
  (∀ (s : State) (c : Instr) (l : Life),
     ((c = .powerOff ∧ l = .off) ∨ (c = .thermalTrip ∧ l = .tripped ∧ s.smbusAnswers = true)) →
     ∃ t, exec c s = .next t ∧ t.life = l ∧ t.running = false ∧ t.fuses = s.fuses ∧ t.parts = State.reset.parts ∧
       t.benches = State.reset.benches ∧ t.hbm = [] ∧ t.ldg.stage = [] ∧ t.ldg.stripes = s.ldg.stripes ∧ t.glue.values = s.glue.values ∧
       t.glue.used = s.glue.used ∧ t.mgmt.banks = s.mgmt.banks ∧ (l = .tripped → Output.thermtrip ∈ t.out))

/-- R702 to R707: a request for a bench whose BCH sequence runs, or that meets a wider reset in its core cycle, changes no bench and no
partition; else a BCH reset of a bench ends a task of its partition, unloads a program that has no buddy copies, and leaves the bench's
cores and stores at reset; an ENG reset leaves the engine's queues empty and every other queue of the core as it is. -/
def Obligations.BenchAndEngineResets : Prop :=
  ∀ (s : State) (w : W32), s.running = true → w.getLsbD 0 = false →
    (let b := bitsOf w.toNat 11 8
     let c := bitsOf w.toNat 12 12
     let e := bitsOf w.toNat 15 13
     b < s.benches.length →
      (w.getLsbD 1 = true → s.resetDiscarded b 1 = true → ∃ t, exec (.benchReset 0 w) s = .next t ∧ t.benches = s.benches ∧ t.parts = s.parts) ∧
      (w.getLsbD 1 = true → s.resetDiscarded b 1 = false →
        (s.benchPart b = none → ∃ t, exec (.benchReset 0 w) s = .next t ∧ (t.bench b).cores = List.replicate 2 {} ∧
          (t.bench b).rack = [] ∧ (t.bench b).act = [] ∧ (t.bench b).state = (s.bench b).state ∧ t.parts = s.parts ∧
          ∀ b', b' ≠ b → t.bench b' = s.bench b') ∧
        (∀ p, s.benchPart b = some p → (s.bench b).state = .active → (s.part p).ckp.buddyOn = false → (s.part p).state ≠ .free →
          ∃ t, exec (.benchReset 0 w) s = .next t ∧ (t.part p).task = none ∧ (t.part p).prog = none ∧ (t.part p).state = .idle ∧
            (t.bench b).cores = List.replicate 2 {} ∧ (t.bench b).rack = [] ∧ (t.bench b).act = [] ∧ t.hbm = s.hbm)) ∧
      (w.getLsbD 1 = false → w.getLsbD 2 = true → e ≤ 4 → s.resetDiscarded b 0 = false → s.benchPart b = none → ∃ t, exec (.engineReset 0 w) s = .next t ∧
        (∀ q, engineOf q = e → (t.queue b c q).head = 0 ∧ (t.queue b c q).tail = 0 ∧ (t.queue b c q).inflight = [] ∧
          (t.queue b c q).base = (s.queue b c q).base) ∧
        (∀ q, engineOf q ≠ e → t.queue b c q = s.queue b c q) ∧ (∀ b', b' ≠ b → t.bench b' = s.bench b') ∧ sameBytes s t))

/-- R625, R626, R642, R700, R701: the FLR of a virtual function resets its queues and ends the run, launch, program and checkpoint of its
partition; the FLR of the physical function resets its own queues and vector and no partition. -/
def Obligations.FunctionLevelResets : Prop :=
  ∀ s : State, s.running = true →
    (∀ p, p ≤ 5 → p + 1 < s.fns.length → ∃ t, exec (.flr p) s = .next t ∧ (t.fn (p + 1)).enable = false ∧ (t.fn (p + 1)).gateBuf = [] ∧
      (t.fn (p + 1)).epoch = (s.fn (p + 1)).epoch + 1 ∧ t.hbm = s.hbm ∧
      ((s.part p).used = true → (s.part p).destroying = none → (t.part p).task = none ∧ (t.part p).launch = none ∧
        (t.part p).prog = none ∧ (t.part p).ckp.armed = false ∧ (t.part p).ckp.buddyOn = false ∧ (t.part p).valid = (s.part p).valid ∧
        ∀ b ∈ s.arcBenches p, b < s.benches.length → (t.bench b).cores = List.replicate 2 {} ∧ (t.bench b).rack = [] ∧
          (t.bench b).act = [])) ∧
    (∃ t, exec .pfFlr s = .next t ∧ (0 < s.fns.length → t.fn 0 = { epoch := (s.fn 0).epoch + 1 }) ∧ (∀ f, f ≠ 0 → t.fn f = s.fn f) ∧
      t.irq.pfCompletion = false ∧ t.irq.msixEnabled = false ∧ t.parts = s.parts ∧ t.benches = s.benches ∧ t.hbm = s.hbm)

/-- R709 to R714: a requested bench state that the bench may enter takes effect after 16 beats, and P2 after 64; from P2 the bench is tested
first; P2 loses what the bench held. R715 to R719: the entry to package sleep unloads every program, closes every session and resets the
benches; ASLEEP follows; the write that clears SLEEP tests every bench. -/
def Obligations.BenchPowerAndPackageSleep : Prop :=
  (∀ (s : State) (b : Nat),
     (s.beat.gateOpen = true → b < s.nSeats → b < s.benches.length → (s.bench b).powerMove = none →
       (s.bench b).power ≠ (s.bench b).powerReq → s.glb.asleep = false →
       ((s.bench b).power ≠ 2 → s.powerOk b (s.bench b).powerReq = true → ∃ t, exec (.benchPowerTransition b) s = .next t ∧
         t.bench b = { s.bench b with
           powerMove := some ((s.bench b).powerReq, s.beat.periods + if (s.bench b).powerReq = 2 then 64 else 16) } ∧
         ∀ b', b' ≠ b → t.bench b' = s.bench b') ∧
       ((s.bench b).power = 2 → (s.bench b).test = none → ∃ t, exec (.benchPowerTransition b) s = .next t ∧
         (t.bench b).state = .testing ∧ (t.bench b).power = 0 ∧ ∀ b', b' ≠ b → t.bench b' = s.bench b')) ∧
     (∀ target e, (s.bench b).powerMove = some (target, e) → e ≤ s.beat.periods → ∃ t, exec (.powerTransitionDone (some b)) s = .next t ∧
       (t.bench b).power = target ∧ (t.bench b).powerMove = none ∧ (t.bench b).state = (s.bench b).state ∧
       (target = 2 → (t.bench b).cores = List.replicate 2 {} ∧ (t.bench b).rack = [] ∧ (t.bench b).act = []) ∧
       (target ≠ 2 → (t.bench b).cores = (s.bench b).cores ∧ (t.bench b).rack = (s.bench b).rack) ∧
       ∀ b', b' ≠ b → t.bench b' = s.bench b')) ∧
  (∀ s : State,
     (s.beat.gateOpen = true → s.glb.sleep = true → s.glb.asleep = false → s.glb.sleepMove = none → s.glb.waking = false →
       s.glb.ready = true → s.mayRest = true → ∃ t, exec .packageSleepEntry s = .next t ∧
         t.glb.sleepMove = some (s.beat.periods + 2000) ∧ (∀ i < 8, (t.session i).state = .down) ∧
         (∀ p < 6, (t.part p).prog = none ∧ (t.part p).ckp.armed = false ∧ (t.part p).valid = (s.part p).valid) ∧
         (∀ x ∈ t.benches, x.cores = List.replicate 2 {} ∧ x.rack = [] ∧ x.act = []) ∧ t.hbm = s.hbm) ∧
     (∀ e, s.glb.sleepMove = some e → e ≤ s.beat.periods → s.glb.sleep = true → exec (.powerTransitionDone none) s =
       .next (settle s { s with glb := { s.glb with asleep := true, sleepMove := none } })) ∧
     (∀ w : W32, s.running = true →
       (s.glb.asleep = true → w.getLsbD 0 = false → ∃ t, exec (.sleepExit 0 w) s = .next t ∧ t.glb.asleep = false ∧ t.glb.waking = true ∧
         (∀ b, b < s.nSeats → b < s.benches.length → (t.bench b).power = 0 ∧
           ((t.bench b).test.map (·.endAt)) = some (s.beat.periods + 70000))) ∧
       (s.glb.asleep = false ∨ w.getLsbD 0 = true →
         exec (.sleepExit 0 w) s = .next (settle s { s with glb := { s.glb with sleep := w.getLsbD 0 } }))))

/-! ## 18: GPIO, temperatures, SMBus -/

/-- R749 to R754, R758 to R761: writes of the GPIO registers by the physical function, and the filtered change of a pin, which raises the
pin's interrupt where its INT_MODE selects the edge. -/
def Obligations.GpioWritesAndFilterChanges : Prop :=
  ∀ s : State,
    (s.running = true →
      (∀ v : W64, ∃ t, exec (.gpioOutWrite 0 v) s = .next t ∧ ∀ n < 32,
        t.gpio.outValue.getLsbD n = if v.getLsbD n then v.getLsbD (n + 32) else s.gpio.outValue.getLsbD n) ∧
      (∀ g v, g < s.gpio.funcEn.length → ∃ t, exec (.gpioFuncEnWrite 0 g v) s = .next t ∧ t.gpio.funcEn = s.gpio.funcEn.set g v ∧
        t.gpio.outValue = s.gpio.outValue) ∧
      (∀ n (v : W32), ∃ t, exec (.gpioDebounceWrite 0 n v) s = .next t ∧ t.gpio.debounce = s.gpio.debounce.set n (v.toNat % 65536) ∧
        t.gpio.differing = s.gpio.differing.set n 0 ∧ t.gpio.filtered = s.gpio.filtered) ∧
      (∀ half (v : W32), half ≤ 1 → ∃ t, exec (.gpioIntModeWrite 0 half v) s = .next t ∧ ∀ n < 64,
        t.gpio.intMode.getLsbD n = if n / 32 = half then v.getLsbD (n % 32) else s.gpio.intMode.getLsbD n)) ∧
    (∀ n, n < 32 → s.gpio.debounce.getD n 0 < s.gpio.differing.getD n 0 → ∃ t, exec (.gpioFilterChange n) s = .next t ∧
      (t.gpio.filtered.getLsbD n = !s.gpio.filtered.getLsbD n) ∧ (∀ k, k ≠ n → t.gpio.filtered.getLsbD k = s.gpio.filtered.getLsbD k) ∧
      t.gpio.differing.getD n 0 = 0 ∧
      (let rising := !s.gpio.filtered.getLsbD n
       (s.gpio.selects n rising = true → t.gpio.intStatus = setBit s.gpio.intStatus n) ∧
       (s.gpio.selects n rising = true → s.gpio.intStatus = 0 → t.gpio.capPin = n ∧ t.gpio.capRising = rising ∧
         t.gpio.intBeat = s.beat.count) ∧
       (s.gpio.selects n rising = false → t.gpio.intStatus = s.gpio.intStatus)))

/-- R774: a temperature sample, every 16,384 beats; a unit that is absent or in P2 shows no reading. R771 to R773: the SMBus reads, each
with its bytes; an unlisted code is not acknowledged; a PEC error is recorded. -/
def Obligations.TemperaturesAndSmbus : Prop :=
  (∀ (s : State) (bench hbm : List (BitVec 16)), s.mgmt.sampleIn = 0 → s.running = true →
     ∃ t, exec (.tempSample bench hbm) s = .next t ∧ t.mgmt.sampleIn = 16384 ∧
       (∀ b, t.benchTemp b = if b < s.nSeats ∧ (s.bench b).power ≠ 2 ∧ b < s.benches.length then bench.getD b 0x8000 else 0x8000) ∧
       (∀ k, k < 8 → t.hbmTempOf k = if k < s.nStacks then hbm.getD k 0x8000 else 0x8000) ∧ sameBytes s t) ∧
  (∀ (s : State), s.smbusAnswers = true →
     (let row (c : Instr) (data : Bytes) : Prop := exec c s = .next { s with out := .smbus data :: s.out }
      row (.smbusIdent false) (leBytes 8 s.fuses.partIdent.toNat ++ leBytes 8 s.fuses.serial.toNat) ∧
      row (.smbusFwStatus false) (leBytes 1 s.mgmt.fwState ++ leBytes 1 s.mgmt.bank ++ leBytes 2 s.mgmt.version) ∧
      row (.smbusAssetTag false) (leBytes 8 (s.glue.value 12) ++ leBytes 8 (s.glue.value 13)) ∧
      row (.smbusStatus false) (leBytes 1 (natOfBool s.glb.ready + 2 * natOfBool s.glb.asleep + 4 * natOfBool (s.pinStatus 26) +
        8 * natOfBool (s.benches.any fun x => x.state = .fenced))) ∧
      row (.smbusTempMax false) (leBytes 2 s.tempMax.toNat) ∧
      (∀ k, k ≤ 12 → row (.smbusBenchTemp k false) (leBytes 2 (s.benchTemp k).toNat)) ∧
      (∀ k, k ≤ 7 → row (.smbusHbmTemp k false) (leBytes 2 (s.hbmTempOf k).toNat)) ∧
      exec .smbusNack s = .next { s with out := .smbusNack :: s.out } ∧
      (∃ t, exec (.smbusIdent true) s = .next t ∧ t.mgmt.event.getLsbD 2 = true ∧ t.fns = s.fns ∧ t.benches = s.benches)))

/-! ## 00, 20: registers -/

/-- R6, R8, R10, R645, R808, R811, R812: what a BAR0 write does: nothing where it is misaligned, where its function may not write, or where the
device does not run; a 64-bit register whole or by halves; written ones clear event bits that were not set in the running cycle; the fixed part of a register stays. -/
def Obligations.RegisterWrites : Prop :=
  ∀ s : State,
    (∀ fn addr size v, addr % size ≠ 0 ∨ (size ≠ 4 ∧ size ≠ 8) ∨ s.running = false → exec (.registerWrite fn addr size v) s = .next s) ∧
    (∀ fn addr v, fn ≠ 0 → addr < 0x1000000 → exec (.registerWrite fn addr 4 v) s = .next s) ∧
    (s.running = true → ∀ v : W64,
      exec (.registerWrite 0 0x100008 8 v) s = .next (settle s { s with beat := { s.beat with epochValue := v } }) ∧
      exec (.registerWrite 0 0x100008 4 v) s = .next (settle s { s with beat := { s.beat with epochValue := setHalf s.beat.epochValue 0 (v.setWidth 32) } }) ∧
      exec (.registerWrite 0 0x10000C 4 v) s = .next (settle s { s with beat := { s.beat with epochValue := setHalf s.beat.epochValue 1 (v.setWidth 32) } }) ∧
      exec (.registerWrite 0 0x200004 4 v) s =
        .next (settle s { s with irq := { s.irq with summaryEnable := v.setWidth 32 &&& 0x1FFFFFFF#32 } }) ∧
      exec (.registerWrite 0 0x800028 4 v) s =
        .next (settle s { s with ring := { s.ring with event := s.ring.event &&& ~~~(v.setWidth 32 &&& 0x3F#32 &&& ~~~s.raisedIn 1) } }) ∧
      exec (.registerWrite 0 0x100000 8 v) s = .next s ∧
      (∃ t, exec (.registerWrite 0 0x300000 8 v) s = .next t ∧ t.glue.values = s.glue.values ∧ t.glue.event.getLsbD 0 = true ∧
        (s.glue.event.getLsbD 0 = false → t.glue.lockOffset = 0x300000 ∧ t.glue.lockFn = 0)))

/-- R17, R18, R813: a 32-bit read returns its register; of a 64-bit register it latches the high half for its function, and the next read of
that half returns the latch and uses it up. -/
def Obligations.LowHalfReadLatchesTheHighHalf : Prop :=
  ∀ (s : State) (fn a : Nat), fn < s.hiLatch.length → a % 4 = 0 →
    (∀ v, s.barReg fn a = some (true, v) → ∃ t, exec (.lowHalfRead fn a) s = .next t ∧
      t = { s with out := .bar0Read fn a (v.setWidth 32) :: s.out, hiLatch := t.hiLatch } ∧
      t.latchedHigh fn a = some ((v >>> 32).setWidth 32) ∧ ∀ g, g ≠ fn → ∀ x, t.latchedHigh g x = s.latchedHigh g x) ∧
    (∀ v, s.barReg fn a = some (false, v) → exec (.lowHalfRead fn a) s = .next { s with out := .bar0Read fn a (v.setWidth 32) :: s.out }) ∧
    (∀ v h, s.barReg fn a = none → s.highOf fn a = some v → s.latchedHigh fn (a - 4) = some h →
      ∃ t, exec (.lowHalfRead fn a) s = .next t ∧ t.out = .bar0Read fn a h :: s.out ∧ t.latchedHigh fn (a - 4) = none) ∧
    (s.barReg fn a = none → s.highOf fn a = none → exec (.lowHalfRead fn a) s = .next { s with out := .bar0Read fn a 0 :: s.out })

/-- What the physical function reads right after reset: the Reset values of the register tables, for registers of every block. -/
def Obligations.ResetValuesRead : Prop :=
  (∀ x ∈ ([(0x000304, 0), (0x100018, 0), (0x100020, 0x00640064), (0x100024, 0), (0x200000, 0), (0x200004, 0), (0x200008, 1), (0x200104, 0xFFF),
      (0x200164, 0xFFF), (0x200400, 0xFFFFFFFF), (0x200540, 0xFFFFFFFF), (0x300100, 0), (0x400000, 0), (0x400024, 0), (0x800010, 0x1FFF),
      (0x800028, 0), (0x801008, 0)] : List (Nat × W32)), State.reset.read32 0 x.1 = x.2) ∧
  (∀ x ∈ ([(0x1020000, 0), (0x104000C, 0), (0x1460014, 0), (0x1490010, 0xF00), (0x1CA0000, 0), (0x10B000C, 0), (0x10D8000, 0), (0x10F0800, 0),
      (0x2000000, 0), (0x2000038, 1024), (0x2100000, 0), (0x2101000, 0), (0x306000C, 0)] : List (Nat × W32)),
    State.reset.read32 0 x.1 = x.2) ∧
  State.reset.read64 0 0x100000 = 0 ∧ State.reset.read64 0 0x100008 = 0

/-! ## Whole-machine rules -/

/-- R721, R722, R724: no command changes the fuses, none touches the commands that wait, and none gives back a one-time slot. -/
def Obligations.FusesAndSpentSlotsStay : Prop :=
  ∀ (c : Instr) (s : State), s.slotsWf = true → ∃ t, exec c s = .next t ∧ t.fuses = s.fuses ∧ t.pending = s.pending ∧
    t.slotsWf = true ∧ (∀ n, s.glue.used.getD n 0 ≤ t.glue.used.getD n 0)

/-- Every step keeps the byte stores in their canonical form and the block's units in number. -/
def Obligations.StepsKeepTheInvariant : Prop :=
  ∀ s t : State, s.storesWf = true → s.unitsWf = true → s.slotsWf = true → step s = .next t →
    t.storesWf = true ∧ t.unitsWf = true ∧ t.slotsWf = true

/-- The state after reset meets the invariant of StepsKeepTheInvariant. -/
def Obligations.ResetMeetsTheInvariant : Prop :=
  State.reset.storesWf = true ∧ State.reset.unitsWf = true ∧ State.reset.slotsWf = true
end

