-- ==== Sys2Proof/Laws/Bytes.lean ====
section
/-! SUPPORT. Laws of byte strings: little-endian numbers and their bytes, and the parts of a string. -/

namespace Sys2Proof.Machine

@[simp] theorem leBytes_length (n v : Nat) : (leBytes n v).length = n := by
  induction n generalizing v with
  | zero => rfl
  | succ n ih => simp [leBytes, ih]

/-- The number of n bytes is read back from them. -/
theorem leNat_leBytes (n v : Nat) : leNat (leBytes n v) = v % 256 ^ n := by
  induction n generalizing v with
  | zero => simp [leBytes, leNat, Nat.mod_one]
  | succ n ih =>
    have e : 256 ^ (n + 1) = 256 * 256 ^ n := Nat.pow_succ'
    simp only [leBytes, leNat, ih, BitVec.toNat_ofNat]
    rw [e, Nat.mod_mul]

@[simp] theorem Bytes.sub_length (bs : Bytes) (off n : Nat) : (Bytes.sub bs off n).length = n := by
  simp only [Bytes.sub, List.length_append, List.length_replicate, List.length_take]
  omega

theorem Bytes.sub_append_left (b x : Bytes) (n : Nat) (h : b.length = n) : Bytes.sub (b ++ x) 0 n = b := by
  subst h; simp [Bytes.sub]

theorem Bytes.sub_append_right (b x : Bytes) (off n : Nat) (h : b.length = off) (hx : x.length = n) : Bytes.sub (b ++ x) off n = x := by
  subst h hx; simp [Bytes.sub]

/-- A number of n bytes behind a string of off bytes reads back. -/
theorem Bytes.nat_append_leBytes (b : Bytes) (off n v : Nat) (h : b.length = off) (hv : v < 256 ^ n) :
    Bytes.nat (b ++ leBytes n v) off n = v := by
  rw [Bytes.nat, Bytes.sub_append_right b _ off n h (leBytes_length n v), leNat_leBytes, Nat.mod_eq_of_lt hv]

end Sys2Proof.Machine
end

