-- ==== Sys2Proof/Laws/Memory.lean ====
section
/-! SUPPORT. The sparse stores: every operation keeps the canonical form, and what a byte reads as after it. -/

namespace Sys2Proof.Machine

/-! ## The canonical form as a statement about the list -/

/-- Addresses rise and no byte is zero. -/
def Memory.Canonical (m : Mem) : Prop := m.Pairwise (fun x y => x.1 < y.1) ∧ ∀ c ∈ m, c.2 ≠ 0

theorem Memory.wf_iff (m : Mem) : Memory.wf m = true ↔ Memory.Canonical m := by
  induction m with
  | nil => simp [Memory.wf, Memory.Canonical]
  | cons c m ih =>
    cases m with
    | nil => simp [Memory.wf, Memory.Canonical]
    | cons d m =>
      have hw : Memory.wf (c :: d :: m) = (c.2 != 0 && decide (c.1 < d.1) && Memory.wf (d :: m)) := rfl
      rw [hw]
      simp only [Bool.and_eq_true, bne_iff_ne, ne_eq, decide_eq_true_eq, ih, Memory.Canonical, List.pairwise_cons, List.mem_cons,
        forall_eq_or_imp]
      constructor
      · rintro ⟨⟨hc, hcd⟩, ⟨hd, hm⟩, hz⟩
        exact ⟨⟨⟨hcd, fun a ha => Nat.lt_trans hcd (hd a ha)⟩, hd, hm⟩, hc, hz⟩
      · rintro ⟨⟨⟨hcd, _⟩, hd, hm⟩, hc, hz⟩
        exact ⟨⟨hc, hcd⟩, ⟨hd, hm⟩, hz⟩

theorem Memory.wf_nil : Memory.wf [] = true := rfl

theorem Memory.Canonical.filter {m : Mem} (p : Nat × Byte → Bool) (h : Memory.Canonical m) : Memory.Canonical (m.filter p) :=
  ⟨h.1.filter p, fun c hc => h.2 c (List.mem_filter.1 hc).1⟩

theorem Memory.Canonical.up {m : Mem} (d : Nat) (h : Memory.Canonical m) : Memory.Canonical (Memory.up d m) := by
  refine ⟨List.pairwise_map.2 (h.1.imp fun hxy => Nat.add_lt_add_right hxy d), ?_⟩
  intro c hc
  obtain ⟨x, hx, rfl⟩ := List.mem_map.1 hc
  exact h.2 x hx

theorem Memory.Canonical.append {m n : Mem} (hm : Memory.Canonical m) (hn : Memory.Canonical n)
    (h : ∀ x ∈ m, ∀ y ∈ n, x.1 < y.1) : Memory.Canonical (m ++ n) :=
  ⟨List.pairwise_append.2 ⟨hm.1, hn.1, h⟩, fun c hc => (List.mem_append.1 hc).elim (hm.2 c) (hn.2 c)⟩

/-! ## Every operation keeps it -/

/-- The one write of the model keeps the canonical form. -/
theorem Memory.splice_wf (m : Mem) (a n : Nat) (src : Mem) (hm : Memory.wf m = true) (hs : Memory.wf src = true) :
    Memory.wf (Memory.splice m a n src) = true := by
  rw [Memory.wf_iff] at *
  refine Memory.Canonical.append (Memory.Canonical.append (hm.filter _) ((hs.filter _).up a) ?_) (hm.filter _) ?_
  · intro x hx y hy
    obtain ⟨z, hz, rfl⟩ := List.mem_map.1 hy
    simp only [List.mem_filter, decide_eq_true_eq] at hx
    omega
  · intro x hx y hy
    simp only [List.mem_filter, decide_eq_true_eq] at hy
    rcases List.mem_append.1 hx with h | h
    · simp only [List.mem_filter, decide_eq_true_eq] at h; omega
    · obtain ⟨z, hz, rfl⟩ := List.mem_map.1 h
      simp only [List.mem_filter, decide_eq_true_eq] at hz
      show z.1 + a < y.1
      omega

theorem Memory.ofBytes_ge (bs : Bytes) : ∀ (a : Nat), ∀ c ∈ Memory.ofBytes a bs, a ≤ c.1 := by
  induction bs with
  | nil => intro a c hc; cases hc
  | cons b bs ih =>
    intro a c hc
    unfold Memory.ofBytes at hc
    split at hc
    · exact Nat.le_of_succ_le (ih _ c hc)
    · rcases List.mem_cons.1 hc with rfl | h
      · exact Nat.le_refl _
      · exact Nat.le_of_succ_le (ih _ c h)

theorem Memory.ofBytes_wf (bs : Bytes) : ∀ (a : Nat), Memory.wf (Memory.ofBytes a bs) = true := by
  induction bs with
  | nil => intro a; rfl
  | cons b bs ih =>
    intro a
    unfold Memory.ofBytes
    split
    · exact ih _
    · rename_i hb
      have h := (Memory.wf_iff _).1 (ih (a + 1))
      refine (Memory.wf_iff _).2 ⟨List.pairwise_cons.2 ⟨fun c hc => Memory.ofBytes_ge bs (a + 1) c hc, h.1⟩, ?_⟩
      intro c hc
      rcases List.mem_cons.1 hc with rfl | hc
      · exact hb
      · exact h.2 c hc

theorem Memory.write_wf (m : Mem) (a : Nat) (bs : Bytes) (hm : Memory.wf m = true) : Memory.wf (Memory.write m a bs) = true :=
  Memory.splice_wf _ _ _ _ hm (Memory.ofBytes_wf bs 0)

theorem Memory.clear_wf (m : Mem) (a n : Nat) (hm : Memory.wf m = true) : Memory.wf (Memory.clear m a n) = true :=
  Memory.splice_wf _ _ _ _ hm rfl

theorem Memory.slice_wf (m : Mem) (a n : Nat) (hm : Memory.wf m = true) : Memory.wf (Memory.slice m a n) = true := by
  rw [Memory.wf_iff] at *
  have h := hm.filter fun c => decide (a ≤ c.1) && decide (c.1 < a + n)
  refine ⟨List.pairwise_map.2 (h.1.imp_of_mem fun {x y} hx hy hxy => ?_), ?_⟩
  · simp only [List.mem_filter, Bool.and_eq_true, decide_eq_true_eq] at hx hy
    show x.1 - a < y.1 - a
    omega
  · intro c hc
    obtain ⟨x, hx, rfl⟩ := List.mem_map.1 hc
    exact h.2 x hx

/-! ## What a byte reads as -/

theorem Memory.get_append (m n : Mem) (x : Nat) :
    Memory.get (m ++ n) x = if m.any (fun c => c.1 = x) then Memory.get m x else Memory.get n x := by
  induction m with
  | nil => simp
  | cons c m ih =>
    simp only [List.cons_append, Memory.get, List.any_cons]
    by_cases h : c.1 = x
    · simp [h]
    · simp [h, ih]

theorem Memory.get_filter (m : Mem) (p : Nat → Bool) (x : Nat) :
    Memory.get (m.filter fun c => p c.1) x = if p x then Memory.get m x else 0 := by
  induction m with
  | nil => simp [Memory.get]
  | cons c m ih =>
    by_cases hc : p c.1
    · by_cases h : c.1 = x
      · subst h; simp [List.filter, hc, Memory.get]
      · simp [List.filter, hc, Memory.get, h, ih]
    · by_cases h : c.1 = x
      · subst h; simp [List.filter, hc, ih]
      · simp [List.filter, hc, Memory.get, h, ih]

theorem Memory.get_up (m : Mem) (d x : Nat) : Memory.get (Memory.up d m) x = if d ≤ x then Memory.get m (x - d) else 0 := by
  induction m with
  | nil => simp [Memory.up, Memory.get]
  | cons c m ih =>
    have : Memory.up d (c :: m) = (c.1 + d, c.2) :: Memory.up d m := rfl
    rw [this, Memory.get, ih, Memory.get]
    by_cases h : d ≤ x
    · by_cases hc : c.1 = x - d
      · have : c.1 + d = x := by omega
        simp [hc, h]
      · have : ¬ c.1 + d = x := by omega
        simp [this, hc, h]
    · have : ¬ c.1 + d = x := by omega
      simp [this, h]

theorem Memory.get_eq_zero_of_not_any (m : Mem) (x : Nat) (h : m.any (fun c => c.1 = x) = false) : Memory.get m x = 0 := by
  induction m with
  | nil => rfl
  | cons c m ih =>
    simp only [List.any_cons, Bool.or_eq_false_iff, decide_eq_false_iff_not] at h
    rw [Memory.get, if_neg h.1, ih h.2]

/-- After the one write of the model, a byte inside the written range is the source's, and any other is unchanged. -/
theorem Memory.get_splice (m : Mem) (a n : Nat) (src : Mem) (x : Nat) :
    Memory.get (Memory.splice m a n src) x = if a ≤ x ∧ x < a + n then Memory.get src (x - a) else Memory.get m x := by
  have h1 := Memory.get_filter m (fun y => decide (y < a)) x
  have h2 := Memory.get_filter m (fun y => decide (a + n ≤ y)) x
  have h3 : Memory.get (Memory.up a (src.filter fun c => decide (c.1 < n))) x =
      if a ≤ x then (if x - a < n then Memory.get src (x - a) else 0) else 0 := by
    rw [Memory.get_up, Memory.get_filter src (fun y => decide (y < n)) (x - a)]
    simp
  have step (u v : Mem) : Memory.get (u ++ v) x = Memory.get u x ∨ (Memory.get u x = 0 ∧ Memory.get (u ++ v) x = Memory.get v x) := by
    rw [Memory.get_append]
    by_cases h : u.any (fun c => c.1 = x)
    · simp [h]
    · right; exact ⟨Memory.get_eq_zero_of_not_any _ _ (Bool.eq_false_iff.2 h), by simp [h]⟩
  have any1 : (m.filter fun c => decide (c.1 < a)).any (fun c => c.1 = x) = true → x < a := by
    intro h; obtain ⟨c, hc, hx⟩ := List.any_eq_true.1 h
    simp only [List.mem_filter, decide_eq_true_eq] at hc hx; omega
  have any2 : (Memory.up a (src.filter fun c => decide (c.1 < n))).any (fun c => c.1 = x) = true → a ≤ x ∧ x < a + n := by
    intro h; obtain ⟨c, hc, hx⟩ := List.any_eq_true.1 h
    obtain ⟨z, hz, rfl⟩ := List.mem_map.1 hc
    simp only [List.mem_filter, decide_eq_true_eq] at hz hx; omega
  unfold Memory.splice
  rw [Memory.get_append, Memory.get_append, h1, h2, h3, List.any_append]
  by_cases c1 : x < a
  · have e2 : (Memory.up a (src.filter fun c => decide (c.1 < n))).any (fun c => c.1 = x) = false :=
      Bool.eq_false_iff.2 fun h => by have := any2 h; omega
    rw [e2, if_neg (by omega : ¬ (a ≤ x ∧ x < a + n))]
    by_cases e1 : (m.filter fun c => decide (c.1 < a)).any (fun c => c.1 = x) = true
    · simp [e1, c1]
    · have z := Memory.get_eq_zero_of_not_any _ x (Bool.eq_false_iff.2 e1)
      rw [h1] at z
      simp only [c1, decide_true, if_true] at z
      simp [e1, show ¬ a + n ≤ x by omega, z]
  · have e1 : (m.filter fun c => decide (c.1 < a)).any (fun c => c.1 = x) = false :=
      Bool.eq_false_iff.2 fun h => c1 (any1 h)
    rw [e1]
    by_cases c2 : x < a + n
    · have hx : a ≤ x ∧ x < a + n := ⟨by omega, c2⟩
      rw [if_pos hx]
      by_cases e2 : (Memory.up a (src.filter fun c => decide (c.1 < n))).any (fun c => c.1 = x) = true
      · simp [e2, hx.1, show x - a < n by omega]
      · have z := Memory.get_eq_zero_of_not_any _ x (Bool.eq_false_iff.2 e2)
        rw [h3] at z
        simp only [hx.1, if_true, show x - a < n by omega] at z
        simp [e2, show ¬ a + n ≤ x by omega, z]
    · have e2 : (Memory.up a (src.filter fun c => decide (c.1 < n))).any (fun c => c.1 = x) = false :=
      Bool.eq_false_iff.2 fun h => by have := any2 h; omega
      rw [e2]
      simp [show a + n ≤ x by omega, c2]

theorem Memory.get_ofBytes (bs : Bytes) : ∀ (a x : Nat),
    Memory.get (Memory.ofBytes a bs) x = if a ≤ x then bs.getD (x - a) 0 else 0 := by
  induction bs with
  | nil => intro a x; simp [Memory.ofBytes, Memory.get]
  | cons b bs ih =>
    intro a x
    have key : (if a + 1 ≤ x then bs.getD (x - (a + 1)) 0 else 0) = if a ≤ x then (if a = x then 0 else (b :: bs).getD (x - a) 0) else 0 := by
      by_cases h : a + 1 ≤ x
      · have : x - a = (x - (a + 1)) + 1 := by omega
        rw [if_pos h, if_pos (by omega), if_neg (by omega), this]; rfl
      · rw [if_neg h]
        by_cases h' : a ≤ x
        · rw [if_pos h', if_pos (by omega)]
        · rw [if_neg h']
    unfold Memory.ofBytes
    split
    · rename_i hb
      rw [ih, key]
      by_cases h : a = x
      · subst h; simp [hb]
      · simp [h]
    · rw [Memory.get, ih, key]
      by_cases h : a = x
      · subst h; simp
      · simp [h]

/-- After a write, a byte that it covers is the byte written, and any other is unchanged. -/
theorem Memory.get_write (m : Mem) (a : Nat) (bs : Bytes) (x : Nat) :
    Memory.get (Memory.write m a bs) x = if a ≤ x ∧ x < a + bs.length then bs.getD (x - a) 0 else Memory.get m x := by
  unfold Memory.write
  rw [Memory.get_splice, Memory.get_ofBytes]
  simp

/-- A read of what was written gives it back. -/
theorem Memory.read_write (m : Mem) (a : Nat) (bs : Bytes) : Memory.read (Memory.write m a bs) a bs.length = bs := by
  unfold Memory.read
  apply List.ext_getElem
  · simp
  · intro i h1 h2
    simp only [List.getElem_map, List.getElem_range]
    rw [Memory.get_write, if_pos (by omega)]
    simp [List.getD, h2]

/-- A zero-fill reads zero, and leaves the rest. -/
theorem Memory.get_clear (m : Mem) (a n x : Nat) :
    Memory.get (Memory.clear m a n) x = if a ≤ x ∧ x < a + n then 0 else Memory.get m x := by
  unfold Memory.clear; rw [Memory.get_splice]; rfl

end Sys2Proof.Machine
end

