-- ==== Sys2Proof/Laws/State.lean ====
section
/-! SUPPORT. What each update of the state leaves: one lemma for each field and each named update, true by computation, and
what a part reads as after its update. -/

namespace Sys2Proof.Machine

/-! ### State.modPart -/

section
variable (s : State) (p : Nat) (f : Part → Part)
@[simp] theorem State.modPart_pending : (s.modPart p f).pending = s.pending := rfl
@[simp] theorem State.modPart_life : (s.modPart p f).life = s.life := rfl
@[simp] theorem State.modPart_start : (s.modPart p f).start = s.start := rfl
@[simp] theorem State.modPart_fuses : (s.modPart p f).fuses = s.fuses := rfl
@[simp] theorem State.modPart_beat : (s.modPart p f).beat = s.beat := rfl
@[simp] theorem State.modPart_irq : (s.modPart p f).irq = s.irq := rfl
@[simp] theorem State.modPart_fns : (s.modPart p f).fns = s.fns := rfl
@[simp] theorem State.modPart_hiLatch : (s.modPart p f).hiLatch = s.hiLatch := rfl
@[simp] theorem State.modPart_ring : (s.modPart p f).ring = s.ring := rfl
@[simp] theorem State.modPart_parts : (s.modPart p f).parts = s.parts.modify p f := rfl
@[simp] theorem State.modPart_benches : (s.modPart p f).benches = s.benches := rfl
@[simp] theorem State.modPart_hbm : (s.modPart p f).hbm = s.hbm := rfl
@[simp] theorem State.modPart_bar2Wait : (s.modPart p f).bar2Wait = s.bar2Wait := rfl
@[simp] theorem State.modPart_doorbells : (s.modPart p f).doorbells = s.doorbells := rfl
@[simp] theorem State.modPart_ldg : (s.modPart p f).ldg = s.ldg := rfl
@[simp] theorem State.modPart_sessions : (s.modPart p f).sessions = s.sessions := rfl
@[simp] theorem State.modPart_ports : (s.modPart p f).ports = s.ports := rfl
@[simp] theorem State.modPart_glue : (s.modPart p f).glue = s.glue := rfl
@[simp] theorem State.modPart_gpio : (s.modPart p f).gpio = s.gpio := rfl
@[simp] theorem State.modPart_mgmt : (s.modPart p f).mgmt = s.mgmt := rfl
@[simp] theorem State.modPart_glb : (s.modPart p f).glb = s.glb := rfl
@[simp] theorem State.modPart_out : (s.modPart p f).out = s.out := rfl
@[simp] theorem State.modPart_raised : (s.modPart p f).raised = s.raised := rfl
@[simp] theorem State.modPart_invals : (s.modPart p f).invals = s.invals := rfl
@[simp] theorem State.modPart_freeCtr : (s.modPart p f).freeCtr = s.freeCtr := rfl
end

/-! ### State.modBench -/

section
variable (s : State) (b : Nat) (f : Bench → Bench)
@[simp] theorem State.modBench_pending : (s.modBench b f).pending = s.pending := rfl
@[simp] theorem State.modBench_life : (s.modBench b f).life = s.life := rfl
@[simp] theorem State.modBench_start : (s.modBench b f).start = s.start := rfl
@[simp] theorem State.modBench_fuses : (s.modBench b f).fuses = s.fuses := rfl
@[simp] theorem State.modBench_beat : (s.modBench b f).beat = s.beat := rfl
@[simp] theorem State.modBench_irq : (s.modBench b f).irq = s.irq := rfl
@[simp] theorem State.modBench_fns : (s.modBench b f).fns = s.fns := rfl
@[simp] theorem State.modBench_hiLatch : (s.modBench b f).hiLatch = s.hiLatch := rfl
@[simp] theorem State.modBench_ring : (s.modBench b f).ring = s.ring := rfl
@[simp] theorem State.modBench_parts : (s.modBench b f).parts = s.parts := rfl
@[simp] theorem State.modBench_benches : (s.modBench b f).benches = s.benches.modify b f := rfl
@[simp] theorem State.modBench_hbm : (s.modBench b f).hbm = s.hbm := rfl
@[simp] theorem State.modBench_bar2Wait : (s.modBench b f).bar2Wait = s.bar2Wait := rfl
@[simp] theorem State.modBench_doorbells : (s.modBench b f).doorbells = s.doorbells := rfl
@[simp] theorem State.modBench_ldg : (s.modBench b f).ldg = s.ldg := rfl
@[simp] theorem State.modBench_sessions : (s.modBench b f).sessions = s.sessions := rfl
@[simp] theorem State.modBench_ports : (s.modBench b f).ports = s.ports := rfl
@[simp] theorem State.modBench_glue : (s.modBench b f).glue = s.glue := rfl
@[simp] theorem State.modBench_gpio : (s.modBench b f).gpio = s.gpio := rfl
@[simp] theorem State.modBench_mgmt : (s.modBench b f).mgmt = s.mgmt := rfl
@[simp] theorem State.modBench_glb : (s.modBench b f).glb = s.glb := rfl
@[simp] theorem State.modBench_out : (s.modBench b f).out = s.out := rfl
@[simp] theorem State.modBench_raised : (s.modBench b f).raised = s.raised := rfl
@[simp] theorem State.modBench_invals : (s.modBench b f).invals = s.invals := rfl
@[simp] theorem State.modBench_freeCtr : (s.modBench b f).freeCtr = s.freeCtr := rfl
end

/-! ### State.modCore -/

section
variable (s : State) (b c : Nat) (f : Core → Core)
@[simp] theorem State.modCore_pending : (s.modCore b c f).pending = s.pending := rfl
@[simp] theorem State.modCore_life : (s.modCore b c f).life = s.life := rfl
@[simp] theorem State.modCore_start : (s.modCore b c f).start = s.start := rfl
@[simp] theorem State.modCore_fuses : (s.modCore b c f).fuses = s.fuses := rfl
@[simp] theorem State.modCore_beat : (s.modCore b c f).beat = s.beat := rfl
@[simp] theorem State.modCore_irq : (s.modCore b c f).irq = s.irq := rfl
@[simp] theorem State.modCore_fns : (s.modCore b c f).fns = s.fns := rfl
@[simp] theorem State.modCore_hiLatch : (s.modCore b c f).hiLatch = s.hiLatch := rfl
@[simp] theorem State.modCore_ring : (s.modCore b c f).ring = s.ring := rfl
@[simp] theorem State.modCore_parts : (s.modCore b c f).parts = s.parts := rfl
@[simp] theorem State.modCore_hbm : (s.modCore b c f).hbm = s.hbm := rfl
@[simp] theorem State.modCore_bar2Wait : (s.modCore b c f).bar2Wait = s.bar2Wait := rfl
@[simp] theorem State.modCore_doorbells : (s.modCore b c f).doorbells = s.doorbells := rfl
@[simp] theorem State.modCore_ldg : (s.modCore b c f).ldg = s.ldg := rfl
@[simp] theorem State.modCore_sessions : (s.modCore b c f).sessions = s.sessions := rfl
@[simp] theorem State.modCore_ports : (s.modCore b c f).ports = s.ports := rfl
@[simp] theorem State.modCore_glue : (s.modCore b c f).glue = s.glue := rfl
@[simp] theorem State.modCore_gpio : (s.modCore b c f).gpio = s.gpio := rfl
@[simp] theorem State.modCore_mgmt : (s.modCore b c f).mgmt = s.mgmt := rfl
@[simp] theorem State.modCore_glb : (s.modCore b c f).glb = s.glb := rfl
@[simp] theorem State.modCore_out : (s.modCore b c f).out = s.out := rfl
@[simp] theorem State.modCore_raised : (s.modCore b c f).raised = s.raised := rfl
@[simp] theorem State.modCore_invals : (s.modCore b c f).invals = s.invals := rfl
@[simp] theorem State.modCore_freeCtr : (s.modCore b c f).freeCtr = s.freeCtr := rfl
end

/-! ### State.modQueue -/

section
variable (s : State) (b c q : Nat) (f : Queue → Queue)
@[simp] theorem State.modQueue_pending : (s.modQueue b c q f).pending = s.pending := rfl
@[simp] theorem State.modQueue_life : (s.modQueue b c q f).life = s.life := rfl
@[simp] theorem State.modQueue_start : (s.modQueue b c q f).start = s.start := rfl
@[simp] theorem State.modQueue_fuses : (s.modQueue b c q f).fuses = s.fuses := rfl
@[simp] theorem State.modQueue_beat : (s.modQueue b c q f).beat = s.beat := rfl
@[simp] theorem State.modQueue_irq : (s.modQueue b c q f).irq = s.irq := rfl
@[simp] theorem State.modQueue_fns : (s.modQueue b c q f).fns = s.fns := rfl
@[simp] theorem State.modQueue_hiLatch : (s.modQueue b c q f).hiLatch = s.hiLatch := rfl
@[simp] theorem State.modQueue_ring : (s.modQueue b c q f).ring = s.ring := rfl
@[simp] theorem State.modQueue_parts : (s.modQueue b c q f).parts = s.parts := rfl
@[simp] theorem State.modQueue_hbm : (s.modQueue b c q f).hbm = s.hbm := rfl
@[simp] theorem State.modQueue_bar2Wait : (s.modQueue b c q f).bar2Wait = s.bar2Wait := rfl
@[simp] theorem State.modQueue_doorbells : (s.modQueue b c q f).doorbells = s.doorbells := rfl
@[simp] theorem State.modQueue_ldg : (s.modQueue b c q f).ldg = s.ldg := rfl
@[simp] theorem State.modQueue_sessions : (s.modQueue b c q f).sessions = s.sessions := rfl
@[simp] theorem State.modQueue_ports : (s.modQueue b c q f).ports = s.ports := rfl
@[simp] theorem State.modQueue_glue : (s.modQueue b c q f).glue = s.glue := rfl
@[simp] theorem State.modQueue_gpio : (s.modQueue b c q f).gpio = s.gpio := rfl
@[simp] theorem State.modQueue_mgmt : (s.modQueue b c q f).mgmt = s.mgmt := rfl
@[simp] theorem State.modQueue_glb : (s.modQueue b c q f).glb = s.glb := rfl
@[simp] theorem State.modQueue_out : (s.modQueue b c q f).out = s.out := rfl
@[simp] theorem State.modQueue_raised : (s.modQueue b c q f).raised = s.raised := rfl
@[simp] theorem State.modQueue_invals : (s.modQueue b c q f).invals = s.invals := rfl
@[simp] theorem State.modQueue_freeCtr : (s.modQueue b c q f).freeCtr = s.freeCtr := rfl
end

/-! ### State.modSlot -/

section
variable (s : State) (b c i : Nat) (f : Slot → Slot)
@[simp] theorem State.modSlot_pending : (s.modSlot b c i f).pending = s.pending := rfl
@[simp] theorem State.modSlot_life : (s.modSlot b c i f).life = s.life := rfl
@[simp] theorem State.modSlot_start : (s.modSlot b c i f).start = s.start := rfl
@[simp] theorem State.modSlot_fuses : (s.modSlot b c i f).fuses = s.fuses := rfl
@[simp] theorem State.modSlot_beat : (s.modSlot b c i f).beat = s.beat := rfl
@[simp] theorem State.modSlot_irq : (s.modSlot b c i f).irq = s.irq := rfl
@[simp] theorem State.modSlot_fns : (s.modSlot b c i f).fns = s.fns := rfl
@[simp] theorem State.modSlot_hiLatch : (s.modSlot b c i f).hiLatch = s.hiLatch := rfl
@[simp] theorem State.modSlot_ring : (s.modSlot b c i f).ring = s.ring := rfl
@[simp] theorem State.modSlot_parts : (s.modSlot b c i f).parts = s.parts := rfl
@[simp] theorem State.modSlot_hbm : (s.modSlot b c i f).hbm = s.hbm := rfl
@[simp] theorem State.modSlot_bar2Wait : (s.modSlot b c i f).bar2Wait = s.bar2Wait := rfl
@[simp] theorem State.modSlot_doorbells : (s.modSlot b c i f).doorbells = s.doorbells := rfl
@[simp] theorem State.modSlot_ldg : (s.modSlot b c i f).ldg = s.ldg := rfl
@[simp] theorem State.modSlot_sessions : (s.modSlot b c i f).sessions = s.sessions := rfl
@[simp] theorem State.modSlot_ports : (s.modSlot b c i f).ports = s.ports := rfl
@[simp] theorem State.modSlot_glue : (s.modSlot b c i f).glue = s.glue := rfl
@[simp] theorem State.modSlot_gpio : (s.modSlot b c i f).gpio = s.gpio := rfl
@[simp] theorem State.modSlot_mgmt : (s.modSlot b c i f).mgmt = s.mgmt := rfl
@[simp] theorem State.modSlot_glb : (s.modSlot b c i f).glb = s.glb := rfl
@[simp] theorem State.modSlot_out : (s.modSlot b c i f).out = s.out := rfl
@[simp] theorem State.modSlot_raised : (s.modSlot b c i f).raised = s.raised := rfl
@[simp] theorem State.modSlot_invals : (s.modSlot b c i f).invals = s.invals := rfl
@[simp] theorem State.modSlot_freeCtr : (s.modSlot b c i f).freeCtr = s.freeCtr := rfl
end

/-! ### State.modFn -/

section
variable (s : State) (i : Nat) (f : Aivia → Aivia)
@[simp] theorem State.modFn_pending : (s.modFn i f).pending = s.pending := rfl
@[simp] theorem State.modFn_life : (s.modFn i f).life = s.life := rfl
@[simp] theorem State.modFn_start : (s.modFn i f).start = s.start := rfl
@[simp] theorem State.modFn_fuses : (s.modFn i f).fuses = s.fuses := rfl
@[simp] theorem State.modFn_beat : (s.modFn i f).beat = s.beat := rfl
@[simp] theorem State.modFn_irq : (s.modFn i f).irq = s.irq := rfl
@[simp] theorem State.modFn_fns : (s.modFn i f).fns = s.fns.modify i f := rfl
@[simp] theorem State.modFn_hiLatch : (s.modFn i f).hiLatch = s.hiLatch := rfl
@[simp] theorem State.modFn_ring : (s.modFn i f).ring = s.ring := rfl
@[simp] theorem State.modFn_parts : (s.modFn i f).parts = s.parts := rfl
@[simp] theorem State.modFn_benches : (s.modFn i f).benches = s.benches := rfl
@[simp] theorem State.modFn_hbm : (s.modFn i f).hbm = s.hbm := rfl
@[simp] theorem State.modFn_bar2Wait : (s.modFn i f).bar2Wait = s.bar2Wait := rfl
@[simp] theorem State.modFn_doorbells : (s.modFn i f).doorbells = s.doorbells := rfl
@[simp] theorem State.modFn_ldg : (s.modFn i f).ldg = s.ldg := rfl
@[simp] theorem State.modFn_sessions : (s.modFn i f).sessions = s.sessions := rfl
@[simp] theorem State.modFn_ports : (s.modFn i f).ports = s.ports := rfl
@[simp] theorem State.modFn_glue : (s.modFn i f).glue = s.glue := rfl
@[simp] theorem State.modFn_gpio : (s.modFn i f).gpio = s.gpio := rfl
@[simp] theorem State.modFn_mgmt : (s.modFn i f).mgmt = s.mgmt := rfl
@[simp] theorem State.modFn_glb : (s.modFn i f).glb = s.glb := rfl
@[simp] theorem State.modFn_out : (s.modFn i f).out = s.out := rfl
@[simp] theorem State.modFn_raised : (s.modFn i f).raised = s.raised := rfl
@[simp] theorem State.modFn_invals : (s.modFn i f).invals = s.invals := rfl
@[simp] theorem State.modFn_freeCtr : (s.modFn i f).freeCtr = s.freeCtr := rfl
end

/-! ### State.modSession -/

section
variable (s : State) (i : Nat) (f : Session → Session)
@[simp] theorem State.modSession_pending : (s.modSession i f).pending = s.pending := rfl
@[simp] theorem State.modSession_life : (s.modSession i f).life = s.life := rfl
@[simp] theorem State.modSession_start : (s.modSession i f).start = s.start := rfl
@[simp] theorem State.modSession_fuses : (s.modSession i f).fuses = s.fuses := rfl
@[simp] theorem State.modSession_beat : (s.modSession i f).beat = s.beat := rfl
@[simp] theorem State.modSession_irq : (s.modSession i f).irq = s.irq := rfl
@[simp] theorem State.modSession_fns : (s.modSession i f).fns = s.fns := rfl
@[simp] theorem State.modSession_hiLatch : (s.modSession i f).hiLatch = s.hiLatch := rfl
@[simp] theorem State.modSession_ring : (s.modSession i f).ring = s.ring := rfl
@[simp] theorem State.modSession_parts : (s.modSession i f).parts = s.parts := rfl
@[simp] theorem State.modSession_benches : (s.modSession i f).benches = s.benches := rfl
@[simp] theorem State.modSession_hbm : (s.modSession i f).hbm = s.hbm := rfl
@[simp] theorem State.modSession_bar2Wait : (s.modSession i f).bar2Wait = s.bar2Wait := rfl
@[simp] theorem State.modSession_doorbells : (s.modSession i f).doorbells = s.doorbells := rfl
@[simp] theorem State.modSession_ldg : (s.modSession i f).ldg = s.ldg := rfl
@[simp] theorem State.modSession_sessions : (s.modSession i f).sessions = s.sessions.modify i f := rfl
@[simp] theorem State.modSession_ports : (s.modSession i f).ports = s.ports := rfl
@[simp] theorem State.modSession_glue : (s.modSession i f).glue = s.glue := rfl
@[simp] theorem State.modSession_gpio : (s.modSession i f).gpio = s.gpio := rfl
@[simp] theorem State.modSession_mgmt : (s.modSession i f).mgmt = s.mgmt := rfl
@[simp] theorem State.modSession_glb : (s.modSession i f).glb = s.glb := rfl
@[simp] theorem State.modSession_out : (s.modSession i f).out = s.out := rfl
@[simp] theorem State.modSession_raised : (s.modSession i f).raised = s.raised := rfl
@[simp] theorem State.modSession_invals : (s.modSession i f).invals = s.invals := rfl
@[simp] theorem State.modSession_freeCtr : (s.modSession i f).freeCtr = s.freeCtr := rfl
end

/-! ### State.modBeat -/

section
variable (s : State) (f : Beat → Beat)
@[simp] theorem State.modBeat_pending : (s.modBeat f).pending = s.pending := rfl
@[simp] theorem State.modBeat_life : (s.modBeat f).life = s.life := rfl
@[simp] theorem State.modBeat_start : (s.modBeat f).start = s.start := rfl
@[simp] theorem State.modBeat_fuses : (s.modBeat f).fuses = s.fuses := rfl
@[simp] theorem State.modBeat_beat : (s.modBeat f).beat = f s.beat := rfl
@[simp] theorem State.modBeat_irq : (s.modBeat f).irq = s.irq := rfl
@[simp] theorem State.modBeat_fns : (s.modBeat f).fns = s.fns := rfl
@[simp] theorem State.modBeat_hiLatch : (s.modBeat f).hiLatch = s.hiLatch := rfl
@[simp] theorem State.modBeat_ring : (s.modBeat f).ring = s.ring := rfl
@[simp] theorem State.modBeat_parts : (s.modBeat f).parts = s.parts := rfl
@[simp] theorem State.modBeat_benches : (s.modBeat f).benches = s.benches := rfl
@[simp] theorem State.modBeat_hbm : (s.modBeat f).hbm = s.hbm := rfl
@[simp] theorem State.modBeat_bar2Wait : (s.modBeat f).bar2Wait = s.bar2Wait := rfl
@[simp] theorem State.modBeat_doorbells : (s.modBeat f).doorbells = s.doorbells := rfl
@[simp] theorem State.modBeat_ldg : (s.modBeat f).ldg = s.ldg := rfl
@[simp] theorem State.modBeat_sessions : (s.modBeat f).sessions = s.sessions := rfl
@[simp] theorem State.modBeat_ports : (s.modBeat f).ports = s.ports := rfl
@[simp] theorem State.modBeat_glue : (s.modBeat f).glue = s.glue := rfl
@[simp] theorem State.modBeat_gpio : (s.modBeat f).gpio = s.gpio := rfl
@[simp] theorem State.modBeat_mgmt : (s.modBeat f).mgmt = s.mgmt := rfl
@[simp] theorem State.modBeat_glb : (s.modBeat f).glb = s.glb := rfl
@[simp] theorem State.modBeat_out : (s.modBeat f).out = s.out := rfl
@[simp] theorem State.modBeat_raised : (s.modBeat f).raised = s.raised := rfl
@[simp] theorem State.modBeat_invals : (s.modBeat f).invals = s.invals := rfl
@[simp] theorem State.modBeat_freeCtr : (s.modBeat f).freeCtr = s.freeCtr := rfl
end

/-! ### State.modIrq -/

section
variable (s : State) (f : Irq → Irq)
@[simp] theorem State.modIrq_pending : (s.modIrq f).pending = s.pending := rfl
@[simp] theorem State.modIrq_life : (s.modIrq f).life = s.life := rfl
@[simp] theorem State.modIrq_start : (s.modIrq f).start = s.start := rfl
@[simp] theorem State.modIrq_fuses : (s.modIrq f).fuses = s.fuses := rfl
@[simp] theorem State.modIrq_beat : (s.modIrq f).beat = s.beat := rfl
@[simp] theorem State.modIrq_irq : (s.modIrq f).irq = f s.irq := rfl
@[simp] theorem State.modIrq_fns : (s.modIrq f).fns = s.fns := rfl
@[simp] theorem State.modIrq_hiLatch : (s.modIrq f).hiLatch = s.hiLatch := rfl
@[simp] theorem State.modIrq_ring : (s.modIrq f).ring = s.ring := rfl
@[simp] theorem State.modIrq_parts : (s.modIrq f).parts = s.parts := rfl
@[simp] theorem State.modIrq_benches : (s.modIrq f).benches = s.benches := rfl
@[simp] theorem State.modIrq_hbm : (s.modIrq f).hbm = s.hbm := rfl
@[simp] theorem State.modIrq_bar2Wait : (s.modIrq f).bar2Wait = s.bar2Wait := rfl
@[simp] theorem State.modIrq_doorbells : (s.modIrq f).doorbells = s.doorbells := rfl
@[simp] theorem State.modIrq_ldg : (s.modIrq f).ldg = s.ldg := rfl
@[simp] theorem State.modIrq_sessions : (s.modIrq f).sessions = s.sessions := rfl
@[simp] theorem State.modIrq_ports : (s.modIrq f).ports = s.ports := rfl
@[simp] theorem State.modIrq_glue : (s.modIrq f).glue = s.glue := rfl
@[simp] theorem State.modIrq_gpio : (s.modIrq f).gpio = s.gpio := rfl
@[simp] theorem State.modIrq_mgmt : (s.modIrq f).mgmt = s.mgmt := rfl
@[simp] theorem State.modIrq_glb : (s.modIrq f).glb = s.glb := rfl
@[simp] theorem State.modIrq_out : (s.modIrq f).out = s.out := rfl
@[simp] theorem State.modIrq_raised : (s.modIrq f).raised = s.raised := rfl
@[simp] theorem State.modIrq_invals : (s.modIrq f).invals = s.invals := rfl
@[simp] theorem State.modIrq_freeCtr : (s.modIrq f).freeCtr = s.freeCtr := rfl
end

/-! ### State.modRing -/

section
variable (s : State) (f : Ring → Ring)
@[simp] theorem State.modRing_pending : (s.modRing f).pending = s.pending := rfl
@[simp] theorem State.modRing_life : (s.modRing f).life = s.life := rfl
@[simp] theorem State.modRing_start : (s.modRing f).start = s.start := rfl
@[simp] theorem State.modRing_fuses : (s.modRing f).fuses = s.fuses := rfl
@[simp] theorem State.modRing_beat : (s.modRing f).beat = s.beat := rfl
@[simp] theorem State.modRing_irq : (s.modRing f).irq = s.irq := rfl
@[simp] theorem State.modRing_fns : (s.modRing f).fns = s.fns := rfl
@[simp] theorem State.modRing_hiLatch : (s.modRing f).hiLatch = s.hiLatch := rfl
@[simp] theorem State.modRing_ring : (s.modRing f).ring = f s.ring := rfl
@[simp] theorem State.modRing_parts : (s.modRing f).parts = s.parts := rfl
@[simp] theorem State.modRing_benches : (s.modRing f).benches = s.benches := rfl
@[simp] theorem State.modRing_hbm : (s.modRing f).hbm = s.hbm := rfl
@[simp] theorem State.modRing_bar2Wait : (s.modRing f).bar2Wait = s.bar2Wait := rfl
@[simp] theorem State.modRing_doorbells : (s.modRing f).doorbells = s.doorbells := rfl
@[simp] theorem State.modRing_ldg : (s.modRing f).ldg = s.ldg := rfl
@[simp] theorem State.modRing_sessions : (s.modRing f).sessions = s.sessions := rfl
@[simp] theorem State.modRing_ports : (s.modRing f).ports = s.ports := rfl
@[simp] theorem State.modRing_glue : (s.modRing f).glue = s.glue := rfl
@[simp] theorem State.modRing_gpio : (s.modRing f).gpio = s.gpio := rfl
@[simp] theorem State.modRing_mgmt : (s.modRing f).mgmt = s.mgmt := rfl
@[simp] theorem State.modRing_glb : (s.modRing f).glb = s.glb := rfl
@[simp] theorem State.modRing_out : (s.modRing f).out = s.out := rfl
@[simp] theorem State.modRing_raised : (s.modRing f).raised = s.raised := rfl
@[simp] theorem State.modRing_invals : (s.modRing f).invals = s.invals := rfl
@[simp] theorem State.modRing_freeCtr : (s.modRing f).freeCtr = s.freeCtr := rfl
end

/-! ### State.modLdg -/

section
variable (s : State) (f : Ledger → Ledger)
@[simp] theorem State.modLdg_pending : (s.modLdg f).pending = s.pending := rfl
@[simp] theorem State.modLdg_life : (s.modLdg f).life = s.life := rfl
@[simp] theorem State.modLdg_start : (s.modLdg f).start = s.start := rfl
@[simp] theorem State.modLdg_fuses : (s.modLdg f).fuses = s.fuses := rfl
@[simp] theorem State.modLdg_beat : (s.modLdg f).beat = s.beat := rfl
@[simp] theorem State.modLdg_irq : (s.modLdg f).irq = s.irq := rfl
@[simp] theorem State.modLdg_fns : (s.modLdg f).fns = s.fns := rfl
@[simp] theorem State.modLdg_hiLatch : (s.modLdg f).hiLatch = s.hiLatch := rfl
@[simp] theorem State.modLdg_ring : (s.modLdg f).ring = s.ring := rfl
@[simp] theorem State.modLdg_parts : (s.modLdg f).parts = s.parts := rfl
@[simp] theorem State.modLdg_benches : (s.modLdg f).benches = s.benches := rfl
@[simp] theorem State.modLdg_hbm : (s.modLdg f).hbm = s.hbm := rfl
@[simp] theorem State.modLdg_bar2Wait : (s.modLdg f).bar2Wait = s.bar2Wait := rfl
@[simp] theorem State.modLdg_doorbells : (s.modLdg f).doorbells = s.doorbells := rfl
@[simp] theorem State.modLdg_ldg : (s.modLdg f).ldg = f s.ldg := rfl
@[simp] theorem State.modLdg_sessions : (s.modLdg f).sessions = s.sessions := rfl
@[simp] theorem State.modLdg_ports : (s.modLdg f).ports = s.ports := rfl
@[simp] theorem State.modLdg_glue : (s.modLdg f).glue = s.glue := rfl
@[simp] theorem State.modLdg_gpio : (s.modLdg f).gpio = s.gpio := rfl
@[simp] theorem State.modLdg_mgmt : (s.modLdg f).mgmt = s.mgmt := rfl
@[simp] theorem State.modLdg_glb : (s.modLdg f).glb = s.glb := rfl
@[simp] theorem State.modLdg_out : (s.modLdg f).out = s.out := rfl
@[simp] theorem State.modLdg_raised : (s.modLdg f).raised = s.raised := rfl
@[simp] theorem State.modLdg_invals : (s.modLdg f).invals = s.invals := rfl
@[simp] theorem State.modLdg_freeCtr : (s.modLdg f).freeCtr = s.freeCtr := rfl
end

/-! ### State.modGlue -/

section
variable (s : State) (f : Glue → Glue)
@[simp] theorem State.modGlue_pending : (s.modGlue f).pending = s.pending := rfl
@[simp] theorem State.modGlue_life : (s.modGlue f).life = s.life := rfl
@[simp] theorem State.modGlue_start : (s.modGlue f).start = s.start := rfl
@[simp] theorem State.modGlue_fuses : (s.modGlue f).fuses = s.fuses := rfl
@[simp] theorem State.modGlue_beat : (s.modGlue f).beat = s.beat := rfl
@[simp] theorem State.modGlue_irq : (s.modGlue f).irq = s.irq := rfl
@[simp] theorem State.modGlue_fns : (s.modGlue f).fns = s.fns := rfl
@[simp] theorem State.modGlue_hiLatch : (s.modGlue f).hiLatch = s.hiLatch := rfl
@[simp] theorem State.modGlue_ring : (s.modGlue f).ring = s.ring := rfl
@[simp] theorem State.modGlue_parts : (s.modGlue f).parts = s.parts := rfl
@[simp] theorem State.modGlue_benches : (s.modGlue f).benches = s.benches := rfl
@[simp] theorem State.modGlue_hbm : (s.modGlue f).hbm = s.hbm := rfl
@[simp] theorem State.modGlue_bar2Wait : (s.modGlue f).bar2Wait = s.bar2Wait := rfl
@[simp] theorem State.modGlue_doorbells : (s.modGlue f).doorbells = s.doorbells := rfl
@[simp] theorem State.modGlue_ldg : (s.modGlue f).ldg = s.ldg := rfl
@[simp] theorem State.modGlue_sessions : (s.modGlue f).sessions = s.sessions := rfl
@[simp] theorem State.modGlue_ports : (s.modGlue f).ports = s.ports := rfl
@[simp] theorem State.modGlue_glue : (s.modGlue f).glue = f s.glue := rfl
@[simp] theorem State.modGlue_gpio : (s.modGlue f).gpio = s.gpio := rfl
@[simp] theorem State.modGlue_mgmt : (s.modGlue f).mgmt = s.mgmt := rfl
@[simp] theorem State.modGlue_glb : (s.modGlue f).glb = s.glb := rfl
@[simp] theorem State.modGlue_out : (s.modGlue f).out = s.out := rfl
@[simp] theorem State.modGlue_raised : (s.modGlue f).raised = s.raised := rfl
@[simp] theorem State.modGlue_invals : (s.modGlue f).invals = s.invals := rfl
@[simp] theorem State.modGlue_freeCtr : (s.modGlue f).freeCtr = s.freeCtr := rfl
end

/-! ### State.modGpio -/

section
variable (s : State) (f : Gpio → Gpio)
@[simp] theorem State.modGpio_pending : (s.modGpio f).pending = s.pending := rfl
@[simp] theorem State.modGpio_life : (s.modGpio f).life = s.life := rfl
@[simp] theorem State.modGpio_start : (s.modGpio f).start = s.start := rfl
@[simp] theorem State.modGpio_fuses : (s.modGpio f).fuses = s.fuses := rfl
@[simp] theorem State.modGpio_beat : (s.modGpio f).beat = s.beat := rfl
@[simp] theorem State.modGpio_irq : (s.modGpio f).irq = s.irq := rfl
@[simp] theorem State.modGpio_fns : (s.modGpio f).fns = s.fns := rfl
@[simp] theorem State.modGpio_hiLatch : (s.modGpio f).hiLatch = s.hiLatch := rfl
@[simp] theorem State.modGpio_ring : (s.modGpio f).ring = s.ring := rfl
@[simp] theorem State.modGpio_parts : (s.modGpio f).parts = s.parts := rfl
@[simp] theorem State.modGpio_benches : (s.modGpio f).benches = s.benches := rfl
@[simp] theorem State.modGpio_hbm : (s.modGpio f).hbm = s.hbm := rfl
@[simp] theorem State.modGpio_bar2Wait : (s.modGpio f).bar2Wait = s.bar2Wait := rfl
@[simp] theorem State.modGpio_doorbells : (s.modGpio f).doorbells = s.doorbells := rfl
@[simp] theorem State.modGpio_ldg : (s.modGpio f).ldg = s.ldg := rfl
@[simp] theorem State.modGpio_sessions : (s.modGpio f).sessions = s.sessions := rfl
@[simp] theorem State.modGpio_ports : (s.modGpio f).ports = s.ports := rfl
@[simp] theorem State.modGpio_glue : (s.modGpio f).glue = s.glue := rfl
@[simp] theorem State.modGpio_gpio : (s.modGpio f).gpio = f s.gpio := rfl
@[simp] theorem State.modGpio_mgmt : (s.modGpio f).mgmt = s.mgmt := rfl
@[simp] theorem State.modGpio_glb : (s.modGpio f).glb = s.glb := rfl
@[simp] theorem State.modGpio_out : (s.modGpio f).out = s.out := rfl
@[simp] theorem State.modGpio_raised : (s.modGpio f).raised = s.raised := rfl
@[simp] theorem State.modGpio_invals : (s.modGpio f).invals = s.invals := rfl
@[simp] theorem State.modGpio_freeCtr : (s.modGpio f).freeCtr = s.freeCtr := rfl
end

/-! ### State.modMgmt -/

section
variable (s : State) (f : Mgmt → Mgmt)
@[simp] theorem State.modMgmt_pending : (s.modMgmt f).pending = s.pending := rfl
@[simp] theorem State.modMgmt_life : (s.modMgmt f).life = s.life := rfl
@[simp] theorem State.modMgmt_start : (s.modMgmt f).start = s.start := rfl
@[simp] theorem State.modMgmt_fuses : (s.modMgmt f).fuses = s.fuses := rfl
@[simp] theorem State.modMgmt_beat : (s.modMgmt f).beat = s.beat := rfl
@[simp] theorem State.modMgmt_irq : (s.modMgmt f).irq = s.irq := rfl
@[simp] theorem State.modMgmt_fns : (s.modMgmt f).fns = s.fns := rfl
@[simp] theorem State.modMgmt_hiLatch : (s.modMgmt f).hiLatch = s.hiLatch := rfl
@[simp] theorem State.modMgmt_ring : (s.modMgmt f).ring = s.ring := rfl
@[simp] theorem State.modMgmt_parts : (s.modMgmt f).parts = s.parts := rfl
@[simp] theorem State.modMgmt_benches : (s.modMgmt f).benches = s.benches := rfl
@[simp] theorem State.modMgmt_hbm : (s.modMgmt f).hbm = s.hbm := rfl
@[simp] theorem State.modMgmt_bar2Wait : (s.modMgmt f).bar2Wait = s.bar2Wait := rfl
@[simp] theorem State.modMgmt_doorbells : (s.modMgmt f).doorbells = s.doorbells := rfl
@[simp] theorem State.modMgmt_ldg : (s.modMgmt f).ldg = s.ldg := rfl
@[simp] theorem State.modMgmt_sessions : (s.modMgmt f).sessions = s.sessions := rfl
@[simp] theorem State.modMgmt_ports : (s.modMgmt f).ports = s.ports := rfl
@[simp] theorem State.modMgmt_glue : (s.modMgmt f).glue = s.glue := rfl
@[simp] theorem State.modMgmt_gpio : (s.modMgmt f).gpio = s.gpio := rfl
@[simp] theorem State.modMgmt_mgmt : (s.modMgmt f).mgmt = f s.mgmt := rfl
@[simp] theorem State.modMgmt_glb : (s.modMgmt f).glb = s.glb := rfl
@[simp] theorem State.modMgmt_out : (s.modMgmt f).out = s.out := rfl
@[simp] theorem State.modMgmt_raised : (s.modMgmt f).raised = s.raised := rfl
@[simp] theorem State.modMgmt_invals : (s.modMgmt f).invals = s.invals := rfl
@[simp] theorem State.modMgmt_freeCtr : (s.modMgmt f).freeCtr = s.freeCtr := rfl
end

/-! ### State.modGlb -/

section
variable (s : State) (f : Glb → Glb)
@[simp] theorem State.modGlb_pending : (s.modGlb f).pending = s.pending := rfl
@[simp] theorem State.modGlb_life : (s.modGlb f).life = s.life := rfl
@[simp] theorem State.modGlb_start : (s.modGlb f).start = s.start := rfl
@[simp] theorem State.modGlb_fuses : (s.modGlb f).fuses = s.fuses := rfl
@[simp] theorem State.modGlb_beat : (s.modGlb f).beat = s.beat := rfl
@[simp] theorem State.modGlb_irq : (s.modGlb f).irq = s.irq := rfl
@[simp] theorem State.modGlb_fns : (s.modGlb f).fns = s.fns := rfl
@[simp] theorem State.modGlb_hiLatch : (s.modGlb f).hiLatch = s.hiLatch := rfl
@[simp] theorem State.modGlb_ring : (s.modGlb f).ring = s.ring := rfl
@[simp] theorem State.modGlb_parts : (s.modGlb f).parts = s.parts := rfl
@[simp] theorem State.modGlb_benches : (s.modGlb f).benches = s.benches := rfl
@[simp] theorem State.modGlb_hbm : (s.modGlb f).hbm = s.hbm := rfl
@[simp] theorem State.modGlb_bar2Wait : (s.modGlb f).bar2Wait = s.bar2Wait := rfl
@[simp] theorem State.modGlb_doorbells : (s.modGlb f).doorbells = s.doorbells := rfl
@[simp] theorem State.modGlb_ldg : (s.modGlb f).ldg = s.ldg := rfl
@[simp] theorem State.modGlb_sessions : (s.modGlb f).sessions = s.sessions := rfl
@[simp] theorem State.modGlb_ports : (s.modGlb f).ports = s.ports := rfl
@[simp] theorem State.modGlb_glue : (s.modGlb f).glue = s.glue := rfl
@[simp] theorem State.modGlb_gpio : (s.modGlb f).gpio = s.gpio := rfl
@[simp] theorem State.modGlb_mgmt : (s.modGlb f).mgmt = s.mgmt := rfl
@[simp] theorem State.modGlb_glb : (s.modGlb f).glb = f s.glb := rfl
@[simp] theorem State.modGlb_out : (s.modGlb f).out = s.out := rfl
@[simp] theorem State.modGlb_raised : (s.modGlb f).raised = s.raised := rfl
@[simp] theorem State.modGlb_invals : (s.modGlb f).invals = s.invals := rfl
@[simp] theorem State.modGlb_freeCtr : (s.modGlb f).freeCtr = s.freeCtr := rfl
end

/-! ### State.emit -/

section
variable (s : State) (o : Output)
@[simp] theorem State.emit_pending : (s.emit o).pending = s.pending := rfl
@[simp] theorem State.emit_life : (s.emit o).life = s.life := rfl
@[simp] theorem State.emit_start : (s.emit o).start = s.start := rfl
@[simp] theorem State.emit_fuses : (s.emit o).fuses = s.fuses := rfl
@[simp] theorem State.emit_beat : (s.emit o).beat = s.beat := rfl
@[simp] theorem State.emit_irq : (s.emit o).irq = s.irq := rfl
@[simp] theorem State.emit_fns : (s.emit o).fns = s.fns := rfl
@[simp] theorem State.emit_hiLatch : (s.emit o).hiLatch = s.hiLatch := rfl
@[simp] theorem State.emit_ring : (s.emit o).ring = s.ring := rfl
@[simp] theorem State.emit_parts : (s.emit o).parts = s.parts := rfl
@[simp] theorem State.emit_benches : (s.emit o).benches = s.benches := rfl
@[simp] theorem State.emit_hbm : (s.emit o).hbm = s.hbm := rfl
@[simp] theorem State.emit_bar2Wait : (s.emit o).bar2Wait = s.bar2Wait := rfl
@[simp] theorem State.emit_doorbells : (s.emit o).doorbells = s.doorbells := rfl
@[simp] theorem State.emit_ldg : (s.emit o).ldg = s.ldg := rfl
@[simp] theorem State.emit_sessions : (s.emit o).sessions = s.sessions := rfl
@[simp] theorem State.emit_ports : (s.emit o).ports = s.ports := rfl
@[simp] theorem State.emit_glue : (s.emit o).glue = s.glue := rfl
@[simp] theorem State.emit_gpio : (s.emit o).gpio = s.gpio := rfl
@[simp] theorem State.emit_mgmt : (s.emit o).mgmt = s.mgmt := rfl
@[simp] theorem State.emit_glb : (s.emit o).glb = s.glb := rfl
@[simp] theorem State.emit_out : (s.emit o).out = o :: s.out := rfl
@[simp] theorem State.emit_raised : (s.emit o).raised = s.raised := rfl
@[simp] theorem State.emit_invals : (s.emit o).invals = s.invals := rfl
@[simp] theorem State.emit_freeCtr : (s.emit o).freeCtr = s.freeCtr := rfl
end

/-! ### State.raise -/

section
variable (s : State) (key n : Nat)
@[simp] theorem State.raise_pending : (s.raise key n).pending = s.pending := by unfold State.raise; split <;> rfl
@[simp] theorem State.raise_life : (s.raise key n).life = s.life := by unfold State.raise; split <;> rfl
@[simp] theorem State.raise_start : (s.raise key n).start = s.start := by unfold State.raise; split <;> rfl
@[simp] theorem State.raise_fuses : (s.raise key n).fuses = s.fuses := by unfold State.raise; split <;> rfl
@[simp] theorem State.raise_beat : (s.raise key n).beat = s.beat := by unfold State.raise; split <;> rfl
@[simp] theorem State.raise_irq : (s.raise key n).irq = s.irq := by unfold State.raise; split <;> rfl
@[simp] theorem State.raise_fns : (s.raise key n).fns = s.fns := by unfold State.raise; split <;> rfl
@[simp] theorem State.raise_hiLatch : (s.raise key n).hiLatch = s.hiLatch := by unfold State.raise; split <;> rfl
@[simp] theorem State.raise_ring : (s.raise key n).ring = s.ring := by unfold State.raise; split <;> rfl
@[simp] theorem State.raise_parts : (s.raise key n).parts = s.parts := by unfold State.raise; split <;> rfl
@[simp] theorem State.raise_benches : (s.raise key n).benches = s.benches := by unfold State.raise; split <;> rfl
@[simp] theorem State.raise_hbm : (s.raise key n).hbm = s.hbm := by unfold State.raise; split <;> rfl
@[simp] theorem State.raise_bar2Wait : (s.raise key n).bar2Wait = s.bar2Wait := by unfold State.raise; split <;> rfl
@[simp] theorem State.raise_doorbells : (s.raise key n).doorbells = s.doorbells := by unfold State.raise; split <;> rfl
@[simp] theorem State.raise_ldg : (s.raise key n).ldg = s.ldg := by unfold State.raise; split <;> rfl
@[simp] theorem State.raise_sessions : (s.raise key n).sessions = s.sessions := by unfold State.raise; split <;> rfl
@[simp] theorem State.raise_ports : (s.raise key n).ports = s.ports := by unfold State.raise; split <;> rfl
@[simp] theorem State.raise_glue : (s.raise key n).glue = s.glue := by unfold State.raise; split <;> rfl
@[simp] theorem State.raise_gpio : (s.raise key n).gpio = s.gpio := by unfold State.raise; split <;> rfl
@[simp] theorem State.raise_mgmt : (s.raise key n).mgmt = s.mgmt := by unfold State.raise; split <;> rfl
@[simp] theorem State.raise_glb : (s.raise key n).glb = s.glb := by unfold State.raise; split <;> rfl
@[simp] theorem State.raise_out : (s.raise key n).out = s.out := by unfold State.raise; split <;> rfl
@[simp] theorem State.raise_invals : (s.raise key n).invals = s.invals := by unfold State.raise; split <;> rfl
@[simp] theorem State.raise_freeCtr : (s.raise key n).freeCtr = s.freeCtr := by unfold State.raise; split <;> rfl
end

/-! ### Bench.modCore -/

section
variable (x : Bench) (c : Nat) (f : Core → Core)
@[simp] theorem Bench.modCore_cores : (x.modCore c f).cores = x.cores.modify c f := rfl
@[simp] theorem Bench.modCore_rack : (x.modCore c f).rack = x.rack := rfl
@[simp] theorem Bench.modCore_act : (x.modCore c f).act = x.act := rfl
@[simp] theorem Bench.modCore_spd : (x.modCore c f).spd = x.spd := rfl
@[simp] theorem Bench.modCore_reqs : (x.modCore c f).reqs = x.reqs := rfl
@[simp] theorem Bench.modCore_jobs : (x.modCore c f).jobs = x.jobs := rfl
@[simp] theorem Bench.modCore_nextJob : (x.modCore c f).nextJob = x.nextJob := rfl
@[simp] theorem Bench.modCore_upsets : (x.modCore c f).upsets = x.upsets := rfl
@[simp] theorem Bench.modCore_toWriteBack : (x.modCore c f).toWriteBack = x.toWriteBack := rfl
@[simp] theorem Bench.modCore_port : (x.modCore c f).port = x.port := rfl
@[simp] theorem Bench.modCore_state : (x.modCore c f).state = x.state := rfl
@[simp] theorem Bench.modCore_test : (x.modCore c f).test = x.test := rfl
@[simp] theorem Bench.modCore_testPass : (x.modCore c f).testPass = x.testPass := rfl
@[simp] theorem Bench.modCore_testDeferred : (x.modCore c f).testDeferred = x.testDeferred := rfl
@[simp] theorem Bench.modCore_powerReq : (x.modCore c f).powerReq = x.powerReq := rfl
@[simp] theorem Bench.modCore_power : (x.modCore c f).power = x.power := rfl
@[simp] theorem Bench.modCore_powerMove : (x.modCore c f).powerMove = x.powerMove := rfl
@[simp] theorem Bench.modCore_resetUntil : (x.modCore c f).resetUntil = x.resetUntil := rfl
@[simp] theorem Bench.modCore_reloadUntil : (x.modCore c f).reloadUntil = x.reloadUntil := rfl
@[simp] theorem Bench.modCore_supplyBad : (x.modCore c f).supplyBad = x.supplyBad := rfl
@[simp] theorem Bench.modCore_disagree : (x.modCore c f).disagree = x.disagree := rfl
@[simp] theorem Bench.modCore_temp : (x.modCore c f).temp = x.temp := rfl
end

/-! ### Core.modQueue -/

section
variable (x : Core) (q : Nat) (f : Queue → Queue)
@[simp] theorem Core.modQueue_queues : (x.modQueue q f).queues = x.queues.modify q f := rfl
@[simp] theorem Core.modQueue_ctxState : (x.modQueue q f).ctxState = x.ctxState := rfl
@[simp] theorem Core.modQueue_steals : (x.modQueue q f).steals = x.steals := rfl
@[simp] theorem Core.modQueue_sat : (x.modQueue q f).sat = x.sat := rfl
@[simp] theorem Core.modQueue_satShadow : (x.modQueue q f).satShadow = x.satShadow := rfl
@[simp] theorem Core.modQueue_satAdded : (x.modQueue q f).satAdded = x.satAdded := rfl
@[simp] theorem Core.modQueue_returns : (x.modQueue q f).returns = x.returns := rfl
@[simp] theorem Core.modQueue_arithFault : (x.modQueue q f).arithFault = x.arithFault := rfl
@[simp] theorem Core.modQueue_tables : (x.modQueue q f).tables = x.tables := rfl
@[simp] theorem Core.modQueue_mx : (x.modQueue q f).mx = x.mx := rfl
@[simp] theorem Core.modQueue_dma : (x.modQueue q f).dma = x.dma := rfl
@[simp] theorem Core.modQueue_plb : (x.modQueue q f).plb = x.plb := rfl
@[simp] theorem Core.modQueue_tallies : (x.modQueue q f).tallies = x.tallies := rfl
@[simp] theorem Core.modQueue_tlyFault : (x.modQueue q f).tlyFault = x.tlyFault := rfl
@[simp] theorem Core.modQueue_signals : (x.modQueue q f).signals = x.signals := rfl
@[simp] theorem Core.modQueue_taken : (x.modQueue q f).taken = x.taken := rfl
@[simp] theorem Core.modQueue_takenAt : (x.modQueue q f).takenAt = x.takenAt := rfl
@[simp] theorem Core.modQueue_credits : (x.modQueue q f).credits = x.credits := rfl
@[simp] theorem Core.modQueue_creditStart : (x.modQueue q f).creditStart = x.creditStart := rfl
@[simp] theorem Core.modQueue_tokens : (x.modQueue q f).tokens = x.tokens := rfl
@[simp] theorem Core.modQueue_wrr : (x.modQueue q f).wrr = x.wrr := rfl
@[simp] theorem Core.modQueue_lastIssue : (x.modQueue q f).lastIssue = x.lastIssue := rfl
@[simp] theorem Core.modQueue_busyUntil : (x.modQueue q f).busyUntil = x.busyUntil := rfl
@[simp] theorem Core.modQueue_idleSince : (x.modQueue q f).idleSince = x.idleSince := rfl
end

/-! ### Core.modDma -/

section
variable (x : Core) (f : Dma → Dma)
@[simp] theorem Core.modDma_queues : (x.modDma f).queues = x.queues := rfl
@[simp] theorem Core.modDma_ctxState : (x.modDma f).ctxState = x.ctxState := rfl
@[simp] theorem Core.modDma_steals : (x.modDma f).steals = x.steals := rfl
@[simp] theorem Core.modDma_sat : (x.modDma f).sat = x.sat := rfl
@[simp] theorem Core.modDma_satShadow : (x.modDma f).satShadow = x.satShadow := rfl
@[simp] theorem Core.modDma_satAdded : (x.modDma f).satAdded = x.satAdded := rfl
@[simp] theorem Core.modDma_returns : (x.modDma f).returns = x.returns := rfl
@[simp] theorem Core.modDma_arithFault : (x.modDma f).arithFault = x.arithFault := rfl
@[simp] theorem Core.modDma_tables : (x.modDma f).tables = x.tables := rfl
@[simp] theorem Core.modDma_mx : (x.modDma f).mx = x.mx := rfl
@[simp] theorem Core.modDma_dma : (x.modDma f).dma = f x.dma := rfl
@[simp] theorem Core.modDma_plb : (x.modDma f).plb = x.plb := rfl
@[simp] theorem Core.modDma_tallies : (x.modDma f).tallies = x.tallies := rfl
@[simp] theorem Core.modDma_tlyFault : (x.modDma f).tlyFault = x.tlyFault := rfl
@[simp] theorem Core.modDma_signals : (x.modDma f).signals = x.signals := rfl
@[simp] theorem Core.modDma_taken : (x.modDma f).taken = x.taken := rfl
@[simp] theorem Core.modDma_takenAt : (x.modDma f).takenAt = x.takenAt := rfl
@[simp] theorem Core.modDma_credits : (x.modDma f).credits = x.credits := rfl
@[simp] theorem Core.modDma_creditStart : (x.modDma f).creditStart = x.creditStart := rfl
@[simp] theorem Core.modDma_tokens : (x.modDma f).tokens = x.tokens := rfl
@[simp] theorem Core.modDma_wrr : (x.modDma f).wrr = x.wrr := rfl
@[simp] theorem Core.modDma_lastIssue : (x.modDma f).lastIssue = x.lastIssue := rfl
@[simp] theorem Core.modDma_busyUntil : (x.modDma f).busyUntil = x.busyUntil := rfl
@[simp] theorem Core.modDma_idleSince : (x.modDma f).idleSince = x.idleSince := rfl
end

/-! ### Core.modMx -/

section
variable (x : Core) (f : Mx → Mx)
@[simp] theorem Core.modMx_queues : (x.modMx f).queues = x.queues := rfl
@[simp] theorem Core.modMx_ctxState : (x.modMx f).ctxState = x.ctxState := rfl
@[simp] theorem Core.modMx_steals : (x.modMx f).steals = x.steals := rfl
@[simp] theorem Core.modMx_sat : (x.modMx f).sat = x.sat := rfl
@[simp] theorem Core.modMx_satShadow : (x.modMx f).satShadow = x.satShadow := rfl
@[simp] theorem Core.modMx_satAdded : (x.modMx f).satAdded = x.satAdded := rfl
@[simp] theorem Core.modMx_returns : (x.modMx f).returns = x.returns := rfl
@[simp] theorem Core.modMx_arithFault : (x.modMx f).arithFault = x.arithFault := rfl
@[simp] theorem Core.modMx_tables : (x.modMx f).tables = x.tables := rfl
@[simp] theorem Core.modMx_mx : (x.modMx f).mx = f x.mx := rfl
@[simp] theorem Core.modMx_dma : (x.modMx f).dma = x.dma := rfl
@[simp] theorem Core.modMx_plb : (x.modMx f).plb = x.plb := rfl
@[simp] theorem Core.modMx_tallies : (x.modMx f).tallies = x.tallies := rfl
@[simp] theorem Core.modMx_tlyFault : (x.modMx f).tlyFault = x.tlyFault := rfl
@[simp] theorem Core.modMx_signals : (x.modMx f).signals = x.signals := rfl
@[simp] theorem Core.modMx_taken : (x.modMx f).taken = x.taken := rfl
@[simp] theorem Core.modMx_takenAt : (x.modMx f).takenAt = x.takenAt := rfl
@[simp] theorem Core.modMx_credits : (x.modMx f).credits = x.credits := rfl
@[simp] theorem Core.modMx_creditStart : (x.modMx f).creditStart = x.creditStart := rfl
@[simp] theorem Core.modMx_tokens : (x.modMx f).tokens = x.tokens := rfl
@[simp] theorem Core.modMx_wrr : (x.modMx f).wrr = x.wrr := rfl
@[simp] theorem Core.modMx_lastIssue : (x.modMx f).lastIssue = x.lastIssue := rfl
@[simp] theorem Core.modMx_busyUntil : (x.modMx f).busyUntil = x.busyUntil := rfl
@[simp] theorem Core.modMx_idleSince : (x.modMx f).idleSince = x.idleSince := rfl
end

/-! ### Core.modSlot -/

section
variable (x : Core) (i : Nat) (f : Slot → Slot)
@[simp] theorem Core.modSlot_queues : (x.modSlot i f).queues = x.queues := rfl
@[simp] theorem Core.modSlot_ctxState : (x.modSlot i f).ctxState = x.ctxState := rfl
@[simp] theorem Core.modSlot_steals : (x.modSlot i f).steals = x.steals := rfl
@[simp] theorem Core.modSlot_sat : (x.modSlot i f).sat = x.sat := rfl
@[simp] theorem Core.modSlot_satShadow : (x.modSlot i f).satShadow = x.satShadow := rfl
@[simp] theorem Core.modSlot_satAdded : (x.modSlot i f).satAdded = x.satAdded := rfl
@[simp] theorem Core.modSlot_returns : (x.modSlot i f).returns = x.returns := rfl
@[simp] theorem Core.modSlot_arithFault : (x.modSlot i f).arithFault = x.arithFault := rfl
@[simp] theorem Core.modSlot_tables : (x.modSlot i f).tables = x.tables := rfl
@[simp] theorem Core.modSlot_mx : (x.modSlot i f).mx = x.mx := rfl
@[simp] theorem Core.modSlot_plb : (x.modSlot i f).plb = x.plb := rfl
@[simp] theorem Core.modSlot_tallies : (x.modSlot i f).tallies = x.tallies := rfl
@[simp] theorem Core.modSlot_tlyFault : (x.modSlot i f).tlyFault = x.tlyFault := rfl
@[simp] theorem Core.modSlot_signals : (x.modSlot i f).signals = x.signals := rfl
@[simp] theorem Core.modSlot_taken : (x.modSlot i f).taken = x.taken := rfl
@[simp] theorem Core.modSlot_takenAt : (x.modSlot i f).takenAt = x.takenAt := rfl
@[simp] theorem Core.modSlot_credits : (x.modSlot i f).credits = x.credits := rfl
@[simp] theorem Core.modSlot_creditStart : (x.modSlot i f).creditStart = x.creditStart := rfl
@[simp] theorem Core.modSlot_tokens : (x.modSlot i f).tokens = x.tokens := rfl
@[simp] theorem Core.modSlot_wrr : (x.modSlot i f).wrr = x.wrr := rfl
@[simp] theorem Core.modSlot_lastIssue : (x.modSlot i f).lastIssue = x.lastIssue := rfl
@[simp] theorem Core.modSlot_busyUntil : (x.modSlot i f).busyUntil = x.busyUntil := rfl
@[simp] theorem Core.modSlot_idleSince : (x.modSlot i f).idleSince = x.idleSince := rfl
end

/-! ### Core.modArray -/

section
variable (x : Core) (a : Nat) (f : ArraySt → ArraySt)
@[simp] theorem Core.modArray_queues : (x.modArray a f).queues = x.queues := rfl
@[simp] theorem Core.modArray_ctxState : (x.modArray a f).ctxState = x.ctxState := rfl
@[simp] theorem Core.modArray_steals : (x.modArray a f).steals = x.steals := rfl
@[simp] theorem Core.modArray_sat : (x.modArray a f).sat = x.sat := rfl
@[simp] theorem Core.modArray_satShadow : (x.modArray a f).satShadow = x.satShadow := rfl
@[simp] theorem Core.modArray_satAdded : (x.modArray a f).satAdded = x.satAdded := rfl
@[simp] theorem Core.modArray_returns : (x.modArray a f).returns = x.returns := rfl
@[simp] theorem Core.modArray_arithFault : (x.modArray a f).arithFault = x.arithFault := rfl
@[simp] theorem Core.modArray_tables : (x.modArray a f).tables = x.tables := rfl
@[simp] theorem Core.modArray_dma : (x.modArray a f).dma = x.dma := rfl
@[simp] theorem Core.modArray_plb : (x.modArray a f).plb = x.plb := rfl
@[simp] theorem Core.modArray_tallies : (x.modArray a f).tallies = x.tallies := rfl
@[simp] theorem Core.modArray_tlyFault : (x.modArray a f).tlyFault = x.tlyFault := rfl
@[simp] theorem Core.modArray_signals : (x.modArray a f).signals = x.signals := rfl
@[simp] theorem Core.modArray_taken : (x.modArray a f).taken = x.taken := rfl
@[simp] theorem Core.modArray_takenAt : (x.modArray a f).takenAt = x.takenAt := rfl
@[simp] theorem Core.modArray_credits : (x.modArray a f).credits = x.credits := rfl
@[simp] theorem Core.modArray_creditStart : (x.modArray a f).creditStart = x.creditStart := rfl
@[simp] theorem Core.modArray_tokens : (x.modArray a f).tokens = x.tokens := rfl
@[simp] theorem Core.modArray_wrr : (x.modArray a f).wrr = x.wrr := rfl
@[simp] theorem Core.modArray_lastIssue : (x.modArray a f).lastIssue = x.lastIssue := rfl
@[simp] theorem Core.modArray_busyUntil : (x.modArray a f).busyUntil = x.busyUntil := rfl
@[simp] theorem Core.modArray_idleSince : (x.modArray a f).idleSince = x.idleSince := rfl
end

/-! ### What an updated part reads as -/

section
variable {α : Type} (xs : List α) (i j : Nat) (f : α → α) (d : α)

theorem getD_modify_same (h : i < xs.length) : (xs.modify i f).getD i d = f (xs.getD i d) := by
  simp [List.getD, h]

theorem getD_modify_ne (h : i ≠ j) : (xs.modify i f).getD j d = xs.getD j d := by
  simp [List.getD, h]
end

section
variable (s : State)
theorem State.part_modPart (p : Nat) (f : Part → Part) (h : p < s.parts.length) : (s.modPart p f).part p = f (s.part p) :=
  getD_modify_same _ _ _ _ h
theorem State.part_modPart_ne (p r : Nat) (f : Part → Part) (h : p ≠ r) : (s.modPart p f).part r = s.part r :=
  getD_modify_ne _ _ _ _ _ h
theorem State.bench_modBench (b : Nat) (f : Bench → Bench) (h : b < s.benches.length) : (s.modBench b f).bench b = f (s.bench b) :=
  getD_modify_same _ _ _ _ h
theorem State.bench_modBench_ne (b r : Nat) (f : Bench → Bench) (h : b ≠ r) : (s.modBench b f).bench r = s.bench r :=
  getD_modify_ne _ _ _ _ _ h
theorem State.fn_modFn (i : Nat) (f : Aivia → Aivia) (h : i < s.fns.length) : (s.modFn i f).fn i = f (s.fn i) :=
  getD_modify_same _ _ _ _ h
theorem State.fn_modFn_ne (i r : Nat) (f : Aivia → Aivia) (h : i ≠ r) : (s.modFn i f).fn r = s.fn r := getD_modify_ne _ _ _ _ _ h
theorem State.session_modSession (i : Nat) (f : Session → Session) (h : i < s.sessions.length) :
    (s.modSession i f).session i = f (s.session i) := getD_modify_same _ _ _ _ h
theorem State.session_modSession_ne (i r : Nat) (f : Session → Session) (h : i ≠ r) : (s.modSession i f).session r = s.session r :=
  getD_modify_ne _ _ _ _ _ h
theorem State.core_modCore (b c : Nat) (f : Core → Core) (h : b < s.benches.length) (hc : c < (s.bench b).cores.length) :
    (s.modCore b c f).core b c = f (s.core b c) := by
  rw [State.modCore, State.core, State.bench_modBench s b _ h]; exact getD_modify_same _ _ _ _ hc
theorem State.queue_modQueue (b c q : Nat) (f : Queue → Queue) (h : b < s.benches.length) (hc : c < (s.bench b).cores.length)
    (hq : q < (s.core b c).queues.length) : (s.modQueue b c q f).queue b c q = f (s.queue b c q) := by
  rw [State.modQueue, State.queue, State.core_modCore s b c _ h hc]; exact getD_modify_same _ _ _ _ hq
end

/-! ### The last act of every command -/

/-- Messages touch the record of outputs and the physical function's pending bit, and nothing else. -/
theorem pfMessage_cases (s : State) :
    s.pfMessage = s.emit (.msix 0) ∨ s.pfMessage = s.modIrq fun i => { i with msixPending := true } := by
  unfold State.pfMessage; split <;> simp

theorem settle_cases (a b : State) :
    ∃ os, settle a b = { b with out := os } ∨ settle a b = { b with out := os, irq := { b.irq with msixPending := true } } := by
  have hf : ∀ (fs : List Nat) (s : State), ∃ os, fs.foldl (fun s f => s.emit (.msix f)) s = { s with out := os } := by
    intro fs
    induction fs with
    | nil => intro s; exact ⟨s.out, rfl⟩
    | cons f fs ih => intro s; obtain ⟨os, h⟩ := ih (s.emit (.msix f)); exact ⟨os, h.trans rfl⟩
  obtain ⟨os, h⟩ := hf (vfRaised a b) b
  unfold settle
  simp only [h]
  split
  · unfold State.pfMessage
    split
    · exact ⟨_, .inl rfl⟩
    · exact ⟨_, .inr rfl⟩
  · exact ⟨_, .inl rfl⟩

section
variable (a b : State)
@[simp] theorem settle_pending : (settle a b).pending = b.pending := by obtain ⟨_, h | h⟩ := settle_cases a b <;> rw [h]
@[simp] theorem settle_life : (settle a b).life = b.life := by obtain ⟨_, h | h⟩ := settle_cases a b <;> rw [h]
@[simp] theorem settle_start : (settle a b).start = b.start := by obtain ⟨_, h | h⟩ := settle_cases a b <;> rw [h]
@[simp] theorem settle_fuses : (settle a b).fuses = b.fuses := by obtain ⟨_, h | h⟩ := settle_cases a b <;> rw [h]
@[simp] theorem settle_beat : (settle a b).beat = b.beat := by obtain ⟨_, h | h⟩ := settle_cases a b <;> rw [h]
@[simp] theorem settle_fns : (settle a b).fns = b.fns := by obtain ⟨_, h | h⟩ := settle_cases a b <;> rw [h]
@[simp] theorem settle_hiLatch : (settle a b).hiLatch = b.hiLatch := by obtain ⟨_, h | h⟩ := settle_cases a b <;> rw [h]
@[simp] theorem settle_ring : (settle a b).ring = b.ring := by obtain ⟨_, h | h⟩ := settle_cases a b <;> rw [h]
@[simp] theorem settle_parts : (settle a b).parts = b.parts := by obtain ⟨_, h | h⟩ := settle_cases a b <;> rw [h]
@[simp] theorem settle_benches : (settle a b).benches = b.benches := by obtain ⟨_, h | h⟩ := settle_cases a b <;> rw [h]
@[simp] theorem settle_hbm : (settle a b).hbm = b.hbm := by obtain ⟨_, h | h⟩ := settle_cases a b <;> rw [h]
@[simp] theorem settle_bar2Wait : (settle a b).bar2Wait = b.bar2Wait := by obtain ⟨_, h | h⟩ := settle_cases a b <;> rw [h]
@[simp] theorem settle_doorbells : (settle a b).doorbells = b.doorbells := by obtain ⟨_, h | h⟩ := settle_cases a b <;> rw [h]
@[simp] theorem settle_ldg : (settle a b).ldg = b.ldg := by obtain ⟨_, h | h⟩ := settle_cases a b <;> rw [h]
@[simp] theorem settle_sessions : (settle a b).sessions = b.sessions := by obtain ⟨_, h | h⟩ := settle_cases a b <;> rw [h]
@[simp] theorem settle_ports : (settle a b).ports = b.ports := by obtain ⟨_, h | h⟩ := settle_cases a b <;> rw [h]
@[simp] theorem settle_glue : (settle a b).glue = b.glue := by obtain ⟨_, h | h⟩ := settle_cases a b <;> rw [h]
@[simp] theorem settle_gpio : (settle a b).gpio = b.gpio := by obtain ⟨_, h | h⟩ := settle_cases a b <;> rw [h]
@[simp] theorem settle_mgmt : (settle a b).mgmt = b.mgmt := by obtain ⟨_, h | h⟩ := settle_cases a b <;> rw [h]
@[simp] theorem settle_glb : (settle a b).glb = b.glb := by obtain ⟨_, h | h⟩ := settle_cases a b <;> rw [h]
@[simp] theorem settle_raised : (settle a b).raised = b.raised := by obtain ⟨_, h | h⟩ := settle_cases a b <;> rw [h]
@[simp] theorem settle_invals : (settle a b).invals = b.invals := by obtain ⟨_, h | h⟩ := settle_cases a b <;> rw [h]
@[simp] theorem settle_freeCtr : (settle a b).freeCtr = b.freeCtr := by obtain ⟨_, h | h⟩ := settle_cases a b <;> rw [h]
end

/-- A command's next state is its effect, settled. -/
theorem done_next (s : State) (f : State → State) (t : State) : done s f = .next t ↔ t = settle s (f s) := by
  unfold done; constructor
  · intro h; cases h; rfl
  · intro h; rw [h]

end Sys2Proof.Machine
end

