-- ==== Sys2Proof/WellFormed.lean ====
section
/-! DEFINITION. Which commands name units and lengths that the LN13 has (the larger grade: 13 benches, 6 partitions, 7 functions).
A command outside these bounds names nothing of the block. -/

namespace Sys2Proof

namespace WF
/-- Functions 0 to 6 (R638). -/
def fn (n : Nat) : Bool := decide (n < 7)
/-- Partitions 0 to 5 (R140). -/
def part (p : Nat) : Bool := decide (p < 6)
/-- Benches B0 to B12 (R2). -/
def bench (b : Nat) : Bool := decide (b < 13)
/-- Core c of bench b (R167). -/
def core (b c : Nat) : Bool := bench b && decide (c < 2)
/-- Queue q of engine e: q is 5 × context + e (R168). -/
def queue (b c q e : Nat) : Bool := core b c && decide (q < 40) && decide (q % 5 = e)
/-- Any queue of a core. -/
def anyQueue (b c q : Nat) : Bool := core b c && decide (q < 40)
/-- Stream slots 0 to 63 (R341). -/
def slot (b c i : Nat) : Bool := core b c && decide (i < 64)
/-- Ledger members 0 to 9 (R503). -/
def member (m : Nat) : Bool := decide (m < 10)
/-- Store sessions 0 to 7 (R567). -/
def session (s : Nat) : Bool := decide (s < 8)
/-- A PCIe status word of an NVMe completion is 15 bits. -/
def status (n : Nat) : Bool := decide (n < 2 ^ 15)
/-- A captured packet is 128 bytes and its extended block 256 at most (R651, R659). -/
def capture : Capture → Bool
  | .packet bytes ext => decide (bytes.length = 128) && (match ext with
    | some x => decide (x.length ≤ 4096)
    | none => true)
  | .unresolvable => true
/-- Registers are 32 or 64 bits wide; other sizes of access are legal to make (R811). -/
def access (size : Nat) : Bool := decide (size = 1) || decide (size = 2) || decide (size = 4) || decide (size = 8)
end WF

/-- The command names units that exist. -/
def Instr.wf : Instr → Bool
  | .epochArm fn _ | .epochDisarm fn _ | .benchReset fn _ | .engineReset fn _ | .pkgReset fn _ _ | .sleepExit fn _
  | .irqEoi fn _ | .gpioOutWrite fn _ => WF.fn fn
  | .gpioFuncEnWrite fn g _ => WF.fn fn && decide (g < 4)
  | .gpioDebounceWrite fn pin _ => WF.fn fn && decide (pin < 32)
  | .gpioIntModeWrite fn half _ => WF.fn fn && decide (half < 2)
  | .gpioFilterChange pin => decide (pin < 32)
  | .gate _ | .lock | .holdoverEntry | .timelyReturn | .beatLost | .relock | .epochEdge | .epochBeat => true
  | .startLaunch p | .batonArrival p _ | .buddyPauseEnd p | .stepCommit p _ | .stepRerun p | .lateTileResume p
  | .taskAbortComplete p | .signatureTimer p | .clampDone p | .buddyLoadDone p | .partitionZeroed p
  | .programLoadDone p | .flr p | .earlyArrivalMove p _ => WF.part p
  | .blap b c q _ | .dowel b c q _ | .sstart b c q | .sdrain b c q | .srearm b c q => WF.queue b c q 3
  | .mload b c q _ | .mstream b c q _ | .mconv b c q _ | .mgen b c q _ => WF.queue b c q 0
  | .vadd b c q _ | .vsub b c q _ | .vmul b c q _ | .vmax b c q _ | .vmin b c q _ | .vfunc b c q _ | .vsum b c q _
  | .vreq b c q _ => WF.queue b c q 1
  | .railMv b c q _ | .railMvSpill b c q _ | .railMvCont b c q _ => WF.queue b c q 2
  | .psolve b c q _ | .pbatch b c q _ | .pdelta b c q _ => WF.queue b c q 4
  | .nop b c q | .jog b c q | .endQueue b c q | .badEntry b c q | .commandComplete b c q | .hurdleArrival b c q =>
    WF.anyQueue b c q
  | .queueDoorbell fn b c q _ => WF.fn fn && WF.anyQueue b c q
  | .commandSteal b c ob oc oq _ => WF.core b c && WF.anyQueue ob oc oq
  | .lapStart b | .deferredSelfTestStart b | .benchPowerTransition b | .supplyMonitorTrip b => WF.bench b
  | .rejoinDone b _ | .selfTestDone b _ => WF.bench b
  | .linkRetry b dir _ => WF.bench b && decide (dir < 2)
  | .spliceWindowOpen | .spliceWindowClose => true
  | .solveComplete b c => WF.core b c
  | .arrayGate b c a | .feederPush b c a => WF.core b c && decide (a < 4)
  | .rackWriteback b bank => WF.bench b && decide (bank < 8)
  | .satClear fn b c => WF.fn fn && WF.core b c
  | .streamTileStart b c i _ | .tileLand b c i | .deadlineMiss b c i => WF.slot b c i
  | .readDataReturn b c _ _ _ | .writeComplete b c _ | .completionTimeout b c _ => WF.core b c
  | .atsTranslationCompletion b c _ _ _ | .priResponse b c _ _ _ | .translationTimeout b c _ _ => WF.core b c
  | .atsInvalidate f _ _ _ | .atsInvalidateComplete f | .packetCapture f .unresolvable | .completionPost f => WF.fn f
  | .packetCapture f cap => WF.fn f && WF.capture cap
  | .stripeStart | .anchorTimer | .scrubRead _ | .rebuildStripe _ => true
  | .nandProgramDone m _ | .nandEraseDone m _ | .memberFailed m => WF.member m
  | .nvmeCompletion s st => WF.session s && WF.status st
  | .sessionClose s _ | .keepAlive s | .keepAliveTimeout s | .storeSessionConnected s _ => WF.session s
  | .aiviaDoorbell fn f _ | .completionQueueFree fn f _ => WF.fn fn && WF.fn f
  | .aiviaEnable fn f | .aiviaDisable fn f => WF.fn fn && WF.fn f
  | .bar2Access fn _ _ => WF.fn fn
  | .aiviaNop f | .partCreate f | .partResize f | .partDestroy f | .partBalance f | .partPreempt f | .ringSpareSet f
  | .ringRejoin f | .ckpDisarm f | .buddySet f | .storePortSet f | .storeConnect f | .storeDisconnect f | .ldgUnseal f
  | .ldgRelease f | .identCert f | .glueWrite f | .selfTest f | .calibrate f => WF.fn f
  | .reconcile f mgmt data => WF.fn f && decide (mgmt < 3) && decide (data < 3)
  | .programLoad f _ | .fwStage f _ | .run f _ | .ckpArm f _ | .ckpRestore f _ | .ldgFormat f _ | .ldgMemberReplace f _
  | .ldgExport f _ => WF.fn f
  | .glueSlotProgrammed | .calibrateStart | .calibrateDone | .por _ | .perstAssert _ | .pfFlr | .packageSleepEntry
  | .powerOff | .thermalTrip => true
  | .tempSample bench hbm => decide (bench.length ≤ 13) && decide (hbm.length ≤ 8)
  | .smbusIdent _ | .smbusFwStatus _ | .smbusAssetTag _ | .smbusStatus _ | .smbusTempMax _ | .smbusNack => true
  | .smbusBenchTemp k _ => decide (k < 13)
  | .smbusHbmTemp k _ => decide (k < 8)
  | .lowHalfRead fn addr => WF.fn fn && decide (addr < 2 ^ 26)
  | .registerWrite fn addr size _ => WF.fn fn && decide (addr < 2 ^ 26) && WF.access size
  | .refBeatEdge _ _ | .msixVectorUnmask => true
  | .powerTransitionDone (some b) => WF.bench b
  | .powerTransitionDone none => true

end Sys2Proof
end

