-- ==== Sys2Proof/Tests/Slice0.lean ====
section
/-! SUPPORT. Tests: the well-formedness checks, small tests of single commands on values worked out from the spec, and for every
statement with hypotheses a state and operands that meet them (witness_<statement>). -/

namespace Sys2Proof.Tests

open Sys2Proof.Machine

set_option Elab.async false  -- one test at a time, so that a compile needs few threads

/-! ## WellFormed: every check refuses an ill-formed term -/

theorem test_wf_functions : (Instr.epochArm 7 0).wf = false ∧ (Instr.aiviaNop 7).wf = false ∧ (Instr.aiviaDoorbell 0 7 0).wf = false ∧
    (Instr.pkgReset 7 0 {}).wf = false ∧ (Instr.aiviaNop 6).wf = true := by decide
theorem test_wf_units : (Instr.startLaunch 6).wf = false ∧ (Instr.lapStart 13).wf = false ∧ (Instr.solveComplete 0 2).wf = false ∧
    (Instr.nandProgramDone 10 true).wf = false ∧ (Instr.keepAlive 8).wf = false ∧ (Instr.tileLand 0 0 64).wf = false ∧
    (Instr.arrayGate 0 0 4).wf = false ∧ (Instr.rackWriteback 0 8).wf = false := by decide
theorem test_wf_queues : (Instr.nop 0 0 40).wf = false ∧ (Instr.mload 0 0 1 []).wf = false ∧ (Instr.vadd 0 0 0 []).wf = false ∧
    (Instr.railMv 0 0 1 []).wf = false ∧ (Instr.blap 0 0 4 []).wf = false ∧ (Instr.psolve 0 0 3 []).wf = false ∧
    (Instr.psolve 12 1 39 []).wf = true := by decide
theorem test_wf_pins : (Instr.gpioFuncEnWrite 0 4 0).wf = false ∧ (Instr.gpioDebounceWrite 0 32 0).wf = false ∧
    (Instr.gpioIntModeWrite 0 2 0).wf = false ∧ (Instr.gpioFilterChange 32).wf = false ∧ (Instr.linkRetry 0 2 false).wf = false ∧
    (Instr.smbusBenchTemp 13 false).wf = false ∧ (Instr.smbusHbmTemp 8 false).wf = false ∧
    (Instr.tempSample (List.replicate 14 0) []).wf = false := by decide
theorem test_wf_access : (Instr.registerWrite 0 0 3 0).wf = false ∧ (Instr.registerWrite 0 67108864 4 0).wf = false ∧
    (Instr.lowHalfRead 7 0).wf = false ∧ (Instr.reconcile 0 3 0).wf = false ∧ (Instr.nvmeCompletion 0 32768).wf = false ∧
    (Instr.packetCapture 0 (.packet [] none)).wf = false := by decide

/-! ## Fixtures -/

/-- Bytes with fields written at offsets: offset, length, value. -/
def bytesOf (n : Nat) (fs : List (Nat × Nat × Nat)) : Bytes :=
  Memory.read (fs.foldl (fun m f => Memory.write m f.1 (leBytes f.2.1 f.2.2)) []) 0 n

/-- A packet: opcode, version 1, and fields. -/
def pkt (op : Nat) (fs : List (Nat × Nat × Nat)) : Pkt := { bytes := bytesOf 128 ([(0, 1, op), (1, 1, 1), (4, 4, 0x1234)] ++ fs) }

/-- A device that is up, at an open gate. -/
def up : State :=
  { life := .up, glb := { ready := true }, beat := { locked := true, started := true, aligned := true, gateOpen := true, periods := 100 }
    ldg := { mounted := true, anchors := [some {}, none], geometry := { luns := 1, blocks := 8, pages := 4, pageBytes := 16592 } } }

/-- A function holds a captured packet that the gate may take in. -/
def hold (s : State) (f : Nat) (x : Pkt) : State := s.modFn f fun a => { a with enable := true, gateBuf := [x], eligible := 64 }

/-- The packet is admitted. -/
def admitted (s : State) (f op : Nat) (x : Pkt) : Bool :=
  decide (s.nextPkt f = some (0, x)) && decide (x.op = op) && decide (s.headerDetail f x = none)

/-- Partition 0 in force: seats 0 and 1, 1 GiB. -/
def owned : State :=
  { (up.modPart 0 fun _ => { valid := true, state := .idle, seats := 2, hbmSize := 1, bw := [10, 6, 4], tallyBlocks := 1, hurdleCount := 1 })
    with benches := up.benches.zipIdx.map fun y => if y.2 < 2 then { y.1 with state := .active } else y.1 }

/-- A program without segments. -/
def image : Bytes :=
  bytesOf 256 [(0, 4, 0x33314E4C), (4, 2, 1), (7, 1, 1), (8, 1, 2), (9, 1, 2), (13, 1, 1), (0x28, 8, 256), (0xFC, 4, 1656835861)]

/-- Partition 0 with its program loaded. -/
def loaded : State := owned.modPart 0 fun x => { x.program image [0, 1] with state := .loaded }

/-- A credit run of partition 0 in progress. -/
def running : State := loaded.modPart 0 fun x => { x with state := .running, task := some { credit := true, id := { op := 0x11 } } }

/-- The run with a command at the head of queue q of core 0 of bench 0. -/
def headed (q : Nat) (c : Bytes) : State :=
  { running.modQueue 0 0 q (fun x => { x with log2 := 4, tail := 1 }) with hbm := Memory.write [] 0 c }

/-- A command entry: opcode, the queue's engine, OPERAND_A and OPERAND_B. -/
def entry (q op a b : Nat) : Bytes := bytesOf 32 [(0, 1, op), (1, 1, q % 5), (20, 4, a), (24, 8, b)]

/-- The command issues, and does not fault at its issue. -/
def issues (s : State) (q op : Nat) : Bool := match s.mayIssue 0 0 q op with
  | some (p, t, cmd) => p = 0 && !s.issueFaults p 0 0 q t cmd
  | none => false

/-! ## Witnesses: the machine, the beat -/

theorem witness_StepRunsFrontCommand : ({ State.reset with pending := [.lock, .relock] } : State).pending = .lock :: [.relock] := by decide
theorem witness_StepOnEmptyQueueIsOneCoreCycle : State.reset.pending = [] ∧ State.reset.beat.started = false ∧ up.pending = [] ∧
    up.beat.started = true ∧ up.beat.cc + 1 < up.m ∧ (up.modBeat fun b => { b with cc := 99 }).m ≤ 99 + 1 := by decide +kernel
theorem witness_LockHoldoverAndRelock : State.reset.life = .awaitLock ∧ State.reset.beat.lines = {} ∧ ({} : RefEdge).seen = true ∧ ({ ppm := 2000 } : RefEdge).seen = false ∧ State.reset.beat.edgeSeen = false ∧
    up.life ≠ .awaitLock ∧
    (let s := up.modBeat fun b => { b with synth := 4 }
     s.beat.started = true ∧ s.beat.holdover = false ∧ 4 ≤ s.beat.synth ∧ s.parts.length = 6 ∧ up.beat.synth < 4) ∧
    (let s := up.modBeat fun b => { b with holdover := true, synth := 10000 }
     s.beat.timely = true ∧ 2 * s.beat.cc < s.m ∧ s.beat.edgeSeen = false ∧ (s.modBeat fun b => { b with cc := 1 }).beat.timely = false) ∧
    (up.modBeat fun b => { b with relocking := true }).beat.relocking = true ∧ up.beat.relocking = false := by decide +kernel
/-- R64: 1,000 ppm off is present, 1,001 ppm off is absent. -/
theorem test_refBeat_tolerance : ({ ppm := -1000 } : RefEdge).seen = true ∧ ({ ppm := 1001 } : RefEdge).seen = false := by decide
/-- R59: the 10,000th beat ends in time at its synthesised edge, and R60 follows in the next core cycle. -/
theorem test_beat_lost_cycle : ({ holdover := true, synth := 10000, cc := 0 } : Beat).lostDue = false ∧
    ({ holdover := true, synth := 10000, cc := 1 } : Beat).lostDue = true := by decide
theorem witness_BeatLostLatchesAndRaises :
    (let s := up.modBeat fun b => { b with holdover := true, synth := 10000, cc := 1 }
     s.beat.holdover = true ∧ s.beat.lost = false ∧ s.beat.synth = 10000 ∧ s.beat.cc = 1) := by decide +kernel
theorem witness_EpochArmingEdgeAndBeat :
    (let e := up.modBeat fun b => { b with edgeSeen := true }
     let a := e.modBeat fun b => { b with edgeArmed := true, loadDue := true }
     e.beat.edgeSeen = true ∧ e.beat.edgeArmed = false ∧ a.beat.edgeArmed = true ∧ a.beat.loadDue = true ∧
       a.parts.length = 6 ∧ a.running = true ∧ a.parts.any Part.hasLaunch = false ∧
       (a.modPart 0 fun x => { x with launch := some {} }).parts.any Part.hasLaunch = true ∧ (2#32).getLsbD 1 = true ∧
       (1#32).getLsbD 1 = false ∧ (1#32).getLsbD 0 = true) := by decide +kernel
theorem witness_RefBeatEdgesAndGates : up.running = true ∧ up.beat.started = true ∧
    (let s := up.modBeat fun b => { b with gateOpen := false }
     s.beat.count.toNat % 16 = 0 ∧ s.beat.cc = 0 ∧ s.beat.gateDone = false ∧ s.beat.loadDue = false ∧
       (s.modBeat fun b => { b with count := 1 }).beat.count.toNat % 16 ≠ 0) := by decide +kernel

/-! ## Witnesses: the ring -/

/-- A lap of no baton, accepted. -/
def lap : Lap := { mode := 0, parts := [{}] }
/-- The run with its benches on the circle. -/
def circling : State := running.modPart 0 fun x => { x with circle := [0, 1] }
/-- A leg whose one flit has arrived at place 1. -/
def leg : Leg := { dest := 1, leg := 2, legs := 2, lap := 1, bytes := 2048, slots := some [0], got := 1 }

theorem witness_LapsReachTheRing :
    (let s := (headed 3 (entry 3 0xA4 0x100 (2 ^ 46))).modBench 0 fun x => { x with act := Memory.write [] 0 (leBytes 8 0x10000) }
     (s.mayIssue 0 0 3 0xA4).any (fun x => x.1 = 0 && (s.blapCause 0 0 0 3 x.2.2).isNone) = true) ∧
    (let s := circling.modBench 0 fun x => { x with port := { lap := some lap } }
     s.benchPart 0 = some 0 ∧ s.ringBegins 0 = true ∧ (s.bench 0).computes = true ∧ (s.part 0).clamping = false ∧
       (s.part 0).circle.contains 0 = true ∧ lap.started = false ∧ s.lapWhole 0 0 lap = true) ∧
    (let s := circling.modBench 0 fun x => { x with port := { lap := some { lap with started := true }, next := some lap } }
     s.ringBegins 0 = true ∧ s.lapSent 0 ((s.part 0).placeOf 0) 0 = true ∧ s.lapWhole 0 0 lap = true) := by decide +kernel
theorem witness_BatonsArriveAndRetry :
    (let s := circling.modPart 0 fun x => { x with legs := [leg] }
     (s.part 0).legs.find? Leg.over = some leg ∧ leg.discarded 2 = true) ∧
    (let l : Leg := { leg with leg := 1, forwarded := true }
     let s := circling.modPart 0 fun x => { x with legs := [l] }
     (s.part 0).legs.find? Leg.over = some l ∧ l.discarded (s.part 0).circle.length = false ∧ (s.part 0).scheduledRun = false ∧
       (s.part 0).adopted = [] ∧ (s.part 0).benchAt l.dest < s.benches.length) ∧
    (let l : Leg := { leg with leg := 1 }
     let s := circling.modPart 0 fun x => { x with legs := [l] }
     0 < s.parts.length ∧ l ∈ (s.part 0).legs ∧ l.discarded 2 = false ∧ l.forwarded = false ∧ l.leg < l.legs ∧ 0 < l.arrived) ∧
    (let l : Leg := { leg with air := [(10001, [])] }
     let s := circling.modPart 0 fun x => { x with legs := [l] }
     s.benchPart 0 = some 0 ∧ 0 < s.benches.length ∧ (s.part 0).circle.contains 0 = true ∧ l.place = (s.part 0).placeOf 0 ∧
       l.ccw = decide ((0 : Nat) = 1) ∧ l.air.isEmpty = false) := by decide +kernel

/-- A window that closes now over one change. -/
def closing (s : State) (c : Change) : State :=
  s.modRing fun r => { r with window := some { closeAt := 100, reqs := [{ part := 0, change := c, id := some {} }] } }

theorem witness_SpliceWindowsPutChangesInForce :
    (let s := owned.modRing fun r => { r with waiting := [{ part := 0 }] }
     s.beat.gateOpen = true ∧ s.ring.window = none ∧ s.ring.waiting.filter s.stopped ≠ []) ∧
    (let s := closing up .create
     s.ring.window = some { closeAt := 100, reqs := [{ part := 0, change := .create, id := some {} }] } ∧ 100 ≤ s.beat.periods ∧
       0 < s.parts.length ∧ ({} : PktId).f < s.fns.length ∧ (s.fn 0).epoch = 0) ∧
    (let s := (closing running (.takeover 0)).modRing fun r => { r with spareLive := 12 }
     s.glue.jobs = [] ∧ 0 < s.benches.length ∧ s.ring.spareLive < s.benches.length ∧ s.ring.spareLive ≠ 0) := by decide +kernel
theorem witness_SparesAndRejoin :
    (let s := hold (up.modBench 3 fun x => { x with state := .fenced }) 0 (pkt 9 [(0x20, 1, 3)])
     admitted s 0 9 (pkt 9 [(0x20, 1, 3)]) = true ∧ 3 < s.nSeats ∧ 3 < s.benches.length ∧ s.latched 3 = false ∧ s.claims 3 = false ∧
       (s.bench 3).state = .fenced) ∧
    (let s := up.modBench 3 fun x => { x with state := .testing, test := some { why := .rejoin {}, former := .fenced, endAt := 100 } }
     (s.bench 3).test = some { why := .rejoin {}, former := .fenced, endAt := 100 } ∧ 100 ≤ s.beat.periods ∧ s.glue.jobs = [] ∧
       ({} : PktId).f < s.fns.length ∧ (s.fn 0).epoch = 0) ∧
    (let s := hold up 0 (pkt 8 [(0x20, 1, 12)])
     admitted s 0 8 (pkt 8 [(0x20, 1, 12)]) = true ∧ s.spareSetRefusal 12 = none ∧ s.glue.jobs = [] ∧ s.glue.value 1 = 12 ∧
       s.spareSetRefusal 3 = none ∧ s.glue.value 1 ≠ 3 ∧ s.glue.left 1 ≠ 0 ∧ s.spareSetRefusal 13 = some (7, 0x52) ∧
       (s.modGlue fun g => { g with used := g.used.set 1 8 }).glue.left 1 = 0) ∧
    admitted (hold up 0 (pkt 8 [(0x20, 1, 3)])) 0 8 (pkt 8 [(0x20, 1, 3)]) = true := by decide +kernel

/-! ## Witnesses: queues -/

theorem witness_EngineCommandsIssueInOrder :
    engineRow (.nop 0 0 0) = some (0, 0, 0, 0) ∧ issues (headed 0 (entry 0 0 0 0)) 0 0 = true ∧
    issues (headed 1 (entry 1 1 0xFFFF 0)) 1 1 = true ∧ issues (headed 39 (entry 39 2 0 0)) 39 2 = true := by decide +kernel
theorem witness_IssueFaultsAbortTheTask :
    (let s := headed 0 (entry 0 0x40 0 0)
     (s.headCmd 0 0 0).map (fun x => (x.1, x.2.valid 0)) = some (0, false) ∧ (s.issuing 0).isSome = true ∧ 0 < s.parts.length ∧
       (s.bench 0).computes = true) ∧
    (let s := headed 1 (entry 1 0x45 0 (2 ^ 28))
     (s.mayIssue 0 0 1 0x45).any (fun x => s.vecFault 0 0 0 1 x.2.2 = some 2) = true) ∧
    (let s := headed 0 (entry 0 0x10 0 (129 * 2 ^ 29))
     (s.mayIssue 0 0 0 0x10).any (fun x => s.mloadFault 0 0 0 x.2.2 = some (.mx 2)) = true) := by decide +kernel
theorem witness_BadEntryCompletes :
    (let s := headed 0 (entry 0 0x40 0 0)
     (s.headCmd 0 0 0).map (fun x => (x.1, x.2.valid 0)) = some (0, false) ∧ (s.issuing 0).isSome = true ∧ (s.bench 0).computes = true ∧
       0 < s.parts.length) := by decide +kernel
theorem witness_CompletionsAndDoorbellsOfQueues :
    (let s := running.modQueue 0 0 0 fun x => { x with inflight := [{ doneAt := 10000 }] }
     (s.queue 0 0 0).inflight = [{ doneAt := 10000 }] ∧ 10000 ≤ s.now) ∧
    running.windowOpen 1 1 = true ∧ running.queueWritable 1 = true ∧ owned.windowOpen 1 1 = true ∧ owned.queueWritable 1 = false ∧
    0 < owned.benches.length ∧ 0 < (owned.bench 0).cores.length := by
  decide +kernel
theorem witness_HurdleRounds :
    (let cmd := bytesOf 32 [(0, 1, 0), (16, 2, 0x100)]
     let s := (headed 0 cmd).modPart 0 fun x => { x with hurdles := [{ parts := [0, 1] }] }
     let e := (headed 0 cmd).modPart 0 fun x => { x with hurdles := [{ parts := [0, 1], arrived := [0], early := [0] }] }
     (s.headCmd 0 0 0).map (fun x => (x.1, x.2.hurdleEn, x.2.valid 0, x.2.hurdle)) = some (0, true, true, 0) ∧
       (s.issuing 0).isSome = true ∧ (s.queue 0 0 0).inflight = [] ∧ (s.queue 0 0 0).arrival = none ∧ (s.queue 0 0 0).lastDone < s.now ∧
       (s.bench 0).computes = true ∧ 0 < (s.part 0).hurdleCount ∧ 0 < (s.part 0).hurdles.length ∧
       participant (s.slotOf 0 0 0) 0 0 = 0 ∧ ((s.part 0).hurdle 0).parts.contains 0 = true ∧
       ctxOf 0 = 0 ∧ ((s.part 0).hurdle 0).moveAt = none ∧ ((e.part 0).hurdle 0).moveAt = none ∧
       ((s.part 0).hurdle 0).arrived.contains 0 = false ∧ ((e.part 0).hurdle 0).arrived.contains 0 = true ∧
       ((e.part 0).hurdle 0).early.contains 0 = true ∧ ((e.part 0).hurdle 0).poisoned = false ∧ (e.issuing 0).isSome = true) ∧
    (let s := running.modPart 0 fun x => { x with hurdles := [{ moveAt := some 10000 }] }
     ((s.part 0).hurdle 0).moveAt = some 10000 ∧ 10000 ≤ s.now) := by decide +kernel

/-! ## Witnesses: engines -/

/-- A command may issue for partition 0, and the check holds of its task and fields. -/
def mayRun (s : State) (q op : Nat) (ok : Task → Cmd → Bool) : Bool := (s.mayIssue 0 0 q op).any fun x => x.1 = 0 && ok x.2.1 x.2.2

/-- A RAIL_MV of one row of outputs, and a run with it at the head of its queue. -/
def railMv : Cmd := Cmd.ofBytes (entry 2 0x80 0 (2 ^ 42))
def railRun : State := headed 2 (entry 2 0x80 0 (2 ^ 42))

/-- The rail command does not fault where its free input length (log entry 7) is at most 2,048 elements. -/
theorem witness_railRanges (h : railMv.railIn ≤ 2048) : railRun.vecFault 0 0 0 2 railMv = none := by
  have n : ceilDiv (2 * railMv.railIn) 4096 ≤ 1 := Nat.lt_succ_iff.mp ((Nat.div_lt_iff_lt_mul (by decide)).mpr (by omega))
  have e : railMv.vecExps.all expOk = true := by decide +kernel
  have v : railMv.vlen = 1 := by decide +kernel
  have o : railMv.opcode = 0x80 := by decide +kernel
  have r : railMv.isRail = true := by decide +kernel
  have a : railRun.actRow 0 0 (ctxOf 2) railMv.src1 = 0 := by decide +kernel
  have a2 : railRun.actRow 0 0 (ctxOf 2) railMv.src2 = 0 := by decide +kernel
  have a3 : railRun.actRow 0 0 (ctxOf 2) railMv.dst = 0 := by decide +kernel
  have k : railRun.rackOff 0 0 (ctxOf 2) railMv.weights = 0 := by decide +kernel
  have d : railMv.eSrc2 - railMv.eSrc1 = 0 := by decide +kernel
  simp [State.vecFault, e, v, o, r, a, a2, a3, k, d, Cmd.vecRows, rowsFit, rackBytes]
  omega

theorem witness_VectorAndRailCommandsWriteDst :
    mayRun (headed 1 (entry 1 0x40 0 (2 ^ 42))) 1 0x40 (fun _ c => ((headed 1 (entry 1 0x40 0 (2 ^ 42))).vecFault 0 0 0 1 c).isNone) = true ∧
    mayRun railRun 2 0x80 (fun _ c => c = railMv) = true ∧
    ({ cmd := { opcode := 0x44 } } : Job).kind = .vec ∧
    (let r : MemReq := { write := true, data := [(actBytes - 1, [7])], who := .job 0 0 }
     let s := running.modBench 0 fun x => { x with reqs := [r] }
     0 < s.benches.length ∧ (s.bench 0).reqs = [r] ∧ r.due ≤ s.now ∧ r.rack = false ∧ actBytes - 1 + [7].length ≤ actBytes) ∧
    (let s := ((headed 2 (bytesOf 32 [(0, 1, 0x80), (1, 1, 0x12), (24, 8, 2 ^ 42)])).modPart 0 fun x => { x with balance := true }
       ).modQueue 0 0 2 fun x => { x with since := some 0 }
     (s.issuable 0 0 2).any (fun x => x.1 = 0 && x.2.2.isRail && x.2.2.stealOk) = true ∧
       engineOf 2 = 2 ∧ (s.part 0).balance = true ∧ (s.part 0).bw.getD 2 0 ≠ 0 ∧ s.neighbours 0 1 0 = true ∧
       (s.bench 1).computes = true ∧ 0 < (s.bench 1).cores.length ∧ s.stealTime 1 0 2 0 0 2 = true) := by decide +kernel

/-- A generator descriptor: every extent and step 1. -/
def genDesc : Bytes := bytesOf 32 [(4, 2, 1), (6, 2, 1), (8, 2, 1), (10, 2, 1), (12, 2, 1), (14, 1, 1), (15, 1, 1), (16, 1, 1), (17, 1, 1),
  (20, 1, 1), (21, 1, 1)]

theorem witness_ArraysLoadGateAndFeed :
    (let s := headed 0 (entry 0 0x10 (2 ^ 19) (128 * 2 ^ 29 + 128 * 2 ^ 37))
     mayRun s 0 0x10 (fun _ c => (s.mloadFault 0 0 0 c).isNone && c.biasLoad) = true ∧ (s.core 0 0).mx.arrays.length = 4) ∧
    (let s := (headed 0 (entry 0 0x13 0 0)).modBench 0 fun x => { x with act := Memory.write [] 0 genDesc }
     mayRun s 0 0x13 (fun _ c => (s.mgenFault 0 0 0 c).isNone && decide (s.genIdx 0 0 0 c.genSlot < (s.core 0 0).mx.gens.length)) = true) ∧
    (let s := running.modCore 0 0 fun k => k.modArray 3 fun a => { a with gated := false, jogRun := 63 }
     (let x := (s.core 0 0).array 3
      x.gated = false ∧ x.carried = false ∧ 63 ≤ x.jogRun ∧ x.bus = .free ∧ (s.core 0 0).mx.jogCmdEnd ≤ s.now)) ∧
    (let j : Job := { kind := .load, row := 127, window := List.replicate 127 (List.replicate 256 0) }
     j.row = 127 ∧ j.window.length = 127 ∧ (∀ w ∈ j.window, w.length = 256) ∧ j.eb < running.benches.length ∧
       j.ec < (running.bench j.eb).cores.length ∧ (running.core j.eb j.ec).mx.arrays.length = 4) ∧
    (let s := running.modCore 0 0 fun k => k.modArray 0 fun a => { a with pushes := [(0, 0, [])], feeder := List.replicate 63 (false, []) }
     ((s.core 0 0).array 0).pushes = [(0, 0, [])] ∧ ((s.core 0 0).array 0).feeder.length < 64 ∧ ((s.core 0 0).array 0).conv = false) ∧
    (let s := running.modBench 0 fun x => { x with toWriteBack := [(7, 1, 2)] }
     ((s.bench 0).toWriteBack.find? fun x => x.1 = 7) = some (7, 1, 2)) := by decide +kernel
theorem witness_StreamedRowsAtTheirUnits :
    (let s := headed 0 (entry 0 0x11 0x10000 (2 ^ 36 + 1024 * 2 ^ 18))
     mayRun s 0 0x11 (fun t c => !s.issueFaults 0 0 0 0 t c && !c.queueFed && c.rowsM = 1 && c.arrays = [0] && c.accMode = 0) = true ∧
       (s.core 0 0).mx.arrays.length = 4 ∧ ((s.core 0 0).array 0).wf = true) ∧
    (let s := (headed 0 (entry 0 0x12 0x10000 (1024 + 2 ^ 18))).modCore 0 0 fun k =>
       k.modMx fun m => { m with gens := [{ valid := true, desc := genDesc }] }
     mayRun s 0 0x12 (fun t c => !s.issueFaults 0 0 0 0 t c && !c.queueFed && c.rowsM = 1) = true) ∧
    (let s := headed 0 (entry 0 0x11 0x110000 (2 ^ 36 + 1024 * 2 ^ 18))
     mayRun s 0 0x11 (fun t c => !s.issueFaults 0 0 0 0 t c && c.accMode = 1) = true) ∧
    (let s := headed 0 (entry 0 0x11 0x10000 (1024 * 2 ^ 18))
     mayRun s 0 0x11 (fun t c => !s.issueFaults 0 0 0 0 t c && c.rowsM = 0) = true) ∧
    0 < running.benches.length ∧ ({ cmd := { opcode := 0x11 } } : Job).cmd.accMode = 0 ∧
      ((running.core 0 0).array 0).wf = true := by decide +kernel

/-! ## Witnesses: streams and DMA -/

/-- A descriptor of a stream of one 256-byte tile from HBM to the activation store, with its flags. -/
def desc (flags : Nat) : Bytes := bytesOf 64 [(0, 1, 1), (1, 1, 2), (3, 1, flags), (32, 4, 256), (36, 4, 1)]

/-- The run with stream slot 0 of bench 0, core 0. -/
def slotted (s : State) (x : Slot) : State := s.modSlot 0 0 0 fun _ => x

theorem witness_StreamAndDowelCommands :
    (let s := slotted (headed 3 (entry 3 0xA0 0 0)) { raw := desc 0 }
     s.slotIdx 0 0 (ctxOf 3) 0 < (s.core 0 0).dma.slots.length ∧ mayRun s 3 0xA0 (fun t c => (s.sstartCause 0 0 0 3 t c).isNone) = true) ∧
    (let s := slotted (headed 3 (entry 3 0xA2 0 0)) { raw := desc 2, busy := true, count := 1, started := 1 }
     mayRun s 3 0xA2 (fun t c => (s.srearmCause 0 0 0 3 t c).isNone) = true) ∧
    (let s := slotted (headed 3 (entry 3 0xA1 0 0)) { raw := desc 2, busy := true, count := 1 }
     mayRun s 3 0xA1 (fun _ _ => ((s.core 0 0).slot 0).busy && ((s.core 0 0).slot 0).persistent) = true) ∧
    (let s := headed 3 (entry 3 0xA3 0 0)
     mayRun s 3 0xA3 (fun t c => (s.dowelCause 0 0 0 t c).isNone) = true) := by decide +kernel

/-- A request of 8 bytes from host memory, by a dowel transfer. -/
def hostRead : Req := { id := 1, slot := 64, q := 3, srcSpace := 3, len := 8, stage := .away }

theorem witness_StreamTilesStartAndRequestsEnd :
    (let s := slotted running { raw := desc 0, busy := true, starter := 3, count := 1 }
     let d := slotted (loaded.modPart 0 fun x => { x with state := .running, task := some {} })
       { raw := desc 0, busy := true, starter := 3, count := 1 }
     let x := ((s.core 0 0).slot 0).forTile 0
     s.benchPart 0 = some 0 ∧ (s.issuing 0).any (·.credit) = true ∧ (s.bench 0).computes = true ∧ x.busy = true ∧ x.draining = false ∧
       x.exhausted = false ∧ x.gated x.started = false ∧
       (d.issuing 0).any (fun t => !t.credit) = true ∧ x.armAt + (0 - x.armBase) * x.period ≤ d.now ∧ x.cls = d.classNow 0) ∧
    (let s := running.modCore 0 0 fun k => k.modDma fun d => { d with reads := [hostRead], writes := [{ id := 5, stage := .sent }] }
     ((s.core 0 0).dma.writes.find? fun w => w.id = 5) = some { id := 5, stage := .sent } ∧ (∀ x ∈ s.benches, x.awaits (.dma 0 0 5) = false) ∧
       ((s.core 0 0).dma.reads.find? fun w => w.id = 1 && w.stage = .away) = some hostRead ∧ s.dmaRuns 0 = true ∧
       hostRead.write = false ∧ hostRead.slot = 64 ∧ hostRead.gate = none ∧ hostRead.srcSpace = 3 ∧ hostRead.dstSpace < 2 ∧
       s.req 0 0 1 = some hostRead ∧ (s.bench 0).awaits (.dma 0 0 1) = false) := by decide +kernel
theorem witness_HostReadsAndTranslationsFail :
    (let s := running.modCore 0 0 fun k => k.modDma fun d => { d with reads := [hostRead] }
     s.benchPart 0 = some 0 ∧ ((s.core 0 0).dma.reads.find? fun w => w.id = 1) = some hostRead ∧ hostRead.stage = .away ∧ s.dmaRuns 0 = true ∧
       (s.part 0).task.isSome = true ∧ (s.part 0).clamping = false ∧ (s.core 0 0).dma.fault.getLsbD 0 = false) ∧
    (let s := (running.modCore 0 0 fun k => k.modDma fun d => { d with trans := [{ pasid := pasidOf 0 }] }).modBeat fun b =>
       { b with periods := 2 ^ 24 }
     ((s.core 0 0).dma.trans.find? fun x => x.pasid = pasidOf 0 && x.iova = 0 && decide (x.since + 2 ^ 24 ≤ s.beat.periods)) =
       some { pasid := pasidOf 0 } ∧ s.dmaRuns 0 = true ∧ (s.part 0).task.isSome = true ∧ (s.part 0).clamping = false ∧ s.benchPart 0 = some 0) := by decide +kernel
theorem witness_TilesLandOrAreLate :
    (let s := slotted running { raw := desc 0, busy := true, starter := 3, count := 1, started := 1, tiles := [{}] }
     s.benchPart 0 = some 0 ∧ ((s.core 0 0).slot 0).tiles = [{}] ∧ ((s.core 0 0).slot 0).busy = true ∧
       ({} : Tile).num = ((s.core 0 0).slot 0).landed ∧ s.tileWhole 0 0 0 ((s.core 0 0).slot 0) {} = true) ∧
    (let s := slotted (loaded.modPart 0 fun x => { x with state := .running, task := some {} })
       { raw := desc 0, busy := true, starter := 3, count := 1, started := 1, tiles := [{ out := 1 }] }
     (s.part 0).task = some {} ∧ s.benchPart 0 = some 0 ∧
       (((s.core 0 0).slot 0).tiles.find? fun y => !y.late && s.isLate y && !s.dueMoves 0 y) = some { out := 1 } ∧ (s.part 0).scheduledRun = true ∧
       (s.part 0).stop = .none ∧ s.dmaRuns 0 = true) ∧
    (let s := running.modPart 0 fun x => { x with stop := .late 0 0 0 100 }
     (s.part 0).stop = .late 0 0 0 100 ∧ s.lateLeft 0 = false) := by decide +kernel
theorem witness_TranslationsAndInvalidations :
    (let s := (running.modCore 0 0 fun k => k.modDma fun d => { d with trans := [{}, { iova := 4096, phase := 1 }] })
     let pri := { s with start := { s.start with pri := [0] } }
     s.benchPart 0 = some 0 ∧ 0 < s.benches.length ∧ 0 < (s.bench 0).cores.length ∧
       (s.core 0 0).dma.findTrans (2 ^ 20) 0 false = some {} ∧ (s.core 0 0).dma.atc.length < 1024 ∧ ({} : Trans).phase = 0 ∧
       pri.priOn 0 = true ∧ (s.core 0 0).dma.findTrans (2 ^ 20) 4096 true = some { iova := 4096, phase := 1 }) ∧
    (let s := { running with invals := [(1, [])] }
     (s.invals.findIdx? fun v => v.1 = 1 && !v.2.any s.outstanding) = some 0) := by decide +kernel

/-! ## Witnesses: the plumb engine -/

/-- A problem of one row and no nonzero, with its CSR block at 192. -/
def problem : Bytes := bytesOf 64 [(0, 2, 0x4C50), (3, 1, 2), (8, 2, 1), (10, 2, 1), (24, 8, 1), (32, 8, 1), (40, 4, 64), (48, 4, 128),
  (52, 4, 192), (56, 4, 256), (60, 4, 320)]

theorem witness_PlumbCommandsStartAndEnd :
    (let s := ((headed 4 (entry 4 0xC0 0 0)).modBench 0 fun x => { x with act := Memory.write (Memory.write [] 0 problem) 1026 [1] }
       ).modCore 0 0 fun k => { k with plb := { k.plb with resident := some 1024 } }
     mayRun s 4 0xC0 (fun _ c => (s.psolveFault 0 0 0 4 c).isNone) = true) ∧
    (let s := (headed 4 (entry 4 0xC1 1 0)).modBench 0 fun x => { x with act := Memory.write [] 0 problem }
     mayRun s 4 0xC1 (fun _ c => (s.pbatchFault 0 0 4 c).isNone) = true) ∧
    (let s := ((headed 4 (entry 4 0xC2 1 0)).modBench 0 fun x => { x with act := Memory.write [] 1032 [1] }
       ).modCore 0 0 fun k => { k with plb := { k.plb with resident := some 1024 } }
     mayRun s 4 0xC2 (fun _ c => (s.residentOf 0 0).any (fun r => (s.deltas 0 0 (c.a 23 0)).all fun x => decide (x.1 < r.nnzTotal)) &&
       actFits 0 (8 * c.a 23 0) 8 && c.a 23 0 = 1) = true) ∧
    (let s := running.modCore 0 0 fun k => { k with plb := { k.plb with job := some { kind := .batch, running := true, phase := 1 } } }
     let j : PlbJob := { kind := .batch, running := true, phase := 1 }
     s.benchPart 0 = some 0 ∧ (s.core 0 0).plb.job = some j ∧ j.total < j.phase ∧ s.phaseEnd (s.runningEngs 0 0 0 j) j ≤ s.now ∧
       j.count ≤ j.done + 1 ∧ 0 < s.benches.length) := by
  decide +kernel

/-! ## Witnesses: runs, steps and their ends -/

/-- Partition 0 with a program that has a profile of class 0. -/
def ready : State := owned.modPart 0 fun x =>
  { x.program (bytesOf 256 [(7, 1, 1), (8, 1, 2), (0x28, 8, 256), (0x30, 2, 0x5044), (0x32, 1, 1), (0x34, 1, 1)]) [0, 1] with state := .loaded }
/-- The run's task. -/
def task : Task := { credit := true, id := { op := 0x11 } }

theorem witness_RunsLaunchWaitOrAreRefused :
    (let x := pkt 0x11 []
     let s := hold ready 0 x
     admitted (s.wakeForRun 0) 0 0x11 x = true ∧ s.runRefusal (x.part 0) x = none ∧ bitOf (x.u 0x28 1) 0 = false) ∧
    (let x := pkt 0x11 [(0x20, 8, 16), (0x28, 1, 1)]
     let s := hold ready 0 x
     admitted (s.wakeForRun 0) 0 0x11 x = true ∧ s.runRefusal (x.part 0) x = none ∧ bitOf (x.u 0x28 1) 0 = true) ∧
    (let x := pkt 0x11 []
     let s := hold owned 0 x
     admitted (s.wakeForRun 0) 0 0x11 x = true ∧ s.runRefusal (x.part 0) x = some (1, 0x53)) ∧
    (let s := ready.modPart 0 fun x => { x with launch := some task }
     let lost := s.modBeat fun b => { b with aligned := false }
     let late := running.modPart 0 fun x => { x with launch := some task }
     (s.part 0).launch = some task ∧ s.beat.gateOpen = true ∧ task.startGate = s.beat.count.toNat ∧ s.beat.aligned = true ∧
       (s.part 0).hasTask = false ∧ (s.part 0).prog.isSome = true ∧ task.id.f < s.fns.length ∧ (s.fn task.id.f).epoch = task.id.epoch ∧
       lost.beat.aligned = false ∧ (late.part 0).launch = some task ∧ (late.part 0).hasTask = true) := by decide +kernel
theorem witness_StepsCommitAndTasksEnd :
    (let s := running.modQueue 0 0 0 fun x => { x with stepHeads := [1, 1], stepsDone := 1 }
     (s.part 0).task = some task ∧ task.startAt ≤ s.now ∧ task.resumeAt ≤ s.now ∧ (s.part 0).stop = .none ∧ (s.part 0).after = .none ∧
       s.allQueues 0 (s.queueDone 0 0) = true ∧ (s.part 0).ckp.buddyOn = false ∧ (s.part 0).ckp.armed = false ∧
       s.allQueues 0 (s.queueLast 0 0) = false ∧ task.preempt = false ∧ (s.activeBenches 0).Nodup) ∧
    (running.allQueues 0 (running.queueDone 0 0) = true ∧ running.allQueues 0 (running.queueLast 0 0) = true ∧
       running.persistentSlots 0 = [] ∧ (running.part 0).dropProg = false ∧ task.id.f < running.fns.length ∧
       (running.fn 0).epoch = task.id.epoch ∧ running.discards 0 = false ∧ (running.part 0).task = some task) ∧
    (let s := running.modPart 0 fun x => { x with stop := .abort { status := 0xE } }
     (s.part 0).stop = .abort { status := 0xE } ∧ (s.part 0).task = some task ∧ s.partIdle 0 = true ∧ (s.part 0).dropProg = false) := by
  decide +kernel
theorem witness_PausesClampsLoadsAndReruns :
    (let s := running.modPart 0 fun x => { x with stop := .pause 9000 }
     (s.part 0).stop = .pause 9000 ∧ 9000 ≤ s.now ∧ (s.part 0).task = some task ∧ task.paused = false) ∧
    (let s := running.modPart 0 fun x => { x with stop := .clamp (8999 + 1) }
     (s.part 0).stop = .clamp (8999 + 1) ∧ (s.part 0).after = .none ∧ s.beat.gateOpen = true ∧ 8999 + 1 ≤ s.now ∧ ((s.part 0).task.map (·.preempt)) ≠ some true) ∧
    (let s := running.modPart 0 fun x => { x with stop := .load 9000 1 }
     let l := loaded.modPart 0 fun x => { x with stop := .load 9000 1 }
     (s.part 0).stop = .load 9000 1 ∧ (s.part 0).after = .none ∧ 9000 ≤ s.now ∧ (s.part 0).task = some task ∧ (l.part 0).stop = .load 9000 1 ∧
       (l.part 0).task = none ∧ (l.part 0).prog.isSome = true) ∧
    (let snap : CoreSnap := { bench := 1, core := 1 }
     let s := running.modPart 0 fun x => { x with stop := .rerun 1, task := some { task with snaps := [snap] } }
     (s.part 0).stop = .rerun 1 ∧ (s.part 0).task = some { task with snaps := [snap] } ∧ s.partIdle 0 = true ∧
       ([snap].map fun n => (n.bench, n.core)).Nodup ∧ 1 < s.benches.length ∧ 1 < (s.bench 1).cores.length ∧
       0 < (s.core 1 1).queues.length) := by decide +kernel

theorem witness_WaitsOfAPartitionEnd :
    0 < running.parts.length ∧
    (let s := running.modPart 0 fun x => { x with stop := .pause 9000 }
     (s.part 0).stop = .pause 9000 ∧ 9000 ≤ s.now ∧ (s.part 0).task = some task ∧ task.paused = false) ∧
    (let s := running.modPart 0 fun x => { x with stop := .clamp (8999 + 1) }
     (s.part 0).stop = .clamp (8999 + 1) ∧ (s.part 0).after = .none ∧ s.beat.gateOpen = true ∧ 8999 + 1 ≤ s.now ∧
       (s.part 0).task = some task ∧ task.preempt = false) ∧
    (let s := running.modPart 0 fun x => { x with stop := .load 9000 0 }
     (s.part 0).stop = .load 9000 0 ∧ (s.part 0).after = .none ∧ 9000 ≤ s.now) ∧
    (let s := running.modPart 0 fun x => { x with stop := .rerun 1 }
     (s.part 0).stop = .rerun 1 ∧ (s.part 0).task = some task ∧ s.partIdle 0 = true ∧ 1 < s.benches.length) := by decide +kernel

/-! ## Witnesses: the ledger -/

/-- The device with another ledger. -/
def ledger (f : Ledger → Ledger) : State := up.modLdg f
/-- A stripe in the log, and the program of one. -/
def stripe : Stripe := { num := 5, row := 2 }

theorem witness_StripesAreProgrammed :
    (let s := ledger fun l => { l with stage := [{}], curRow := some 2 }
     s.ldg.mounted = true ∧ s.ldg.prog = none ∧ s.ldg.erase = none ∧ s.ldg.anchorDue = false ∧ s.ldg.appends = true ∧
       s.ldg.toRelocate = [] ∧ s.reclaimable = none ∧ s.ldg.abandoned = none ∧ s.ldg.staged ≠ [] ∧ s.ldg.curRow = some 2 ∧
       s.ldg.rowOpen = true ∧ 2 ∈ s.ldg.dataMembers 0 ∧ s.ldg.parityMembers 0 ≠ []) ∧
    (let g : StripeProg := { stripe := stripe, issued := [3, 4], rest := [8] }
     let s := ledger fun l => { l with prog := some g }
     s.ldg.prog = some g ∧ 3 ∈ g.issued ∧ g.issued.erase 3 ≠ [] ∧ g.anchor = none) ∧
    (let g : StripeProg := { stripe := stripe, issued := [3], rest := [8] }
     (ledger fun l => { l with prog := some g }).ldg.prog = some g ∧ 3 ∈ g.issued ∧ g.rest = 8 :: []) ∧
    (let g : StripeProg := { stripe := stripe, issued := [9], rest := [] }
     let s := (ledger fun l => { l with prog := some g, stage := [{ stream := 1, seq := 7, inStripe := some 5 }] }).modPart 0 fun x =>
       { x with stream := { x.stream with id := 1 } }
     s.ldg.prog = some g ∧ g.issued = [9] ∧ g.rest = [] ∧ g.anchor = none ∧ (∀ e ∈ s.ldg.stage, e.seq < 2 ^ 64) ∧
       ({ stream := 1, seq := 7, inStripe := some 5 } : StageEnt) ∈ s.ldg.stage ∧ 0 < s.parts.length ∧ (s.part 0).stream.id = 1) := by
  decide +kernel
theorem witness_ErasesFailuresAndTimers :
    (let j : EraseJob := { why := .reclaim 2, members := [3, 4] }
     (ledger fun l => { l with erase := some j }).ldg.erase = some j ∧ 3 ∈ j.members ∧ j.members.erase 3 ≠ []) ∧
    (let j : EraseJob := { why := .reclaim 2, members := [3] }
     (ledger fun l => { l with erase := some j }).ldg.erase = some j ∧ j.members = [3] ∧ j.why = .reclaim 2) ∧
    (up.ldg.takes 3 = true ∧ up.ldg.prog = none ∧ up.ldg.erase = none ∧ up.ldg.mounted = true ∧ up.ldg.anchor.isSome = true) ∧
    (ledger fun l => { l with prog := some { stripe := stripe, issued := [3] } }).memberWaits 3 = true ∧
    (let s := ledger fun l => { l with members := [.failed, .failed] ++ List.replicate 8 .online }
     s.ldg.takes 3 = true ∧ (s.ldg.members.filter (· == .failed)).length = 2) ∧
    (let e : StageEnt := { stream := 1, seq := 4, audit := true }
     let c : Compl := { cond := .durable 1 4 }
     let s := (ledger fun l => { l with members := [.failed, .failed] ++ List.replicate 8 .online, stage := [e], rows := [(1, 1)] }).modFn 1
       fun a => { a with compl := [c] }
     s.ldg.takes 3 = true ∧ s.ldg.prog = none ∧ s.ldg.erase = none ∧ s.ldg.mounted = true ∧ s.ldg.anchor.isSome = true ∧
       s.ldg.appends = true ∧ e ∈ s.ldg.stage ∧ e.audit = true ∧ c ∈ (s.fn 1).compl ∧ c.cond = .durable e.stream e.seq ∧ c.status = 0 ∧
       ((memberFailedEffect 3 s).fn 1).compl.map (·.status) = [0x10] ∧ (memberFailedEffect 3 s).ldg.sealed = true) ∧
    (let s := ledger fun l => { l with age := 2 ^ 32 }
     s.ldg.anchor = some {} ∧ s.ldg.prog = none ∧ s.ldg.mounted = true ∧ s.ldg.age.toNat / 2 ^ 32 ≠ ({} : Anchor).age.toNat / 2 ^ 32) ∧
    (let s := (up.modPart 0 fun x => { x with stream := { id := 1, closed := false, bundleOpen := true } }).modBeat fun b => { b with periods := 2 ^ 24 }
     (s.part 0).stream.isOpen = true ∧ (s.part 0).stream.bundleOpen = true ∧ s.discards 0 = false ∧
       (s.part 0).stream.bundleBeat + 2 ^ 24 ≤ s.beat.periods) := by decide +kernel
theorem witness_ScrubReadsAndRebuilds :
    (let x := { stripe with lost := true }
     let s := ledger fun l => { l with stripes := [x], prog := some { stripe := stripe }, scrubDue := 1 }
     s.ldg.mounted = true ∧ s.ldg.scrubInterval ≠ 0 ∧ s.ldg.scrubDue ≠ 0 ∧ s.glb.asleep = false ∧ s.ldg.scrubStripe = some (x, false) ∧
       s.ldg.prog.isSome = true ∧ s.ldg.mustRelocate x [] = true ∧ s.ldg.inLog x = true) ∧
    (let s := ledger fun l => { l with stripes := [stripe], scrubNext := 6 }
     s.ldg.scrubStripe = some (stripe, true)) ∧
    (let s := ledger fun l => { l with stripes := [stripe, { stripe with num := 6 }], rebuild := some (3, 5, 6) }
     s.ldg.rebuild = some (3, 5, 6) ∧ (s.ldg.log.find? fun x => decide (5 ≤ x.num)) = some stripe ∧ stripe.num ≤ 6 ∧
       (s.ldg.log.any fun y => decide (stripe.num + 1 ≤ y.num) && decide (y.num ≤ 6)) = true ∧ s.ldg.lostSlots stripe [] = []) ∧
    (let s := ledger fun l => { l with stripes := [stripe], rebuild := some (3, 5, 6), members := List.replicate 3 .failed ++ List.replicate 7 .online }
     (s.ldg.log.any fun y => decide (stripe.num + 1 ≤ y.num) && decide (y.num ≤ 6)) = false ∧ s.ldg.lostSlots stripe [] ≠ []) := by
  decide +kernel

/-! ## Witnesses: store sessions -/

/-- Session 2 of the device. -/
def session (e : Session) : State := up.modSession 2 fun _ => e

theorem witness_StoreSessions :
    (let s := session { state := .connecting, id := some {} }
     (s.session 2).state = .connecting ∧ (s.session 2).id = some {} ∧ ({} : PktId).f < s.fns.length ∧ (s.fn 0).epoch = 0 ∧
       (s.session 2).state ≠ .down) ∧
    (let s := (session { state := .connected }).modPart 0 fun x => { x with ckp := { x.ckp with session := 2, drain := some {} } }
     (s.session 2).state = .connected ∧ (s.session 2).aliveAt + (s.session 2).keepAlive / 2 ≤ s.beat.periods ∧
       (s.part 0).ckp.session = 2 ∧ (s.part 0).ckp.drain.isSome = true) ∧
    (let x := pkt 0x21 [(2, 2, 1), (0xA, 2, 512), (0x20, 1, 7), (0x23, 1, 4)]
     let y : Pkt := { x with ext := some [] }
     let s := hold owned 0 y
     let l := hold (owned.modGlb fun g => { g with disLatch := 2 ^ 39 }) 0 y
     let c := hold (owned.modSession 7 fun e => { e with state := .connected }) 0 y
     admitted s 0 0x21 y = true ∧ y.u 0x20 1 = 7 ∧ y.u 0x21 1 ≤ 1 ∧ y.u 0x23 1 = 4 ∧ y.paramLen = 512 ∧ s.partExists (y.u 0x22 1) = true ∧
       s.latched (32 + 7) = false ∧ (s.session 7).state = .down ∧ admitted l 0 0x21 y = true ∧ l.latched (32 + 7) = true ∧
       admitted c 0 0x21 y = true ∧ (c.session 7).state ≠ .down) ∧
    (let x := pkt 0x22 [(0x20, 1, 7)]
     let s := hold up 0 x
     let d := hold (up.modPart 0 fun y => { y with ckp := { y.ckp with session := 7, drain := some {} } }) 0 x
     admitted s 0 0x22 x = true ∧ x.u 0x20 1 = 7 ∧ (s.parts.any fun y => y.ckp.session = 7 && y.ckp.drain.isSome) = false ∧
       admitted d 0 0x22 x = true ∧ (d.parts.any fun y => y.ckp.session = 7 && y.ckp.drain.isSome) = true) := by decide +kernel

/-! ## Witnesses: windows, completions, BAR2, packets -/

theorem witness_WindowsQueuesAndCompletions :
    (let s := up.modFn 1 fun a => { a with enable := true, sqLog2 := 4, cqLog2 := 4, sqTail := 3, compl := [{}] }
     1 < s.fns.length ∧ s.aiviaOpen 1 1 = true ∧ s.aiviaOpen 0 1 = true ∧ (s.fn 1).fetches = true ∧ s.life = .up ∧ (s.fn 1).cqFull = false ∧
       s.nextPost false (s.fn 1).compl = some {} ∧ up.aiviaOpen 1 1 = true ∧ (up.fn 1).enable = false ∧
       ¬ (s.fn 1).sqSize < occupied 16 (s.fn 1).sqHead (s.fn 1).sqSize ∧ (s.fn 1).sqSize < occupied 17 (s.fn 1).sqHead (s.fn 1).sqSize) := by
  decide +kernel
theorem witness_Bar2ReachesHbm :
    (owned.life = .up ∧ owned.glb.asleep = false ∧ (owned.bar2Wait.any (fun w => w.1 = 1) || owned.bar2Holds 1 0) = false ∧
       owned.bar2Addr 1 (2 ^ 30 - 2) = some (2 ^ 30 - 2) ∧ owned.bar2Addr 1 (2 ^ 30 - 1) = some (2 ^ 30 - 1) ∧
       owned.bar2Addr 1 (2 ^ 30) = none) ∧
    (let s := { owned with bar2Wait := [(1, 0, .read 4)] }
     (s.bar2Wait.any (fun w => w.1 = 1) || s.bar2Holds 1 0) = true) := by decide +kernel
theorem witness_PacketsWithBadHeadersAreRefused :
    (let x := pkt 0x10 [(8, 1, 3)]
     let s := hold owned 0 x
     packetRow (.programLoad 0 .ur) = some (0, 0x10) ∧ s.nextPkt 0 = some (0, x) ∧ x.op = 0x10 ∧ s.headerDetail 0 x = some 0x54) ∧
    (let x := pkt 0x11 [(8, 1, 3)]
     let s := hold owned 0 x
     packetRow (.run 0 []) = some (0, 0x11) ∧ (s.wakeForRun 0).nextPkt 0 = some (0, x) ∧ (s.wakeForRun 0).headerDetail 0 x = some 0x54) ∧
    packetRow (.aiviaNop 0) = some (0, 0x00) ∧ up.nextPkt 0 = none := by decide +kernel
theorem witness_NopCertificateAndStorePort :
    admitted (hold up 0 (pkt 0x00 [])) 0 0x00 (pkt 0x00 []) = true ∧ admitted (hold up 0 (pkt 0x30 [])) 0 0x30 (pkt 0x30 []) = true ∧
    (let x := pkt 0x20 [(0x20, 1, 1), (0x21, 1, 6), (0x22, 1, 128), (0x24, 2, 9000), (0x26, 2, 4094)]
     let s := hold up 0 x
     let c := hold (up.modSession 3 fun e => { e with state := .connected, port := 1 }) 0 x
     admitted s 0 0x20 x = true ∧ x.u 0x20 1 = 1 ∧ x.u 0x21 1 = 6 ∧ x.u 0x22 1 = 128 ∧ x.u 0x24 2 = 9000 ∧ x.u 0x26 2 = 4094 ∧
       (s.sessions.any fun e => e.port = 1 && e.state != .down) = false ∧ admitted c 0 0x20 x = true ∧
       (c.sessions.any fun e => e.port = 1 && e.state != .down) = true) := by decide +kernel
theorem witness_PartitionsAreCreatedResizedDestroyed :
    (let x := pkt 0x01 [(0x20, 1, 0), (0x21, 1, 2), (0x22, 1, 1), (0x24, 2, 1), (0x2C, 2, 1)]
     admitted (hold up 0 x) 0 0x01 x = true ∧ (hold up 0 x).createRefusal (x.part 0) x = none ∧ x.part 0 < up.parts.length ∧
       admitted (hold owned 0 x) 0 0x01 x = true ∧ (hold owned 0 x).createRefusal (x.part 0) x = some (7, 0x52)) ∧
    (let x := pkt 0x02 [(0x21, 1, 1)]
     let s := hold owned 0 x
     let a := s.resizeArc 0 x
     let old := s.arcSeats 0
     let new := s.seatRun a.1.toNat a.2.toNat
     admitted s 0 0x02 x = true ∧ x.part 0 = 0 ∧ (s.part 0).hasTask = false ∧ (s.part 0).hasLaunch = false ∧ s.partBusy 0 = false ∧ 2 ≤ a.2 ∧
       a.2 ≤ (s.maxArc : Int) ∧ s.claimedSeats.length - old.length + new.length ≤ s.maxArc ∧ -((s.part 0).seats : Int) ≤ signedOf (x.u 0x20 1) 8 ∧
       -((s.part 0).seats : Int) ≤ signedOf (x.u 0x21 1) 8 ∧ s.seatsFree (new.filter fun k => !old.contains k) = true ∧
       s.blocksUsed + 2 * (new.length - old.length) * (s.part 0).tallyBlocks ≤ 128) ∧
    (let x := pkt 0x03 []
     admitted (hold owned 0 x) 0 0x03 x = true ∧ ((hold owned 0 x).part 0).hasTask = false ∧ ((hold owned 0 x).part 0).hasLaunch = false ∧
       admitted (hold running 0 x) 0 0x03 x = true ∧ ((hold running 0 x).part 0).hasTask = true) ∧
    (let s := owned.modPart 0 fun x => { x with destroying := some {} }
     (s.part 0).destroying = some {} ∧ ({} : PktId).f < s.fns.length ∧ (s.fn 0).epoch = 0) := by decide +kernel
theorem witness_BalanceAndPreempt :
    (let x := pkt 0x04 [(0x20, 1, 1)]
     admitted (hold loaded 0 x) 0 0x04 x = true ∧ ((hold loaded 0 x).part 0).hasTask = false ∧ ((hold loaded 0 x).part 0).hasLaunch = false ∧
       admitted (hold running 0 x) 0 0x04 x = true ∧ ((hold running 0 x).part 0).hasTask = true) ∧
    (let x := pkt 0x05 []
     admitted (hold loaded 0 x) 0 0x05 x = true ∧ ((hold loaded 0 x).part 0).preemptible = false ∧
       admitted (hold running 0 x) 0 0x05 x = true ∧ ((hold running 0 x).part 0).preemptible = true ∧ bitOf (x.u 0x20 1) 0 = false) ∧
    (let x := pkt 0x05 [(0x20, 1, 1)]
     admitted (hold running 0 x) 0 0x05 x = true ∧ bitOf (x.u 0x20 1) 0 = true) := by decide +kernel
theorem witness_GlueWritesConsumeSlots :
    (let x (n v : Nat) := pkt 0x31 [(0x20, 1, n), (0x28, 8, v)]
     let ok (g : Glue) (n v : Nat) := admitted (hold (up.modGlue fun _ => g) 0 (x n v)) 0 0x31 (x n v)
     let spent : Glue := { used := (List.range 16).map glueSlots }
     let s := up.modGlue fun _ => spent
     ok {} 16 0 = true ∧ ok {} 15 0 = true ∧ ok {} 0 79 = true ∧ up.glueRange 0 79 = false ∧ ok {} 0 100 = true ∧ up.glueRange 0 100 = true ∧
       up.glue.value 0 = 100 ∧ ok {} 0 80 = true ∧ up.glueRange 0 80 = true ∧ up.glue.value 0 ≠ 80 ∧ up.glue.left 0 ≠ 0 ∧ up.glue.jobs = [] ∧
       ok spent 0 80 = true ∧ s.glueRange 0 80 = true ∧ s.glue.left 0 = 0 ∧ glueSlots 0 ≠ 1 ∧ ok spent 2 1 = true ∧ s.glueRange 2 1 = true ∧
       s.glue.value 2 ≠ 1 ∧ s.glue.left 2 = 0 ∧ glueSlots 2 = 1 ∧ s.glue.jobs = []) ∧
    (let j : GlueJob := { setting := 0, value := 80, who := .packet {} }
     let s := up.modGlue fun g => { g with jobs := [j] }
     s.glue.jobs = [j] ∧ j.who = .packet {} ∧ ({} : PktId).f < s.fns.length ∧ (s.fn 0).epoch = 0) := by decide +kernel
set_option maxRecDepth 100000 in
theorem witness_ProgramLoadsAndItsEnd :
    (let x := pkt 0x10 [(0x30, 8, 256)]
     let s := hold owned 0 x
     admitted s 0 0x10 x = true ∧ (s.part 0).shownState = .idle ∧ (s.part 0).load = none ∧ s.imageOf 0 x .ur = none ∧
       s.imageOf 0 x (.ok image) = some image ∧ s.loadRefusal 0 image = none ∧
       s.imageOf 0 x (.ok (List.replicate 256 0)) = some (List.replicate 256 0) ∧ (s.loadRefusal 0 (List.replicate 256 0)).isSome = true ∧
       admitted (hold running 0 x) 0 0x10 x = true ∧ ((hold running 0 x).part 0).shownState = .running) ∧
    (let s := owned.modPart 0 fun x => { x with load := some { image := image } }
     (s.part 0).load = some { image := image } ∧ (s.part 0).hasTask = false ∧ (s.activeBenches 0).Nodup ∧ (s.activeBenches 0)[1]? = some 1 ∧
       1 < (s.bench 1).cores.length ∧ (s.part 0).ckp.buddyOn = false ∧ ({} : PktId).f < s.fns.length ∧ (s.fn 0).epoch = 0 ∧
       ((s.modPart 0 fun x => { x with ckp := { x.ckp with buddyOn := true } }).part 0).ckp.buddyOn = true) := by decide +kernel

/-- A page of a container: its first 4,092 bytes and their CRC-32C. -/
def sealPage (b : Bytes) : Bytes := b ++ leBytes 4 (crc32c b).toNat
/-- The bodies of a superblock and of a header of generation 1, of a container of no extra page. -/
def sbBody : Bytes := bytesOf 4092 [(0, 8, 0x54504B4333314E4C), (8, 2, 1), (0xA, 1, 2), (0x10, 4, 3584)]
def hdBody : Bytes := bytesOf 4092 [(0, 8, 0x48474B4333314E4C), (8, 8, 1)]
def container : Container := { superblock := sealPage sbBody, headers := [sealPage hdBody], extents := [], pages := [] }

theorem sealPage_crc (b : Bytes) (h : b.length = 0xFFC) :
    (crc32c (Bytes.sub (sealPage b) 0 0xFFC)).toNat = Bytes.nat (sealPage b) 0xFFC 4 := by
  rw [sealPage, Bytes.sub_append_left b _ _ h, Bytes.nat_append_leBytes b _ _ _ h (crc32c b).isLt]
theorem container_superblock : superblockOk container.superblock 2 0 3584 = true := by
  have h := sealPage_crc sbBody (by simp [sbBody, bytesOf, Memory.read])
  have r : (Bytes.sub (sealPage sbBody) 0 8 = [0x4C, 0x4E, 0x31, 0x33, 0x43, 0x4B, 0x50, 0x54] ∧ Bytes.nat (sealPage sbBody) 8 2 = 1) ∧
      (Bytes.nat (sealPage sbBody) 0xA 1 = 2 ∧ Bytes.nat (sealPage sbBody) 0xC 4 = 0 ∧ Bytes.nat (sealPage sbBody) 0x10 4 = 3584) := by
    decide +kernel
  simp [superblockOk, container, h, r]
theorem container_newest : foundNewest container = some (sealPage hdBody) := by
  have h := sealPage_crc hdBody (by simp [hdBody, bytesOf, Memory.read])
  have r : (Bytes.sub (sealPage hdBody) 0 8 = [0x4C, 0x4E, 0x31, 0x33, 0x43, 0x4B, 0x47, 0x48] ∧
      Bytes.sub (sealPage hdBody) 0x10 8 = Bytes.sub (sealPage sbBody) 0x18 8) ∧
      (crc32c (Bytes.sub (foundArea container (Bytes.nat (sealPage hdBody) 8 8)) 0 (16 * Bytes.nat (sealPage hdBody) 0x2C 4))).toNat =
        Bytes.nat (sealPage hdBody) 0x38 4 := by decide +kernel
  have k : foundHeaderOk container (sealPage hdBody) = true := by simp [foundHeaderOk, h, r]; simp [container]
  simp [foundNewest, show container.headers = [sealPage hdBody] from rfl, k]

theorem witness_CheckpointPackets :
    (let x := pkt 0x18 [(0x20, 1, 2), (0x21, 1, 1), (0x22, 2, 1), (0x24, 4, 1)]
     let s := hold (loaded.modSession 2 fun e => { e with state := .connected, sizeLbas := 2 ^ 30 }) 0 x
     admitted s 0 0x18 x = true ∧ s.armRefusal 0 x container = none ∧ x.armNew = true ∧ admitted (hold loaded 0 x) 0 0x18 x = true ∧
       (hold loaded 0 x).armRefusal 0 x container = some (7, 0)) ∧
    admitted (hold loaded 0 (pkt 0x19 [])) 0 0x19 (pkt 0x19 []) = true ∧
    (let x := pkt 0x1B [(0x28, 8, 65536)]
     let s := hold loaded 0 x
     admitted s 0 0x1B x = true ∧ (s.part 0).hasTask = false ∧ (s.part 0).hasLaunch = false ∧ (s.part 0).load = none ∧ (s.part 0).await = none ∧
       x.u 0x28 8 ≠ 0 ∧ x.u 0x28 8 % 65536 = 0 ∧ x.u 0x28 8 + s.buddySlots 0 * 234881024 ≤ (s.part 0).hbmBytes ∧
       admitted (hold running 0 x) 0 0x1B x = true ∧ ((hold running 0 x).part 0).hasTask = true ∧
       admitted (hold loaded 0 (pkt 0x1B [])) 0 0x1B (pkt 0x1B []) = true ∧ (pkt 0x1B []).u 0x28 8 = 0) ∧
    (let x := pkt 0x1A []
     let s := hold (loaded.modPart 0 fun y => { y with ckp := { y.ckp with armed := true } }) 0 x
     admitted s 0 0x1A x = true ∧ (s.part 0).ckp.armed = true ∧ (s.part 0).shownState = .loaded ∧ (s.part 0).load = none ∧
       (s.part 0).await = none ∧ (s.activeBenches 0).length = s.nSlots 0 ∧
       s.nSlots 0 = 2 ∧ (s.part 0).ckp.regionPages = 0 ∧ s.scopePages 0 = 3584 ∧ (s.part 0).ckp.buddyOn = false ∧
       foundNewest { container with headers := [] } = none ∧ admitted (hold loaded 0 x) 0 0x1A x = true ∧
       ((hold loaded 0 x).part 0).ckp.armed = false) := by decide +kernel
theorem witness_LedgerPacketsAndExport :
    (let x := pkt 0x28 []
     let s := hold up 0 x
     admitted s 0 0x28 x = true ∧ s.glue.value 2 = 0 ∧ s.parts.any (·.used) = false ∧ s.ldg.erase = none ∧ s.ldg.prog = none ∧
       s.ldg.rebuild = none ∧ 1 ≤ s.ldg.geometry.luns ∧ s.ldg.geometry.luns ≤ 4 ∧ 16592 ≤ s.ldg.geometry.pageBytes) ∧
    (let x := pkt 0x29 [(0x20, 1, 9)]
     let s := hold (ledger fun l => { l with members := l.members.set 9 .absent }) 0 x
     admitted s 0 0x29 x = true ∧ x.u 0x20 1 = 9 ∧ s.latched (16 + 9) = false ∧ s.ldg.members.getD 9 .online = .absent ∧ s.ldg.rebuild = none ∧
       s.ldg.erase = none ∧ s.ldg.geometry.luns ≤ s.glue.value 10 ∧ geometryOk s.ldg.geometry [s.ldg.geometry] = true) ∧
    (let x := pkt 0x2A []
     let s := hold (ledger fun l => { l with members := List.replicate 3 .failed ++ List.replicate 7 .online }) 0 x
     admitted (hold up 0 x) 0 0x2A x = true ∧ (hold up 0 x).ldg.mustSeal = false ∧ admitted s 0 0x2A x = true ∧ s.ldg.mustSeal = true) ∧
    (let x := pkt 0x2B [(0x20, 4, 1)]
     let s := hold (ledger fun l => { l with dir := [(1, 0, false, 0)] }) 0 x
     admitted s 0 0x2B x = true ∧ s.ldg.dir.any (fun d => d.1 = x.u 0x20 4) = true) ∧
    (let x (size : Nat) := pkt 0x2C [(0x20, 4, 1), (0x30, 8, 1), (0x40, 8, size)]
     let es := (hold owned 0 (x 0)).ldg.exported 1 0 0 []
     admitted (hold owned 0 (x 256)) 0 0x2C (x 256) = true ∧ (withGaps 0 1 0 0 es).length = 1 ∧ (x 256).u 0x40 8 = 256 * 1 ∧
       admitted (hold owned 0 (x 255)) 0 0x2C (x 255) = true ∧ (x 255).u 0x40 8 < 256 * 1 ∧
       admitted (hold owned 1 (x 256)) 1 0x2C (x 256) = true ∧ ((hold owned 1 (x 256)).part 0).stream.id ≠ 1) := by decide +kernel

/-! ## Witnesses: reconciliation, self-test, calibration, firmware -/

theorem witness_ReconcileSuppliesAndSelfTests :
    (let x := pkt 0x0A [(0x20, 1, 2), (0x21, 1, 7)]
     let s := hold (up.modGlb fun g => { g with disLatch := 2 ^ 39 }) 0 x
     admitted s 0 0x0A x = true ∧ x.u 0x20 1 ≤ 2 ∧ x.u 0x21 1 < s.unitCount (x.u 0x20 1) ∧ s.latched (16 * x.u 0x20 1 + x.u 0x21 1) = true) ∧
    (let x := pkt 0x32 [(0x20, 2, 5)]
     let s := hold (owned.modBench 12 fun y => { y with state := .spare }) 0 x
     admitted s 0 0x32 x = true ∧ x.u 0x20 2 % 2 ^ 13 < 2 ^ s.nSeats ∧ x.u 0x20 2 % 2 ^ 13 ≠ 0 ∧ (s.bench 0).testCounts = false ∧
       s.testable 0 = false ∧ (s.bench 2).testCounts = false ∧ s.testable 2 = true) ∧
    (let s := up.modBench 4 fun y => { y with testDeferred := true }
     s.beat.gateOpen = true ∧ (s.bench 4).testDeferred = true ∧ s.testable 4 = true) ∧
    (let w : BenchTest := { why := .selfTest, former := .spare, endAt := 100 }
     let s := (up.modBench 4 fun y => { y with state := .testing, test := some w }).modGlb fun g => { g with tests := [{ left := 16 }] }
     (s.bench 4).test = some w ∧ w.why = .selfTest ∧ w.endAt ≤ s.beat.periods ∧ (s.bench 4).state = .testing ∧
       s.glb.tests = [{ left := 16 }] ∧ (16 : Nat) = 2 ^ 4 ∧ ({} : PktId).f < s.fns.length ∧ (s.fn 0).epoch = 0) := by decide +kernel
theorem witness_CalibrationAndFirmware :
    (let x := pkt 0x33 [(0x20, 1, 1)]
     let busy := up.modGlb fun g => { g with cal := some {} }
     admitted (hold up 0 x) 0 0x33 x = true ∧ x.u 0x20 1 ≤ 1 ∧ (hold up 0 x).glb.cal = none ∧ (hold up 0 x).quiescent = true ∧
       admitted (hold busy 0 x) 0 0x33 x = true ∧ (hold busy 0 x).glb.cal.isSome = true ∧ admitted (hold running 0 x) 0 0x33 x = true ∧
       (hold running 0 x).glb.cal = none ∧ (hold running 0 x).quiescent = false ∧ busy.glb.cal = some {} ∧ ({} : CalJob).begun = none ∧
       busy.beat.gateOpen = true ∧ busy.quiescent = true) ∧
    (let s := up.modGlb fun g => { g with cal := some { begun := some (5, 100) } }
     s.glb.cal = some { begun := some (5, 100) } ∧ 100 ≤ s.beat.periods ∧ ({} : PktId).f < s.fns.length ∧ (s.fn 0).epoch = 0) ∧
    (let x := pkt 0x34 [(0x30, 4, 2)]
     let s := hold up 0 x
     admitted s 0 0x34 x = true ∧ ([1, 2] : Bytes).length = x.u 0x30 4 ∧ s.fwAuthentic [1, 2] = false) := by decide +kernel

/-! ## Witnesses: interrupts, resets, power -/

theorem witness_EoiAndUnmaskSendMessages :
    (let s := up.modIrq fun i => { i with summaryEnable := -1, pfCompletion := true, msixEnabled := true }
     s.running = true ∧ (1#32).getLsbD 0 = true ∧ s.irqPending = true ∧ s.irq.msixEnabled = true ∧ up.irqPending = false ∧
       (s.modIrq fun i => { i with msixEnabled := false }).irqPending = true) := by decide +kernel
theorem witness_PackageResetsAndStops :
    up.ldg.prog = none ∧ up.glue.jobs = [] ∧ up.smbusAnswers = true ∧ (1#32).getLsbD 0 = true ∧ up.running = true := by decide +kernel
theorem witness_BenchAndEngineResets :
    (let b : W32 := 0x102
     let e : W32 := 0x8304
     owned.running = true ∧ b.getLsbD 0 = false ∧ bitsOf b.toNat 11 8 = 1 ∧ 1 < owned.benches.length ∧
       owned.resetDiscarded 1 1 = false ∧ (owned.modBench 1 fun x => { x with resetUntil := some 5 }).resetDiscarded 1 1 = true ∧ b.getLsbD 1 = true ∧ owned.benchPart 1 = some 0 ∧ (owned.bench 1).state = .active ∧
       (owned.part 0).ckp.buddyOn = false ∧ (owned.part 0).state ≠ .free ∧ up.benchPart 1 = none ∧ up.resetDiscarded 1 1 = false ∧ up.resetDiscarded 3 0 = false ∧ 3 < up.benches.length ∧
       e.getLsbD 0 = false ∧ e.getLsbD 1 = false ∧ e.getLsbD 2 = true ∧ bitsOf e.toNat 15 13 = 4 ∧ bitsOf e.toNat 11 8 = 3 ∧
       up.benchPart 3 = none) := by decide +kernel
theorem witness_FunctionLevelResets : running.running = true ∧ 0 + 1 < running.fns.length ∧ (running.part 0).used = true ∧
    (running.part 0).destroying = none ∧ 0 < running.fns.length := by decide +kernel
theorem witness_BenchPowerAndPackageSleep :
    (let s := up.modBench 5 fun y => { y with powerReq := 2 }
     let l := up.modBench 5 fun y => { y with power := 2 }
     s.beat.gateOpen = true ∧ 5 < s.nSeats ∧ 5 < s.benches.length ∧ (s.bench 5).powerMove = none ∧ (s.bench 5).power ≠ (s.bench 5).powerReq ∧
       s.glb.asleep = false ∧ (s.bench 5).power ≠ 2 ∧ s.powerOk 5 (s.bench 5).powerReq = true ∧ (l.bench 5).power = 2 ∧
       (l.bench 5).power ≠ (l.bench 5).powerReq ∧ (l.bench 5).test = none) ∧
    (let s := up.modBench 5 fun y => { y with powerMove := some (2, 100) }
     (s.bench 5).powerMove = some (2, 100) ∧ 100 ≤ s.beat.periods) ∧
    (let s := up.modGlb fun g => { g with sleep := true }
     s.beat.gateOpen = true ∧ s.glb.sleep = true ∧ s.glb.asleep = false ∧ s.glb.sleepMove = none ∧ s.glb.waking = false ∧ s.glb.ready = true ∧
       s.mayRest = true ∧ (s.modGlb fun g => { g with sleepMove := some 100 }).glb.sleepMove = some 100 ∧ 100 ≤ s.beat.periods ∧
       s.running = true ∧ (s.modGlb fun g => { g with asleep := true }).glb.asleep = true ∧ (0#32).getLsbD 0 = false) := by decide +kernel

/-! ## Witnesses: GPIO, SMBus, registers, the invariant -/

theorem witness_GpioWritesAndFilterChanges :
    (let s := up.modGpio fun g => { g with differing := g.differing.set 31 1, intMode := 2 ^ 62 }
     s.running = true ∧ 3 < s.gpio.funcEn.length ∧ s.gpio.debounce.getD 31 0 < s.gpio.differing.getD 31 0 ∧
       s.gpio.selects 31 (!s.gpio.filtered.getLsbD 31) = true ∧ s.gpio.intStatus = 0 ∧
       (s.modGpio fun g => { g with intMode := 0 }).gpio.selects 31 (!s.gpio.filtered.getLsbD 31) = false) := by decide +kernel
theorem witness_TemperaturesAndSmbus : (up.modMgmt fun m => { m with sampleIn := 0 }).mgmt.sampleIn = 0 ∧ up.running = true ∧
    up.smbusAnswers = true := by decide +kernel
theorem witness_RegisterWrites : up.running = true ∧ State.reset.glue.event.getLsbD 0 = false ∧ 0x100002 % 4 ≠ 0 := by decide +kernel
theorem witness_LowHalfReadLatchesTheHighHalf :
    (let s := { up with hiLatch := up.hiLatch.set 0 [(0x100008, 7)] }
     0 < s.hiLatch.length ∧ s.barReg 0 0x100008 = some (true, 0) ∧ s.barReg 0 0x10000C = none ∧ s.highOf 0 0x10000C = some 0 ∧
       s.latchedHigh 0 0x100008 = some 7 ∧ (s.barReg 0 0x200000).map (·.1) = some false ∧ s.barReg 0 0x3FFFFFC = none ∧
       s.highOf 0 0x3FFFFFC = none) := by decide +kernel
theorem witness_FusesAndSpentSlotsStay : up.slotsWf = true := by decide +kernel
theorem witness_StepsKeepTheInvariant : State.reset.storesWf = true ∧ State.reset.unitsWf = true ∧ State.reset.slotsWf = true ∧
    State.reset.pending = [] ∧ State.reset.beat.started = false := by decide +kernel

/-! ## Values worked out in the spec -/

/-- The worked example of 05: a tie at an odd quotient, a tie at an even one, and a saturation. -/
theorem test_requantise : requantise 70803456 14 = (4322, 0) ∧ requantise 70787072 14 = (4320, 0) ∧ requantise 600000000 14 = (32767, 1) := by
  decide +kernel
/-- The worked example of 05: a table with E_IN -12 and E_TAB -22. -/
theorem test_table : (tableEval 1234 (bytesOf 1044 [(3, 1, 244), (4, 1, 234), (0x10 + 4 * 132, 4, 1240000), (0x10 + 4 * 133, 4, 1300000)]) (-14)) =
    (5036, 0) := by decide +kernel
/-- The worked example of 04: a JOG of 40 cc at beat offset 303, cc 57, behind hurdle 5. -/
theorem test_jogEntry : Cmd.ofBytes (bytesOf 32 [(0, 4, 0x00390001), (4, 4, 0x12F), (0x10, 4, 0x105), (0x14, 4, 0x28)]) =
    { opcode := 1, issueCc := 57, issueBeat := 303, hurdle := 5, hurdleEn := true, opA := 40 } := by decide +kernel
/-- The worked example of 08: the read cycles of each 10 cc under the default split. -/
theorem test_readCycles : ((List.range 10).filter fun i => (frameClasses [10, 6, 4] 20 [0, 0, 0]).getD i 9 = 0) = [0, 3, 4, 6, 9] := by decide +kernel
/-- The worked example of 10: RS-48's times, scheduled and in credit mode, and the reciprocal of a diagonal of 3. -/
theorem test_solveTimes : (let t := solveTime 0 84 2364 188 64
    t.setup = 3140 ∧ t.iters.sum = 3204 ∧ t.write = 204 ∧ (t.iters.take 4).sum = 84 + 2364 + 64 + 188 + 64) ∧ (recip (3 * 2 ^ 32)).1 = 1431655765 := by
  decide +kernel
/-- The worked example of 12: stripe 1,000,003 and its members. -/
theorem test_stripeMembers : memberP 1000003 = 3 ∧ memberQ 1000003 = 4 ∧ (List.range 8).map (memberD 1000003) = [5, 6, 7, 8, 9, 0, 1, 2] := by
  decide
/-- The worked example of 13: the container of 43,520 pages. -/
theorem test_container : containerLbas 43520 = 1392983 := by decide +kernel
/-- The worked example of 20: a physical read of a queue's base, and a virtual function's reads of two partitions' entries. -/
theorem test_addresses :
    (let s := (owned.modQueue 5 1 19 fun q => { q with base := 0x77 }).modPart 1 fun x => { x with valid := true, classBT := true }
     s.read64 0 0x1550260 = 0x77 ∧ s.barReg 2 0x80101C = none ∧ (s.barReg 2 0x80105C).isSome = true ∧
       (s.modGlb fun g => { g with asleep := true }).read64 0 0x1550260 = 0) := by decide +kernel
/-- The worked example of 18: the lamp on pin 9. -/
theorem test_gpioOutWrite : (match exec (.gpioOutWrite 0 0x0000020000000200) up with
    | .next t => t.gpio.outValue
    | _ => 0) = 0x200 := by decide +kernel
/-- The worked example of 18: pin 30's filtered level rises, and the capture reads 0x11E. -/
theorem test_gpioCapture : (match exec (.gpioFilterChange 30) (up.modGpio fun g =>
      { g with debounce := g.debounce.set 30 2000, differing := g.differing.set 30 2001, intMode := 3 <<< 60 }) with
    | .next t => (t.gpio.intStatus, t.read32 0 0x400034)
    | _ => (0, 0)) = (0x40000000, 0x11E) := by decide +kernel
set_option maxRecDepth 100000 in
/-- The worked example of 14: the views of B7 disagree at two gates, and the capture reads 0x170. -/
theorem test_disagreeCapture : (match exec (.gate {}) ((running.modBeat fun b => { b with gateOpen := false }).modBench 7 fun x =>
      { x with supplyBad := 16, disagree := 1 }) with
    | .next t => (t.glb.disCapture, t.glb.disLatch, (t.bench 7).state)
    | _ => (0, 0, .active)) = (0x170, 0x80, .fenced) := by decide +kernel
/-- The worked example of 17: a second write of RETAIN_DAYS is refused with WRITE_LOCKED, and the capture holds its register. -/
theorem test_retainDaysLocked :
    (let x := pkt 0x31 [(0x20, 1, 2), (0x28, 8, 3000)]
     match exec (.glueWrite 0) (hold (up.modGlue fun g => { g with values := g.values.set 2 2557, used := g.used.set 2 1 }) 0 x) with
     | .next t => (t.glue.lockOffset, t.glue.lockFn, (t.fn 0).compl.map (·.status))
     | _ => (0, 9, [])) = (0x300010, 0, [9]) := by decide +kernel
/-- R56: the lock starts the beat counter at zero and the start-up test of every bench. -/
theorem test_lock : (match exec .lock State.reset with
    | .next t => (t.beat.count, t.beat.locked, (t.bench 12).state)
    | _ => (9, false, .active)) = (0, true, .testing) := by decide +kernel
/-- R521: raw bits in which the sync mark stands nowhere show no slot, at no width of the search. -/
theorem test_searchSlot : searchSlot 0 0 64 0 0 = none := by decide +kernel
/-- R15's byte order, and the CRC-32C of "123456789" (public check value). -/
theorem test_bytesAndCrc : leBytes 4 0x12345678 = [0x78, 0x56, 0x34, 0x12] ∧
    crc32c [0x31, 0x32, 0x33, 0x34, 0x35, 0x36, 0x37, 0x38, 0x39] = 0xE3069283 := by decide +kernel

end Sys2Proof.Tests
end

section
/-! R2, R140, R567, R638: the invariant of O57 is not inductive. It asks for the canonical form of the data of issued DMA requests, and
says nothing of requests that wait to be issued (`Tile.toIssue`, `Dowel.parts`); the issue of one puts its data among the issued. -/

namespace Sys2Proof.Machine

/-- A store lists bytes in the benches and in HBM only, and no message touches those. -/
theorem settle_storesWf (a b : State) : (settle a b).storesWf = b.storesWf := by
  simp [State.storesWf]

/-- A request that waits to be issued, whose data lists a zero byte. -/
def zeroByteReq : Req := { buf := [(0, 0)] }

/-- A run of one bench, held in a pause in which its DMA engines still issue (State.dmaRuns); a dowel transfer of core 0 has one request
left. -/
def zeroByteWaits : State :=
  { beat := { started := true }
    parts := { state := .running, valid := true, seats := 1, task := some { credit := true }, stop := .pause 5 } :: List.replicate 5 {}
    benches := { state := .active, cores := [{ dma := { dowels := [{ parts := [zeroByteReq] }] } }, {}] } :: List.replicate 12 {} }

theorem zeroByteWaits_meets_invariant :
    zeroByteWaits.storesWf = true ∧ zeroByteWaits.unitsWf = true ∧ zeroByteWaits.slotsWf = true := by decide +kernel

/-- The engine issues the request, which then stands among its reads. -/
theorem zeroByteWaits_cycle_breaks_storesWf : zeroByteWaits.coreCycle.storesWf = false := by decide +kernel

/-- Refutes O57: one core cycle issues a waiting request whose data is not in canonical form, which the invariant does not exclude. -/
theorem not_stepsKeepTheInvariant : ¬ Obligations.StepsKeepTheInvariant := by
  intro h
  obtain ⟨hstores, hunits, hslots⟩ := zeroByteWaits_meets_invariant
  have hstep : step zeroByteWaits = .next (settle zeroByteWaits zeroByteWaits.coreCycle) := rfl
  obtain ⟨hkept, -, -⟩ := h _ _ hstores hunits hslots hstep
  rw [settle_storesWf, zeroByteWaits_cycle_breaks_storesWf] at hkept
  cases hkept

end Sys2Proof.Machine
end

section
/-! SUPPORT. The last act of a command that touches no cause of a message: it leaves the state as it is. -/

namespace Sys2Proof.Machine

section
variable {a b : State}

/-- No virtual function has a newly set fault where no AIVIA window has changed. -/
theorem vfRaised_of_fns_eq (hf : b.fns = a.fns) : vfRaised a b = [] := by
  simp [vfRaised, State.fn, hf]

theorem settle_of_causes_eq (hf : b.fns = a.fns) (hp : b.irqPending = a.irqPending) : settle a b = b := by
  simp [settle, vfRaised_of_fns_eq hf, hp]

theorem settle_self (s : State) : settle s s = s := settle_of_causes_eq rfl rfl

end

end Sys2Proof.Machine
end

section
/-! R17, R18, R813: 32-bit reads of BAR0 and the latches of high halves (O54). -/

namespace Sys2Proof.Machine

theorem lookup_filter_fst_ne {β : Type} (xs : List (Nat × β)) (k : Nat) : (xs.filter fun x => x.1 != k).lookup k = none := by
  rw [List.lookup_eq_none_iff]
  intro x hx
  have hk : x.1 ≠ k := by simpa using (List.mem_filter.1 hx).2
  simpa using hk.symm

section
variable {s : State} {fn a : Nat} {v : W64}

/-! ### What a read returns -/

theorem State.read32_of_reg {w : Bool} (ha : a % 4 = 0) (h : s.barReg fn a = some (w, v)) : s.read32 fn a = v.setWidth 32 := by
  simp [State.read32, ha, h]

theorem State.read32_of_latched {l : W32} (ha : a % 4 = 0) (h : s.barReg fn a = none) (hv : s.highOf fn a = some v)
    (hl : s.latchedHigh fn (a - 4) = some l) : s.read32 fn a = l := by
  simp [State.read32, ha, h, hv, hl]

theorem State.read32_of_vacant (ha : a % 4 = 0) (h : s.barReg fn a = none) (hv : s.highOf fn a = none) : s.read32 fn a = 0 := by
  simp [State.read32, ha, h, hv]

/-! ### What a read does to the latches -/

/-- A read touches the latches only. -/
theorem State.latchRead_cases (s : State) (fn a : Nat) : ∃ ls, s.latchRead fn a = { s with hiLatch := ls } := by
  unfold State.latchRead
  split
  · exact ⟨s.hiLatch, rfl⟩
  · split
    · exact ⟨_, rfl⟩
    · exact ⟨s.hiLatch, rfl⟩
    · split
      · exact ⟨_, rfl⟩
      · exact ⟨s.hiLatch, rfl⟩

theorem State.latchRead_of_wide (ha : a % 4 = 0) (h : s.barReg fn a = some (true, v)) :
    s.latchRead fn a =
      { s with hiLatch := s.hiLatch.modify fn fun xs => (a, (v >>> 32).setWidth 32) :: xs.filter fun x => x.1 != a } := by
  simp [State.latchRead, ha, h]

theorem State.latchRead_of_narrow (h : s.barReg fn a = some (false, v)) : s.latchRead fn a = s := by
  simp [State.latchRead, h]

theorem State.latchRead_of_high (ha : a % 4 = 0) (h : s.barReg fn a = none) (hv : s.highOf fn a = some v) :
    s.latchRead fn a = { s with hiLatch := s.hiLatch.modify fn fun xs => xs.filter fun x => x.1 != a - 4 } := by
  simp [State.latchRead, ha, h, hv]

theorem State.latchRead_of_vacant (h : s.barReg fn a = none) (hv : s.highOf fn a = none) : s.latchRead fn a = s := by
  simp [State.latchRead, h, hv]

/-! ### The latches of one function, after they have changed -/

theorem State.latchedHigh_modify_same (f : List (Nat × W32) → List (Nat × W32)) (x : Nat) (hfn : fn < s.hiLatch.length) :
    ({ s with hiLatch := s.hiLatch.modify fn f } : State).latchedHigh fn x = (f (s.hiLatch.getD fn [])).lookup x := by
  rw [State.latchedHigh, getD_modify_same _ _ _ _ hfn]

theorem State.latchedHigh_modify_ne (f : List (Nat × W32) → List (Nat × W32)) (x : Nat) {g : Nat} (hg : g ≠ fn) :
    ({ s with hiLatch := s.hiLatch.modify fn f } : State).latchedHigh g x = s.latchedHigh g x := by
  rw [State.latchedHigh, getD_modify_ne _ _ _ _ _ hg.symm, State.latchedHigh]

end

/-- A read causes no message: its next state is its effect. -/
theorem exec_lowHalfRead (s : State) (fn a : Nat) :
    exec (.lowHalfRead fn a) s = .next ((s.latchRead fn a).emit (.bar0Read fn a (s.read32 fn a))) := by
  obtain ⟨ls, h⟩ := State.latchRead_cases s fn a
  show done s (lowHalfReadEffect fn a) = _
  rw [done_next, lowHalfReadEffect, h]
  exact (settle_of_causes_eq rfl rfl).symm

/-- Settles O54: a read is the register's low half, or the latch; what happens to the latches is a case for each thing an offset can hold. -/
theorem lowHalfReadLatchesTheHighHalf : Obligations.LowHalfReadLatchesTheHighHalf := by
  intro s fn a hfn ha
  simp only [exec_lowHalfRead]
  refine ⟨fun v h => ⟨_, rfl, ?_⟩, fun v h => ?_, fun v l h hv hl => ⟨_, rfl, ?_⟩, fun h hv => ?_⟩
  · rw [State.read32_of_reg ha h, State.latchRead_of_wide ha h]
    refine ⟨rfl, ?_, fun g hg x => State.latchedHigh_modify_ne _ x hg⟩
    exact (State.latchedHigh_modify_same _ a hfn).trans List.lookup_cons_self
  · rw [State.read32_of_reg ha h, State.latchRead_of_narrow h]
    rfl
  · rw [State.read32_of_latched ha h hv hl, State.latchRead_of_high ha h hv]
    exact ⟨rfl, (State.latchedHigh_modify_same _ (a - 4) hfn).trans (lookup_filter_fst_ne _ _)⟩
  · rw [State.read32_of_vacant ha h hv, State.latchRead_of_vacant h hv]
    rfl

end Sys2Proof.Machine
end

section
/-! R6, R8, R10, R645, R808, R811, R812: what a write of BAR0 does (O53). -/

namespace Sys2Proof.Machine

section
variable {s : State} {fn a : Nat} {p : Place} {x : W64}

/-! ### Who may write -/

theorem State.mayWrite_of_not_running (h : s.running = false) (p : Place) : s.mayWrite fn p = false := by
  simp [State.mayWrite, h]

/-- Below 0x1000000 lie neither bench windows nor AIVIA windows (R807). -/
theorem place_below_benches (ha : a < 0x1000000) : (∀ b off, place a ≠ .bench b off) ∧ ∀ f off, place a ≠ .aivia f off := by
  simp only [place, ha, if_true]
  split_ifs <;> simp

/-- Virtual functions write bench windows and AIVIA windows only (R809). -/
theorem State.mayWrite_vf_below_benches (hfn : fn ≠ 0) (ha : a < 0x1000000) : s.mayWrite fn (place a) = false := by
  obtain ⟨hb, hf⟩ := place_below_benches ha
  unfold State.mayWrite
  cases hp : place a with
  | bench b off => exact absurd hp (hb b off)
  | aivia f off => exact absurd hp (hf f off)
  | _ => simp [hfn]

/-- While the device runs, the physical function writes where it may read. -/
theorem State.mayWrite_pf (hs : s.running = true) (hr : s.mayRead 0 p = true) : s.mayWrite 0 p = true := by
  simp [State.mayWrite, hs, hr]

theorem State.mayRead_pf_beat (s : State) (off : Nat) : s.mayRead 0 (.beat off) = true := by simp [State.mayRead]
theorem State.mayRead_pf_irq (s : State) (off : Nat) : s.mayRead 0 (.irq off) = true := by simp [State.mayRead]
theorem State.mayRead_pf_glue (s : State) (off : Nat) : s.mayRead 0 (.glue off) = true := by simp [State.mayRead]
theorem State.mayRead_pf_ring (s : State) (off : Nat) : s.mayRead 0 (.ring off) = true := by simp [State.mayRead]

/-! ### What an access reaches -/

theorem State.write32_of_not_mayWrite (h : s.mayWrite fn (place a) = false) (v : W32) : s.write32 fn a v = s := by
  simp [State.write32, h]

theorem State.write32_of_narrow (hp : place a = p) (hw : s.mayWrite fn p = true) (hr : s.regAt p = some (false, x)) (v : W32) :
    s.write32 fn a v = s.writeNarrow fn p v := by
  simp [State.write32, hp, hw, hr]

theorem State.write32_of_low (hp : place a = p) (hw : s.mayWrite fn p = true) (hr : s.regAt p = some (true, x)) (v : W32) :
    s.write32 fn a v = s.writeWide fn p .low (v.setWidth 64) := by
  simp [State.write32, hp, hw, hr]

theorem State.write32_of_high (hp : place a = p) (hw : s.mayWrite fn p = true) (hr : s.regAt p = none) (hh : s.highOf fn a = some x)
    (v : W32) : s.write32 fn a v = s.writeWide fn (place (a - 4)) .high (v.setWidth 64) := by
  simp [State.write32, hp, hw, hr, hh]

theorem State.write64_of_wide (hp : place a = p) (hw : s.mayWrite fn p = true) (hr : s.regAt p = some (true, x)) (v : W64) :
    s.write64 fn a v = s.writeWide fn p .whole v := by
  simp [State.write64, hp, hw, hr]

theorem State.write64_of_not_running (h : s.running = false) (v : W64) : s.write64 fn a v = s := by
  have h32 (a : Nat) (v : W32) : s.write32 fn a v = s := State.write32_of_not_mayWrite (State.mayWrite_of_not_running h _) v
  simp [State.write64, State.mayWrite_of_not_running h, h32]

/-- The high half of a 64-bit register that the function reads. -/
theorem State.highOf_of_wide (ha : a % 8 = 4) (h : s.barReg fn (a - 4) = some (true, x)) : s.highOf fn a = some x := by
  simp [State.highOf, ha, h]

theorem State.barReg_of_running (hs : s.running = true) (hp : place a = p) (hr : s.mayRead fn p = true) : s.barReg fn a = s.regAt p := by
  simp [State.barReg, State.serves, hs, hp, hr]

end

/-! ### The command -/

theorem exec_registerWrite (s : State) (fn a n : Nat) (v : W64) :
    exec (.registerWrite fn a n v) s = .next (settle s (registerWriteEffect fn a n v s)) := rfl

theorem registerWriteEffect_word (s : State) (fn : Nat) {a : Nat} (ha : a % 4 = 0) (v : W64) :
    registerWriteEffect fn a 4 v s = s.write32 fn a (v.setWidth 32) := by
  simp [registerWriteEffect, ha]

theorem registerWriteEffect_dword (s : State) (fn : Nat) {a : Nat} (ha : a % 8 = 0) (v : W64) :
    registerWriteEffect fn a 8 v s = s.write64 fn a v := by
  simp [registerWriteEffect, ha]

/-- R811: an access that is not aligned to its size, or of another size than 4 or 8, is ignored; so is every one while the device does not
run. -/
theorem registerWriteEffect_ignored (s : State) (fn a n : Nat) (v : W64) (h : a % n ≠ 0 ∨ (n ≠ 4 ∧ n ≠ 8) ∨ s.running = false) :
    registerWriteEffect fn a n v s = s := by
  unfold registerWriteEffect
  split
  case isTrue h4 =>
    simp only [Bool.and_eq_true, decide_eq_true_eq] at h4
    obtain ⟨rfl, ha⟩ := h4
    have hs : s.running = false := by simpa [ha] using h
    exact State.write32_of_not_mayWrite (State.mayWrite_of_not_running hs _) _
  case isFalse =>
    split
    case isTrue h8 =>
      simp only [Bool.and_eq_true, decide_eq_true_eq] at h8
      obtain ⟨rfl, ha⟩ := h8
      have hs : s.running = false := by simpa [ha] using h
      exact State.write64_of_not_running hs v
    case isFalse => rfl

theorem State.regAt_epochValue (s : State) : s.regAt (.beat 8) = some (true, s.beat.epochValue) := by
  simp [State.regAt, State.beatReg, reg64]

/-! ### Registers of every kind, written by the physical function of a running device -/

section
variable {s : State} (hs : s.running = true) (v : W64)
include hs

theorem write_epochValue : registerWriteEffect 0 0x100008 8 v s = { s with beat := { s.beat with epochValue := v } } := by
  rw [registerWriteEffect_dword _ _ rfl, State.write64_of_wide (p := .beat 8) rfl (State.mayWrite_pf hs (s.mayRead_pf_beat 8)) rfl]
  rfl

theorem write_epochValue_low : registerWriteEffect 0 0x100008 4 v s =
    { s with beat := { s.beat with epochValue := setHalf s.beat.epochValue 0 (v.setWidth 32) } } := by
  rw [registerWriteEffect_word _ _ rfl, State.write32_of_low (p := .beat 8) rfl (State.mayWrite_pf hs (s.mayRead_pf_beat 8)) rfl]
  show { s with beat := { s.beat with epochValue := setHalf _ 0 (((v.setWidth 32).setWidth 64).setWidth 32) } } = _
  simp

theorem write_epochValue_high : registerWriteEffect 0 0x10000C 4 v s =
    { s with beat := { s.beat with epochValue := setHalf s.beat.epochValue 1 (v.setWidth 32) } } := by
  have hh : s.highOf 0 0x10000C = some s.beat.epochValue :=
    State.highOf_of_wide rfl ((State.barReg_of_running hs (p := .beat 8) rfl (s.mayRead_pf_beat 8)).trans s.regAt_epochValue)
  rw [registerWriteEffect_word _ _ rfl, State.write32_of_high (p := .beat 12) rfl (State.mayWrite_pf hs (s.mayRead_pf_beat 12)) rfl hh]
  show { s with beat := { s.beat with epochValue := setHalf _ 1 (((v.setWidth 32).setWidth 64).setWidth 32) } } = _
  simp

theorem write_summaryEnable : registerWriteEffect 0 0x200004 4 v s =
    { s with irq := { s.irq with summaryEnable := v.setWidth 32 &&& 0x1FFFFFFF#32 } } := by
  rw [registerWriteEffect_word _ _ rfl, State.write32_of_narrow (p := .irq 4) rfl (State.mayWrite_pf hs (s.mayRead_pf_irq 4)) rfl]
  rfl

/-- R8, R10: written ones clear event bits that hardware has not set in the running cycle. -/
theorem write_ringEvent : registerWriteEffect 0 0x800028 4 v s =
    { s with ring := { s.ring with event := s.ring.event &&& ~~~(v.setWidth 32 &&& 0x3F#32 &&& ~~~s.raisedIn 1) } } := by
  rw [registerWriteEffect_word _ _ rfl, State.write32_of_narrow (p := .ring 40) rfl (State.mayWrite_pf hs (s.mayRead_pf_ring 40)) rfl]
  rfl

/-- R6: BEAT_COUNT is read only. -/
theorem write_beatCount : registerWriteEffect 0 0x100000 8 v s = s := by
  rw [registerWriteEffect_dword _ _ rfl, State.write64_of_wide (p := .beat 0) rfl (State.mayWrite_pf hs (s.mayRead_pf_beat 0)) rfl]
  rfl

/-- R727: a write of a setting's register is refused and captured. -/
theorem write_setting : registerWriteEffect 0 0x300000 8 v s = s.writeLocked 0x300000 0 := by
  rw [registerWriteEffect_dword _ _ rfl, State.write64_of_wide (p := .glue 0) rfl (State.mayWrite_pf hs (s.mayRead_pf_glue 0)) rfl]
  rfl

end

/-! ### GLUE_EVENT.WRITE_LOCKED and its capture (R727) -/

theorem State.writeLocked_glue (s : State) (off fn : Nat) : (s.writeLocked off fn).glue =
    (let g := if s.glue.event.getLsbD 0 then s.glue else { s.glue with lockOffset := off, lockFn := fn }
     { g with event := setBit g.event 0 }) := by
  simp [State.writeLocked, State.glueEvent]

theorem setBit_getLsbD_zero (w : W32) : (setBit w 0).getLsbD 0 = true := by
  simp [setBit]

theorem State.writeLocked_values (s : State) (off fn : Nat) : (s.writeLocked off fn).glue.values = s.glue.values := by
  rw [State.writeLocked_glue]; dsimp only; split <;> rfl

theorem State.writeLocked_event (s : State) (off fn : Nat) : (s.writeLocked off fn).glue.event.getLsbD 0 = true := by
  rw [State.writeLocked_glue]; exact setBit_getLsbD_zero _

theorem State.writeLocked_capture {s : State} (h : s.glue.event.getLsbD 0 = false) (off fn : Nat) :
    (s.writeLocked off fn).glue.lockOffset = off ∧ (s.writeLocked off fn).glue.lockFn = fn := by
  simp only [State.writeLocked_glue, h, Bool.false_eq_true, if_false, and_self]

/-- Settles O53: the writes that are ignored, and one register of each kind. -/
theorem registerWrites : Obligations.RegisterWrites := by
  intro s
  simp only [exec_registerWrite]
  refine ⟨fun fn a n v h => ?_, fun fn a v hfn ha => ?_, fun hs v => ?_⟩
  · rw [registerWriteEffect_ignored s fn a n v h, settle_self]
  · by_cases h4 : a % 4 = 0
    · rw [registerWriteEffect_word s fn h4, State.write32_of_not_mayWrite (State.mayWrite_vf_below_benches hfn ha), settle_self]
    · rw [registerWriteEffect_ignored s fn a 4 v (.inl h4), settle_self]
  · rw [write_epochValue hs, write_epochValue_low hs, write_epochValue_high hs, write_summaryEnable hs, write_ringEvent hs,
      write_beatCount hs, write_setting hs, settle_self]
    refine ⟨rfl, rfl, rfl, rfl, rfl, rfl, _, rfl, ?_⟩
    rw [settle_glue]
    exact ⟨s.writeLocked_values _ _, s.writeLocked_event _ _, fun h => State.writeLocked_capture h _ _⟩

end Sys2Proof.Machine
end

section
/-! R56 to R72: the lock, holdover and its ends, and the epoch (O4, O5, O6). -/

namespace Sys2Proof.Machine

/-! ### The commands are their effects, settled -/

theorem exec_lock (s : State) : exec .lock s = .next (settle s (lockEffect s)) := rfl
theorem exec_holdoverEntry (s : State) : exec .holdoverEntry s = .next (settle s s.enterHoldover) := rfl
theorem exec_timelyReturn (s : State) : exec .timelyReturn s = .next (settle s (timelyReturnEffect s)) := rfl
theorem exec_beatLost (s : State) : exec .beatLost s = .next (settle s s.loseBeat) := rfl
theorem exec_relock (s : State) : exec .relock s = .next (settle s s.relockNow) := rfl
theorem exec_epochEdge (s : State) : exec .epochEdge s = .next (settle s s.epochEdgeNow) := rfl
theorem exec_epochBeat (s : State) : exec .epochBeat s = .next (settle s s.epochBeatNow) := rfl

/-- EPOCH_ARM and EPOCH_DISARM are one write of BEAT_CONTROL (R67, R69). -/
theorem exec_beatControl {c : Instr} {fn : Nat} {w : W32} (hc : c = .epochArm fn w ∨ c = .epochDisarm fn w) (s : State) :
    exec c s = .next (settle s (if s.running && fn = 0 then s.writeBeatControl w else s)) := by
  rcases hc with rfl | rfl <;> rfl

/-! ### Class B marks (R63, R70) -/

section
variable (s : State) (p bit : Nat)

/-- A mark touches the partitions only. -/
theorem State.mark_cases : ∃ xs, s.mark p bit = { s with parts := xs } ∧ xs.length = s.parts.length :=
  ⟨_, rfl, List.length_modify ..⟩

theorem State.task_mark_ne {r : Nat} (h : p ≠ r) : ((s.mark p bit).part r).task = (s.part r).task := by
  rw [State.mark, State.part_modPart_ne _ _ _ _ h]

theorem State.task_mark_same (h : p < s.parts.length) :
    ((s.mark p bit).part p).task = (s.part p).task.map fun t => t.mark bit := by
  rw [State.mark, State.part_modPart _ _ _ h]
  cases ht : (s.part p).task with
  | none => exact ht
  | some t => rfl

/-- R63, R70: every partition's run in progress is marked. -/
def State.markAll : State := (List.range 6).foldl (fun s p => s.mark p bit) s

end

theorem State.foldl_mark_cases (ps : List Nat) (bit : Nat) (s : State) :
    ∃ xs, ps.foldl (fun s p => s.mark p bit) s = { s with parts := xs } ∧ xs.length = s.parts.length := by
  induction ps generalizing s with
  | nil => exact ⟨s.parts, rfl, rfl⟩
  | cons p ps ih =>
    obtain ⟨xs, hx, hl⟩ := s.mark_cases p bit
    obtain ⟨ys, hy, hm⟩ := ih (s.mark p bit)
    refine ⟨ys, ?_, ?_⟩
    · rw [List.foldl_cons, hy, hx]
    · rw [hm, hx, hl]

theorem State.task_foldl_mark (ps : List Nat) (bit : Nat) (s : State) (hn : ps.Nodup) (hs : ∀ p ∈ ps, p < s.parts.length) (r : Nat) :
    ((ps.foldl (fun s p => s.mark p bit) s).part r).task =
      if r ∈ ps then (s.part r).task.map fun t => t.mark bit else (s.part r).task := by
  induction ps generalizing s with
  | nil => rfl
  | cons p ps ih =>
    obtain ⟨hp, hn⟩ := List.nodup_cons.1 hn
    obtain ⟨xs, hx, hl⟩ := s.mark_cases p bit
    have hlen : (s.mark p bit).parts.length = s.parts.length := by rw [hx]; exact hl
    rw [List.foldl_cons, ih _ hn fun q hq => hlen ▸ hs q (List.mem_cons_of_mem _ hq)]
    by_cases hr : r = p
    · subst hr
      rw [if_neg hp, if_pos List.mem_cons_self, s.task_mark_same r bit (hs r List.mem_cons_self)]
    · simp only [List.mem_cons, hr, false_or, s.task_mark_ne p bit (Ne.symm hr)]

section
variable (s : State) (bit : Nat)

theorem State.markAll_cases : ∃ xs, s.markAll bit = { s with parts := xs } :=
  have ⟨xs, h, _⟩ := State.foldl_mark_cases (List.range 6) bit s
  ⟨xs, h⟩

@[simp] theorem State.markAll_beat : (s.markAll bit).beat = s.beat := by obtain ⟨_, h⟩ := s.markAll_cases bit; rw [h]
@[simp] theorem State.markAll_benches : (s.markAll bit).benches = s.benches := by obtain ⟨_, h⟩ := s.markAll_cases bit; rw [h]
@[simp] theorem State.markAll_hbm : (s.markAll bit).hbm = s.hbm := by obtain ⟨_, h⟩ := s.markAll_cases bit; rw [h]
@[simp] theorem State.markAll_fns : (s.markAll bit).fns = s.fns := by obtain ⟨_, h⟩ := s.markAll_cases bit; rw [h]

/-- The device has six partitions; beyond them there is no run. -/
theorem State.markAll_task (h : s.parts.length = 6) (p : Nat) :
    ((s.markAll bit).part p).task = (s.part p).task.map fun t => t.mark bit := by
  rw [State.markAll, State.task_foldl_mark _ _ _ List.nodup_range (by simp [h])]
  split
  · rfl
  · next hp =>
    have hp : s.parts.length ≤ p := by simpa [h] using hp
    simp [State.part, List.getD, List.getElem?_eq_none hp]

end

/-! ### The epoch (R67 to R72) -/

section
variable {s : State}

theorem State.epochEdgeNow_of_unseen (h : s.beat.edgeSeen = false) : s.epochEdgeNow = s := by
  simp [State.epochEdgeNow, h]

/-- R68: an edge while the package is not armed. -/
theorem State.epochEdgeNow_of_unarmed (h : s.beat.edgeSeen = true) (ha : s.beat.edgeArmed = false) :
    s.epochEdgeNow = State.raise { s with
      beat := { s.beat with edgeSeen := false, edgeArmed := false, events := setBit s.beat.events 10 } } 0 10 := by
  simp [State.epochEdgeNow, h, ha, State.beatEvent, State.modBeat]

/-- R67: an edge while the package is armed decides the load. -/
theorem State.epochEdgeNow_of_armed (h : s.beat.edgeSeen = true) (ha : s.beat.edgeArmed = true) :
    s.epochEdgeNow = { s with beat := { s.beat with edgeSeen := false, edgeArmed := false, loadDecided := true } } := by
  simp [State.epochEdgeNow, h, ha, State.modBeat]

/-- The beat counter at the epoch beat (R67). -/
def Beat.load (b : Beat) : Beat :=
  { b with epochPrior := b.count, count := b.epochValue, aligned := true, armed := false, loadDue := false, epochBeat := true
           events := setBit b.events 11 }

theorem State.epochBeatNow_of_due (h : s.beat.loadDue = true) :
    s.epochBeatNow = (State.raise { s with beat := s.beat.load } 0 11).markAll 3 := by
  simp [State.epochBeatNow, h, State.beatEvent, State.modBeat, Beat.load, State.markAll]

/-- R69: disarming wins over arming. -/
theorem State.writeBeatControl_of_disarm {w : W32} (h : w.getLsbD 1 = true) : s.writeBeatControl w = { s with
    beat := { s.beat with armed := false, outEn := w.getLsbD 4, epochOut := s.beat.epochOut && w.getLsbD 4 } } := by
  simp [State.writeBeatControl, h, State.modBeat]

/-- R67: arming is refused while a launch is pending. -/
theorem State.writeBeatControl_of_launch {w : W32} (h : w.getLsbD 1 = false) (ha : w.getLsbD 0 = true)
    (hl : s.parts.any Part.hasLaunch = true) : s.writeBeatControl w = State.raise { s with
    beat := { s.beat with events := setBit s.beat.events 9, outEn := w.getLsbD 4, epochOut := s.beat.epochOut && w.getLsbD 4 } } 0 9 := by
  simp only [State.writeBeatControl, h, ha, State.modBeat_parts, hl]
  rfl

theorem State.writeBeatControl_of_arm {w : W32} (h : w.getLsbD 1 = false) (ha : w.getLsbD 0 = true)
    (hl : s.parts.any Part.hasLaunch = false) : s.writeBeatControl w = { s with
    beat := { s.beat with armed := true, outEn := w.getLsbD 4, epochOut := s.beat.epochOut && w.getLsbD 4 } } := by
  simp only [State.writeBeatControl, h, ha, State.modBeat_parts, hl]
  rfl

end

/-- Settles O6: the edge, the epoch beat, and the writes of BEAT_CONTROL. -/
theorem epochArmingEdgeAndBeat : Obligations.EpochArmingEdgeAndBeat := by
  refine ⟨fun s => ⟨fun h ha => ?_, fun h ha => ?_, fun h hp => ⟨_, exec_epochBeat s, ?_⟩⟩, fun s fn w c hc hs => ?_⟩
  · rw [exec_epochEdge, State.epochEdgeNow_of_unarmed h ha]
  · rw [exec_epochEdge, State.epochEdgeNow_of_armed h ha]
  · rw [State.epochBeatNow_of_due h]
    refine ⟨by simp [Beat.load], fun p => ?_, by simp, by simp, by simp⟩
    rw [State.part, settle_parts, ← State.part, State.markAll_task _ _ (by simpa using hp)]
    simp [State.part]
  · rw [exec_beatControl hc]
    refine ⟨fun hfn => by simp [hfn], ?_, ?_, ?_⟩ <;> rintro rfl h
    · simp [hs, State.writeBeatControl_of_disarm h]
    · intro ha hl; simp [hs, State.writeBeatControl_of_launch h ha hl]
    · intro ha hl; simp [hs, State.writeBeatControl_of_arm h ha hl]

/-! ### Beat lost (R60) -/

/-- Settles O5: the cycle after the synthesised edge is the one in which the loss is due. -/
theorem beatLostLatchesAndRaises : Obligations.BeatLostLatchesAndRaises := by
  intro s hh hl hs hc
  have hdue : s.beat.lostDue = true := by simp [Beat.lostDue, hh, hl, hs, hc]
  refine ⟨_, exec_beatLost s, ?_, ?_⟩
  · simp [State.loseBeat, hdue, State.beatEvent, State.modBeat]
  · simp [State.loseBeat, hdue, State.beatEvent, State.globalLeaf, setBit]

/-! ### The lock (R56) -/

/-- The inputs as a REF_BEAT edge samples them (R66, R72), with the arming that decides what an epoch edge does (R67, R68). -/
def Beat.sampled (b : Beat) : Beat :=
  { b with edgeSeen := b.lines.epochIn && !b.epochIn, edgeArmed := b.armed && b.started && b.lines.epochIn && !b.epochIn
           epochIn := b.lines.epochIn, epochOut := b.outEn && b.lines.epochIn }

theorem State.sampleEdge_beat (s : State) : s.sampleEdge.beat = s.epochEdgeNow.beat.sampled := rfl

section
variable {s : State}

/-- Where no epoch edge is still to be handled, an edge touches the samples only. -/
theorem State.sampleEdge_of_unseen (h : s.beat.edgeSeen = false) :
    s.sampleEdge = { s with beat := s.beat.sampled, gpio := s.gpio.sample (s.pinSample s.beat.lines.pins) } := by
  rw [State.sampleEdge, State.epochEdgeNow_of_unseen h]
  rfl

/-- The beat counter right after the lock, before the inputs are sampled. -/
def Beat.lock (b : Beat) : Beat :=
  { b with locked := true, started := true, aligned := false, count := 0, periods := b.periods + 1, cc := 0, synth := 0 }

theorem lockEffect_of_edge (hl : s.life = .awaitLock) (hs : s.beat.lines.seen = true) (he : s.beat.edgeSeen = false) :
    lockEffect s = { s with
      beat := s.beat.lock.sampled, gpio := s.gpio.sample ((s.modBeat Beat.lock).pinSample s.beat.lines.pins)
      life := .starting (min s.start.readyBeats 340000)
      benches := s.benches.zipIdx.map fun y => if y.2 < s.nSeats then
        { y.1 with state := .testing, test := some { why := .startup, former := .unassigned } } else y.1 } := by
  have hw : (s.life != .awaitLock || !s.beat.lines.seen) = false := by simp [hl, hs]
  have hm : (s.modBeat Beat.lock).sampleEdge = _ := State.sampleEdge_of_unseen he
  rw [lockEffect, hw, State.epochEdgeNow_of_unseen he]
  exact congrArg (fun t : State => { t with
    life := Life.starting (min t.start.readyBeats 340000)
    benches := t.benches.zipIdx.map fun y : Bench × Nat => if y.2 < s.nSeats then
      { y.1 with state := .testing, test := some { why := .startup, former := .unassigned } } else y.1 }) hm

theorem lockEffect_of_none (h : s.life ≠ .awaitLock ∨ s.beat.lines.seen = false) : lockEffect s = s := by
  have hw : (s.life != .awaitLock || !s.beat.lines.seen) = true := by simpa using h
  simp [lockEffect, hw]

/-! ### Holdover and its ends (R58, R59, R61, R63) -/

theorem State.enterHoldover_of_due (h : s.beat.holdoverDue = true) :
    s.enterHoldover = State.markAll { s with beat := { s.beat with holdover := true, holdCount := satAdd32 s.beat.holdCount 1 } } 2 := by
  simp [State.enterHoldover, h, State.markHoldover, State.markAll, State.modBeat]

theorem State.enterHoldover_of_none (h : s.beat.holdoverDue = false) : s.enterHoldover = s := by
  simp [State.enterHoldover, h]

/-- R59: an edge that belongs to the synthesised edge of the running beat begins that beat anew. -/
theorem timelyReturnEffect_of_early (ht : s.beat.timely = true) (hs : s.beat.lines.seen = true) (hc : 2 * s.beat.cc < s.m) :
    timelyReturnEffect s = s.sampleEdge.modBeat fun b => { b.refSeen with cc := 0 } := by
  simp [timelyReturnEffect, ht, hs, hc]

theorem timelyReturnEffect_of_none (h : s.beat.timely = false ∨ s.beat.lines.seen = false) : timelyReturnEffect s = s := by
  have hw : (!s.beat.timely || !s.beat.lines.seen) = true := by simpa using h
  simp [timelyReturnEffect, hw]

theorem Beat.lost_of_timely {b : Beat} (h : b.timely = true) : b.lost = false := by
  simp only [Beat.timely, Bool.and_eq_true, Bool.not_eq_true'] at h
  exact h.1.2

end

/-- Settles O4: each clause is the command's effect under its condition. -/
theorem lockHoldoverAndRelock : Obligations.LockHoldoverAndRelock := by
  refine ⟨fun s e hl he hs h => ?_, fun s h => ?_, fun s => ⟨fun hs hh h4 hp => ?_, fun h => ?_, fun e ht he hs hc h => ?_, fun h => ?_,
    fun h => ?_, fun h => ?_⟩⟩
  · subst he
    refine ⟨_, exec_lock s, ?_⟩
    rw [lockEffect_of_edge hl hs h]
    simp [Beat.lock, Beat.sampled]
  · rw [exec_lock, lockEffect_of_none h]
  · have hdue : s.beat.holdoverDue = true := by simp [Beat.holdoverDue, hs, hh, h4]
    refine ⟨_, exec_holdoverEntry s, ?_⟩
    rw [State.enterHoldover_of_due hdue]
    exact ⟨State.markAll_beat _ _, State.markAll_task _ _ hp, State.markAll_benches _ _, State.markAll_hbm _ _, State.markAll_fns _ _⟩
  · have hdue : s.beat.holdoverDue = false := by
      simp only [Beat.holdoverDue, Bool.and_eq_false_iff, Bool.not_eq_false', decide_eq_false_iff_not, Nat.not_le]
      tauto
    rw [exec_holdoverEntry, State.enterHoldover_of_none hdue]
  · subst he
    refine ⟨_, exec_timelyReturn s, ?_⟩
    rw [timelyReturnEffect_of_early ht hs hc, State.sampleEdge_of_unseen h]
    simp [Beat.refSeen, Beat.sampled, Beat.lost_of_timely ht]
  · rw [exec_timelyReturn, timelyReturnEffect_of_none h]
  · rw [exec_relock, State.relockNow, h]
    rfl
  · rw [exec_relock, State.relockNow, h]
    rfl

end Sys2Proof.Machine
end

section
/-! R88 to R94, R671 to R675: runs that launch, wait for their start count, or are refused (O27). -/

namespace Sys2Proof.Machine

/-! ### Completions: what leaves all but the functions' windows alone -/

/-- t is s but for the functions' windows and messages, and no completion that waits in s is lost. -/
def State.AnswersMore (s t : State) : Prop :=
  (∃ fs os i, t = { s with fns := fs, out := os, irq := i }) ∧ ∀ g, ∀ c ∈ (s.fn g).compl, c ∈ (t.fn g).compl

theorem State.AnswersMore.refl (s : State) : s.AnswersMore s := ⟨⟨s.fns, s.out, s.irq, rfl⟩, fun _ _ h => h⟩

theorem State.AnswersMore.trans {s t u : State} (h : s.AnswersMore t) (k : t.AnswersMore u) : s.AnswersMore u := by
  obtain ⟨⟨fs, os, i, rfl⟩, hc⟩ := h
  obtain ⟨⟨gs, ps, j, rfl⟩, kc⟩ := k
  exact ⟨⟨gs, ps, j, rfl⟩, fun g c h => kc g c (hc g c h)⟩

/-- A function beyond the last has nothing in its window. -/
theorem State.fn_of_length_le {s : State} {f : Nat} (h : s.fns.length ≤ f) : s.fn f = {} := List.getD_eq_default _ _ h

/-- An update of one window that loses no completion. -/
theorem State.AnswersMore.modFn (s : State) (f : Nat) {g : Aivia → Aivia} (h : ∀ a : Aivia, ∀ c ∈ a.compl, c ∈ (g a).compl) :
    s.AnswersMore (s.modFn f g) := by
  refine ⟨⟨_, s.out, s.irq, rfl⟩, fun k c hc => ?_⟩
  by_cases hf : f = k
  · subst hf
    have hlen : f < s.fns.length := by
      by_contra hlen
      rw [State.fn_of_length_le (Nat.not_lt.1 hlen)] at hc
      cases hc
    rw [State.fn_modFn _ _ _ hlen]
    exact h _ c hc
  · rw [State.fn_modFn_ne _ _ _ _ hf]
    exact hc

theorem State.AnswersMore.takePkt (s : State) (f i : Nat) : s.AnswersMore (s.takePkt f i) := .modFn s f fun _ _ h => h

theorem State.AnswersMore.launchDecided (s : State) (f : Nat) : s.AnswersMore (s.launchDecided f) := .modFn s f fun _ _ h => h

theorem State.AnswersMore.post (s : State) (c : Compl) : s.AnswersMore (s.post c) :=
  .modFn s _ fun a d hd => by
    split
    · exact List.mem_append_left _ hd
    · exact hd

theorem State.AnswersMore.flushReserved (f n : Nat) (s : State) : s.AnswersMore (s.flushReserved f n) := by
  induction n generalizing s with
  | zero => exact .refl s
  | succ n ih =>
    unfold State.flushReserved
    split
    · split
      · exact .refl s
      · exact ((AnswersMore.takePkt s _ _).trans (.post _ _)).trans (ih _)
    · exact .refl s

theorem State.AnswersMore.settle (a b : State) : b.AnswersMore (settle a b) := by
  obtain ⟨os, h | h⟩ := settle_cases a b <;> rw [h] <;> exact ⟨⟨_, _, _, rfl⟩, fun _ _ h => h⟩

/-- The completion of a packet whose function has not been reset joins those that wait (R661). -/
theorem State.answered_finish {s : State} {id : PktId} (hf : id.f < s.fns.length) (he : (s.fn id.f).epoch = id.epoch)
    (part status detail : Nat) : (s.finish id part status detail).answered id part status detail 0 0 0 := by
  rw [State.answered, State.finish, State.post, State.fn_modFn _ _ _ hf, if_pos he]
  exact List.mem_append_right _ (List.mem_singleton.2 rfl)

theorem State.answered.of_answersMore {s t : State} {id : PktId} {part status detail r0 r1 r2 : Nat}
    (h : s.answered id part status detail r0 r1 r2) (k : s.AnswersMore t) : t.answered id part status detail r0 r1 r2 :=
  k.2 _ _ h

/-! ### Admission -/

section
variable {s : State} {f op i : Nat} {x : Pkt}

/-- Only a function that the device has gets a packet admitted. -/
theorem State.lt_length_of_nextPkt (h : s.nextPkt f = some (i, x)) : f < s.fns.length := by
  by_contra hf
  rw [State.nextPkt, State.fn_of_length_le (Nat.not_lt.1 hf)] at h
  simp at h

theorem State.admitPkt_of_admits (h : s.admits f op i x) (run : PktId → Nat → Pkt → State → State) :
    s.admitPkt f op run = (run (s.pktId f x) (x.part f) x (s.takePkt f i)).flushReserved f 64 := by
  obtain ⟨hn, ho, hd⟩ := h
  simp [State.admitPkt, hn, ho, hd]

theorem State.headerDetail_of_no_part (hk : opOnPart x.op = true) (h1 : x.op ≠ 1) (he : s.partExists (x.part f) = false) :
    s.headerDetail f x ≠ none := by
  unfold State.headerDetail
  split
  · simp
  · simp [hk, h1, he]

/-- R666: a packet that acts on a partition is admitted for one that exists. -/
theorem State.part_lt_of_admits (h : s.admits f op i x) (hk : opOnPart op = true) (h1 : op ≠ 1) : x.part f < s.parts.length := by
  obtain ⟨-, rfl, hd⟩ := h
  by_contra hp
  have hpart : s.part (x.part f) = {} := List.getD_eq_default _ _ (Nat.not_lt.1 hp)
  exact State.headerDetail_of_no_part hk h1 (by rw [State.partExists, hpart]; rfl) hd

end

/-- An update of a bench reaches that bench, where the device has it, and no other. -/
theorem State.bench_modBench_cases (s : State) (b : Nat) (g : Bench → Bench) (r : Nat) :
    (r = b ∧ (s.modBench b g).bench r = g (s.bench r)) ∨ ((r = b → s.bench r = {}) ∧ (s.modBench b g).bench r = s.bench r) := by
  by_cases hr : r = b
  · subst hr
    by_cases hl : r < s.benches.length
    · exact .inl ⟨rfl, State.bench_modBench _ _ _ hl⟩
    · refine .inr ⟨fun _ => List.getD_eq_default _ _ (Nat.not_lt.1 hl), ?_⟩
      rw [State.modBench, List.modify_eq_self (Nat.not_lt.1 hl)]
  · exact .inr ⟨fun h => absurd h hr, State.bench_modBench_ne _ _ _ _ (Ne.symm hr)⟩

/-- P0 is requested for some benches, and nothing else changes (R712). -/
theorem State.foldl_powerReq_cases (xs : List Nat) (s : State) :
    let t := xs.foldl (fun s b => s.modBench b fun y => { y with powerReq := 0 }) s
    ∃ bs, t = { s with benches := bs } ∧ ∀ b, ∃ r, t.bench b = { s.bench b with powerReq := r } := by
  induction xs generalizing s with
  | nil => exact ⟨s.benches, rfl, fun b => ⟨_, rfl⟩⟩
  | cons x xs ih =>
    obtain ⟨bs, h, hb⟩ := ih (s.modBench x fun y => { y with powerReq := 0 })
    refine ⟨bs, h, fun b => ?_⟩
    obtain ⟨r, hr⟩ := hb b
    obtain ⟨-, h⟩ | ⟨-, h⟩ := s.bench_modBench_cases x (fun y => { y with powerReq := 0 }) b <;> rw [h] at hr <;> exact ⟨r, hr⟩

theorem State.wakeForRun_cases (s : State) (f : Nat) : ∃ bs, s.wakeForRun f = { s with benches := bs } ∧
    ∀ b, ∃ r, (s.wakeForRun f).bench b = { s.bench b with powerReq := r } := by
  have hs : ∃ bs, s = { s with benches := bs } ∧ ∀ b, ∃ r, s.bench b = { s.bench b with powerReq := r } :=
    ⟨s.benches, rfl, fun b => ⟨_, rfl⟩⟩
  unfold State.wakeForRun
  split
  · split
    · exact State.foldl_powerReq_cases _ s
    · exact hs
  · exact hs

section
variable (s : State) (f : Nat)

@[simp] theorem State.wakeForRun_parts : (s.wakeForRun f).parts = s.parts := by obtain ⟨_, h, _⟩ := s.wakeForRun_cases f; rw [h]
@[simp] theorem State.wakeForRun_fns : (s.wakeForRun f).fns = s.fns := by obtain ⟨_, h, _⟩ := s.wakeForRun_cases f; rw [h]
@[simp] theorem State.wakeForRun_beat : (s.wakeForRun f).beat = s.beat := by obtain ⟨_, h, _⟩ := s.wakeForRun_cases f; rw [h]
@[simp] theorem State.wakeForRun_ldg : (s.wakeForRun f).ldg = s.ldg := by obtain ⟨_, h, _⟩ := s.wakeForRun_cases f; rw [h]
@[simp] theorem State.wakeForRun_hbm : (s.wakeForRun f).hbm = s.hbm := by obtain ⟨_, h, _⟩ := s.wakeForRun_cases f; rw [h]

theorem State.runRefusal_wakeForRun (p : Nat) (x : Pkt) : (s.wakeForRun f).runRefusal p x = s.runRefusal p x := by
  obtain ⟨_, h, _⟩ := s.wakeForRun_cases f; rw [h]; rfl

theorem State.activeBenches_wakeForRun (p : Nat) : (s.wakeForRun f).activeBenches p = s.activeBenches p := by
  obtain ⟨_, h, hb⟩ := s.wakeForRun_cases f
  have harc : (s.wakeForRun f).arcBenches p = s.arcBenches p := by rw [h]; rfl
  rw [State.activeBenches, State.activeBenches, harc]
  refine List.filter_congr fun b _ => ?_
  obtain ⟨r, hr⟩ := hb b
  rw [hr]

theorem State.sameBytes_wakeForRun : sameBytes s (s.wakeForRun f) := by
  refine ⟨fun a => by rw [State.wakeForRun_hbm], fun b a => ?_⟩
  obtain ⟨_, _, hb⟩ := s.wakeForRun_cases f
  obtain ⟨r, hr⟩ := hb b
  rw [hr]
  exact ⟨rfl, rfl⟩

end

/-! ### What a run starts from -/

theorem sameBytes.refl (s : State) : sameBytes s s := ⟨fun _ => rfl, fun _ _ => ⟨rfl, rfl⟩⟩

theorem sameBytes.trans {s t u : State} (h : sameBytes s t) (k : sameBytes t u) : sameBytes s u :=
  ⟨fun a => (k.1 a).trans (h.1 a), fun b a => ⟨(k.2 b a).1.trans (h.2 b a).1, (k.2 b a).2.trans (h.2 b a).2⟩⟩

theorem sameBytes.of_answersMore {s t u : State} (h : sameBytes s t) (k : t.AnswersMore u) : sameBytes s u := by
  obtain ⟨⟨_, _, _, rfl⟩, -⟩ := k
  exact h

/-- Every queue is at its first command, with none in work. -/
def Core.AtStart (k : Core) : Prop := ∀ q, (k.queue q).head = 0 ∧ (k.queue q).inflight = []
/-- So are those of the bench's two cores. -/
def Bench.AtStart (x : Bench) : Prop := ∀ c < 2, (x.core c).AtStart

section
variable {α β : Type} {P : β → Prop}

/-- An element of a mapped list, or the value that stands for a missing one. -/
theorem getD_map_of_forall {f : α → β} {d : β} (hf : ∀ a, P (f a)) (hd : P d) (xs : List α) (i : Nat) : P ((xs.map f).getD i d) := by
  rw [List.getD, List.getElem?_map]
  cases xs[i]? with
  | none => exact hd
  | some a => exact hf a

/-- The updated element of a list, or the value that stands for a missing one. -/
theorem getD_modify_of_forall {f : β → β} {d : β} (hf : ∀ a, P (f a)) (hd : P d) (xs : List β) (i : Nat) :
    P ((xs.modify i f).getD i d) := by
  by_cases hi : i < xs.length
  · rw [getD_modify_same _ _ _ _ hi]; exact hf _
  · rw [List.getD_eq_default _ _ (by simpa using hi)]; exact hd

end

theorem Core.atStart_default : ({} : Core).AtStart := by
  intro q
  have h : ({} : Core).queue q = {} := by
    rw [Core.queue, List.getD, List.getElem?_replicate]
    split <;> rfl
  rw [h]
  exact ⟨rfl, rfl⟩

theorem Bench.atStart_default : ({} : Bench).AtStart := by
  intro c hc
  obtain rfl | rfl : c = 0 ∨ c = 1 := by omega
  all_goals exact Core.atStart_default

theorem Core.atStart_runStart (k : Core) (tallies : List (Nat × Nat)) (credits tokens : List Nat) :
    (k.runStart tallies credits tokens).AtStart := fun q =>
  getD_map_of_forall (P := fun y : Queue => y.head = 0 ∧ y.inflight = []) (fun _ => ⟨rfl, rfl⟩) ⟨rfl, rfl⟩ _ q

/-- A bench at run start is its former one with other cores, ports and requests; its bytes stay (R299). -/
theorem State.benchRunStart_cases (s : State) (p b : Nat) : ∃ g : Bench → Bench, s.benchRunStart p b = s.modBench b g ∧
    ∀ x, (g x).rack = x.rack ∧ (g x).act = x.act ∧ (g x).AtStart := by
  simp only [State.benchRunStart, List.foldl_cons, List.foldl_nil, State.modCore, State.modBench, List.modify_modify_eq]
  refine ⟨_, rfl, fun x => ⟨rfl, rfl, fun c hc => ?_⟩⟩
  obtain rfl | rfl : c = 0 ∨ c = 1 := by omega
  · refine Eq.mpr (congrArg Core.AtStart (getD_modify_ne _ 1 0 _ _ (by decide))) ?_
    exact getD_modify_of_forall (fun k => k.atStart_runStart _ _ _) Core.atStart_default _ _
  · exact getD_modify_of_forall (fun k => k.atStart_runStart _ _ _) Core.atStart_default _ _

/-- Some benches are at run start, and the bytes of every bench stay. -/
theorem State.foldl_benchRunStart_cases (p : Nat) (bs : List Nat) (s : State) :
    let t := bs.foldl (fun s b => s.benchRunStart p b) s
    (∃ xs, t = { s with benches := xs }) ∧ sameBytes s t ∧ ∀ b, b ∈ bs ∨ (s.bench b).AtStart → (t.bench b).AtStart := by
  induction bs generalizing s with
  | nil => exact ⟨⟨s.benches, rfl⟩, .refl s, fun b h => h.resolve_left List.not_mem_nil⟩
  | cons x bs ih =>
    obtain ⟨g, hg, hx⟩ := s.benchRunStart_cases p x
    obtain ⟨⟨xs, ht⟩, hb, hs⟩ := ih (s.benchRunStart p x)
    rw [List.foldl_cons]
    refine ⟨⟨xs, ?_⟩, ?_, fun b h => hs b ?_⟩
    · rw [ht, hg]; rfl
    · refine sameBytes.trans ⟨fun a => by rw [hg]; rfl, fun b a => ?_⟩ hb
      rw [hg]
      obtain ⟨-, h⟩ | ⟨-, h⟩ := s.bench_modBench_cases x g b <;> rw [h]
      · exact ⟨by rw [(hx _).1], by rw [(hx _).2.1]⟩
      · exact ⟨rfl, rfl⟩
    · rw [hg]
      obtain ⟨-, h'⟩ | ⟨hd, h'⟩ := s.bench_modBench_cases x g b <;> rw [h']
      · exact .inr (hx _).2.2
      · rcases h with h | h
        · rcases List.mem_cons.1 h with rfl | h
          · exact .inr (hd rfl ▸ Bench.atStart_default)
          · exact .inl h
        · exact .inr h

/-- What the launch of a task on partition p of s leaves (R94, R674). -/
structure State.Launched (s : State) (p : Nat) (t : Task) (u : State) : Prop where
  state : (u.part p).state = .running
  launch : (u.part p).launch = none
  task : ((u.part p).task.map fun v => (v.id, v.startAt, v.startGate, v.step)) =
    some (t.id, s.beat.periods * s.m, s.beat.count.toNat, t.step)
  ldg : u.ldg = s.ldg
  strobe : p ∈ u.gpio.launched
  queues : ∀ b ∈ s.activeBenches p, (u.bench b).AtStart
  bytes : sameBytes s u

theorem State.Launched.of_answersMore {s u v : State} {p : Nat} {t : Task} (h : s.Launched p t u) (k : u.AnswersMore v) :
    s.Launched p t v := by
  obtain ⟨⟨_, _, _, rfl⟩, -⟩ := k
  exact { h with }

theorem State.launched_launchRun {s : State} {p : Nat} (hp : p < s.parts.length) (t : Task) : s.Launched p t (s.launchRun p t) := by
  obtain ⟨⟨xs, hv⟩, hbytes, hstart⟩ := State.foldl_benchRunStart_cases p (s.activeBenches p) (s.resetHurdles p)
  have hlen : p < ((s.activeBenches p).foldl (fun s b => s.benchRunStart p b) (s.resetHurdles p)).parts.length := by
    rw [hv]; simpa [State.resetHurdles] using hp
  have hpart : (s.launchRun p t).part p = _ := State.part_modPart _ _ _ hlen
  exact {
    state := by rw [hpart]
    launch := by rw [hpart]
    task := by
      rw [hpart]
      dsimp only [Option.map_some]
      split <;> rfl
    ldg := by
      show State.ldg (List.foldl _ _ _) = _
      rw [hv]; rfl
    strobe := List.mem_append_right _ (List.mem_singleton.2 rfl)
    queues := fun b hb => hstart b (.inl hb)
    bytes := hbytes }

/-! ### RUN (R674, R675) -/

theorem exec_run (f : Nat) (hostIn : List Bytes) (s : State) :
    exec (.run f hostIn) s = .next (settle s (runEffect f hostIn s)) := rfl

section
variable {s : State} {p : Nat} {x : Pkt} {id : PktId} (hostIn : List Bytes)

theorem State.runAdmitted_of_refusal {st d : Nat} (h : s.runRefusal p x = some (st, d)) :
    s.runAdmitted hostIn id p x = s.finish id p st d := by
  rw [State.runAdmitted, h]
  rfl

theorem State.runAdmitted_of_now (h : s.runRefusal p x = none) (hb : bitOf (x.u 0x28 1) 0 = false) :
    s.runAdmitted hostIn id p x =
      (s.modLdg fun l => { l with reserved := l.reserved + 1 }).launchRun p (s.newTask id p x hostIn) := by
  rw [State.runAdmitted, h]
  exact if_neg (by simp [hb])

theorem State.runAdmitted_of_count (h : s.runRefusal p x = none) (hb : bitOf (x.u 0x28 1) 0 = true) :
    s.runAdmitted hostIn id p x = (s.modLdg fun l => { l with reserved := l.reserved + 1 }).modPart p
      fun y => { y with launch := some { s.newTask id p x hostIn with startGate := startGateOf x } } := by
  rw [State.runAdmitted, h]
  exact if_pos hb

end

section
variable {s : State} {f i : Nat} {x : Pkt} (hostIn : List Bytes)

/-- The state in which the open gate takes in a RUN: the benches it waits for are requested, and the packet has left its buffer. -/
def State.atRun (s : State) (f i : Nat) : State := (s.wakeForRun f).takePkt f i

@[simp] theorem State.atRun_parts : (s.atRun f i).parts = s.parts := s.wakeForRun_parts f
@[simp] theorem State.atRun_beat : (s.atRun f i).beat = s.beat := s.wakeForRun_beat f
@[simp] theorem State.atRun_ldg : (s.atRun f i).ldg = s.ldg := s.wakeForRun_ldg f
@[simp] theorem State.atRun_hbm : (s.atRun f i).hbm = s.hbm := s.wakeForRun_hbm f

/-- After an admitted RUN only completions of reserved opcodes and messages follow. -/
theorem runEffect_of_admits (h : (s.wakeForRun f).admits f 0x11 i x) :
    ((s.atRun f i).runAdmitted hostIn (s.pktId f x) (x.part f) x).AnswersMore (settle s (runEffect f hostIn s)) := by
  have hid : (s.wakeForRun f).pktId f x = s.pktId f x := by simp [State.pktId]
  rw [runEffect, State.admitPkt_of_admits h, hid]
  exact (State.AnswersMore.flushReserved f 64 _).trans (.settle _ _)

theorem State.runRefusal_atRun (p : Nat) : (s.atRun f i).runRefusal p x = s.runRefusal p x := s.runRefusal_wakeForRun f p x

theorem State.part_lt_of_run (h : (s.wakeForRun f).admits f 0x11 i x) : x.part f < s.parts.length := by
  simpa using State.part_lt_of_admits h rfl (by decide)

theorem State.sameBytes_atRun : sameBytes s (s.atRun f i) := (s.sameBytes_wakeForRun f).of_answersMore (.takePkt _ _ _)

/-- R88, R674: a RUN without a start count. -/
theorem run_launches (h : (s.wakeForRun f).admits f 0x11 i x) (hr : s.runRefusal (x.part f) x = none)
    (hb : bitOf (x.u 0x28 1) 0 = false) :
    let l := (s.atRun f i).modLdg fun l => { l with reserved := l.reserved + 1 }
    ∃ t : Task, (t.id, t.step) = (s.pktId f x, 0) ∧ l.Launched (x.part f) t (settle s (runEffect f hostIn s)) := by
  have hp : x.part f < ((s.atRun f i).modLdg fun l => { l with reserved := l.reserved + 1 }).parts.length := by
    simpa using State.part_lt_of_run h
  have hk := runEffect_of_admits hostIn h
  rw [State.runAdmitted_of_now hostIn (s.runRefusal_atRun _ ▸ hr) hb] at hk
  exact ⟨_, rfl, (State.launched_launchRun hp _).of_answersMore hk⟩

/-- R88, R94: a RUN with a start count. -/
theorem run_waits (h : (s.wakeForRun f).admits f 0x11 i x) (hr : s.runRefusal (x.part f) x = none)
    (hb : bitOf (x.u 0x28 1) 0 = true) :
    let u := settle s (runEffect f hostIn s)
    (∃ t : Task, (t.id, t.startGate) = (s.pktId f x, startGateOf x) ∧ u.part (x.part f) = { s.part (x.part f) with launch := some t }) ∧
      u.ldg = { s.ldg with reserved := s.ldg.reserved + 1 } ∧ u.benches = (s.wakeForRun f).benches ∧ u.hbm = s.hbm := by
  have hparts : ((s.atRun f i).modLdg fun l => { l with reserved := l.reserved + 1 }).parts = s.parts := by
    simp
  have hk := runEffect_of_admits hostIn h
  rw [State.runAdmitted_of_count hostIn (s.runRefusal_atRun _ ▸ hr) hb] at hk
  obtain ⟨⟨_, _, _, hu⟩, -⟩ := hk
  rw [hu]
  refine ⟨⟨{ (s.atRun f i).newTask (s.pktId f x) (x.part f) x hostIn with startGate := startGateOf x }, rfl, ?_⟩, ?_, rfl, ?_⟩
  · refine (State.part_modPart _ _ _ (hparts ▸ State.part_lt_of_run h)).trans ?_
    rw [State.part, hparts]
  · simp
  · simp

/-- R675: a RUN that a check refuses. -/
theorem run_refused {st d : Nat} (h : (s.wakeForRun f).admits f 0x11 i x) (hr : s.runRefusal (x.part f) x = some (st, d)) :
    let u := settle s (runEffect f hostIn s)
    u.answered (s.pktId f x) (x.part f) st d 0 0 0 ∧ u.parts = s.parts ∧ u.ldg = s.ldg ∧ u.hbm = s.hbm := by
  have hf : f < (s.wakeForRun f).fns.length := State.lt_length_of_nextPkt h.1
  have hlen : f < (s.atRun f i).fns.length := by simpa [State.atRun, State.takePkt] using hf
  have hepoch : ((s.atRun f i).fn f).epoch = (s.pktId f x).epoch := by
    rw [State.atRun, State.takePkt, State.fn_modFn _ _ _ hf, State.fn, State.wakeForRun_fns]
    rfl
  have hk := runEffect_of_admits hostIn h
  rw [State.runAdmitted_of_refusal hostIn (s.runRefusal_atRun _ ▸ hr)] at hk
  refine ⟨(State.answered_finish hlen hepoch _ _ _).of_answersMore hk, ?_⟩
  obtain ⟨⟨_, _, _, hu⟩, -⟩ := hk
  rw [hu]
  simp [State.finish, State.post]

end

/-! ### START_LAUNCH (R94) -/

theorem exec_startLaunch (p : Nat) (s : State) : exec (.startLaunch p) s = .next (settle s (startLaunchEffect p s)) := rfl

section
variable {s : State} {p : Nat} {t : Task}

/-- A partition with a pending launch is one that the device has. -/
theorem State.part_lt_of_launch (h : (s.part p).launch = some t) : p < s.parts.length := by
  by_contra hp
  rw [State.part, List.getD_eq_default _ _ (Nat.not_lt.1 hp)] at h
  cases h

/-- What a pending launch comes to at its gate: the refusal with status and detail, or none (R94; log entries 29, 65). -/
def State.launchRefusal (s : State) (p : Nat) : Option (Nat × Nat) :=
  if !s.beat.aligned then some (stLOST, 0x02) else if (s.part p).hasTask then some (stPAST, 0x02)
  else if (s.part p).prog.isNone then some (stDEFERRED, 0x53) else none

theorem startLaunchEffect_at_gate (h : (s.part p).launch = some t) (hg : s.beat.gateOpen = true)
    (hc : t.startGate = s.beat.count.toNat) :
    startLaunchEffect p s = match s.launchRefusal p with
      | some r => ((s.launchDecided t.id.f).unreserve.refuseRun t.id p r.1 r.2).modPart p fun x => { x with launch := none }
      | none => (s.launchDecided t.id.f).launchRun p t := by
  have hparts : ∀ f, (s.launchDecided f).part p = s.part p := fun _ => rfl
  have hbeat : ∀ f, (s.launchDecided f).beat = s.beat := fun _ => rfl
  simp only [startLaunchEffect, h, hg, hc, hparts, hbeat, State.launchRefusal]
  cases s.beat.aligned <;> cases (s.part p).hasTask <;> cases (s.part p).prog.isNone <;> simp

/-- R94: the launch. -/
theorem startLaunch_launches (h : (s.part p).launch = some t) (hg : s.beat.gateOpen = true)
    (hc : t.startGate = s.beat.count.toNat) (hr : s.launchRefusal p = none) :
    (s.launchDecided t.id.f).Launched p t (settle s (startLaunchEffect p s)) := by
  have hp : p < (s.launchDecided t.id.f).parts.length := State.part_lt_of_launch h
  rw [startLaunchEffect_at_gate h hg hc, hr]
  exact (State.launched_launchRun hp t).of_answersMore (.settle s _)

/-- R94: the refusal of a launch at its gate, where the function has not been reset. -/
theorem startLaunch_refused {st d : Nat} (h : (s.part p).launch = some t) (hg : s.beat.gateOpen = true)
    (hc : t.startGate = s.beat.count.toNat) (hf : t.id.f < s.fns.length) (he : (s.fn t.id.f).epoch = t.id.epoch)
    (hr : s.launchRefusal p = some (st, d)) :
    let u := settle s (startLaunchEffect p s)
    u.answered t.id p st d 0 0 0 ∧ (u.part p).launch = none ∧ (u.part p).task = (s.part p).task ∧ sameBytes s u := by
  have hp : p < s.parts.length := State.part_lt_of_launch h
  have hlen : t.id.f < (s.launchDecided t.id.f).unreserve.fns.length := by simpa [State.launchDecided, State.unreserve] using hf
  have hepoch : ((s.launchDecided t.id.f).unreserve.fn t.id.f).epoch = t.id.epoch := by
    rw [State.unreserve, State.fn, State.modLdg_fns, ← State.fn, State.launchDecided, State.fn_modFn _ _ _ hf]
    exact he
  rw [startLaunchEffect_at_gate h hg hc, hr]
  have hk := State.AnswersMore.settle s
    (((s.launchDecided t.id.f).unreserve.refuseRun t.id p st d).modPart p fun x => { x with launch := none })
  have ha : (((s.launchDecided t.id.f).unreserve.refuseRun t.id p st d).modPart p fun x => { x with launch := none }).answered
      t.id p st d 0 0 0 := State.answered_finish hlen hepoch p st d
  refine ⟨ha.of_answersMore hk, ?_⟩
  obtain ⟨⟨_, _, _, hu⟩, -⟩ := hk
  have hpart : (settle s (((s.launchDecided t.id.f).unreserve.refuseRun t.id p st d).modPart p
      fun x => { x with launch := none })).part p = { s.part p with launch := none } := by
    rw [hu]; exact State.part_modPart _ _ _ hp
  refine ⟨by rw [hpart], by rw [hpart], ?_⟩
  rw [hu]
  exact .refl s

end

/-- Settles O27: a clause for each end of a RUN and of a pending launch. -/
theorem runsLaunchWaitOrAreRefused : Obligations.RunsLaunchWaitOrAreRefused := by
  refine ⟨fun s f i x hostIn h hr => ⟨fun hb => ?_, fun hb => ?_⟩, fun s f i st d x hostIn h hr => ?_, fun s p t ht hg hc =>
    ⟨fun ha ht' hprog => ?_, fun hf he => ⟨fun ha => ?_, fun ha ht' => ?_⟩⟩⟩
  · obtain ⟨t, hid, hl⟩ := run_launches hostIn h hr hb
    obtain ⟨hid, hstep⟩ := Prod.mk.inj hid
    refine ⟨_, exec_run f hostIn s, hl.state, hl.launch, ?_, ?_, hl.strobe, fun b hb c hc q => hl.queues b ?_ c hc q,
      (State.sameBytes_atRun (i := i)).trans hl.bytes⟩
    · rw [hl.task, hid, hstep]
      simp [State.m]
    · rw [hl.ldg]
      simp
    · exact s.activeBenches_wakeForRun f _ ▸ hb
  · obtain ⟨⟨t, hid, hpart⟩, hldg, hbenches, hhbm⟩ := run_waits hostIn h hr hb
    refine ⟨_, exec_run f hostIn s, ?_, ?_, ?_, hbenches, hhbm⟩
    · rw [hpart]; exact congrArg some hid
    · rw [hpart]
    · rw [hldg]
  · exact ⟨_, exec_run f hostIn s, run_refused hostIn h hr⟩
  · have hr : s.launchRefusal p = none := by
      rw [State.launchRefusal, ha, ht', Option.isNone_eq_false_iff.2 hprog]
      rfl
    have hl := startLaunch_launches ht hg hc hr
    refine ⟨_, exec_startLaunch p s, hl.state, hl.launch, ?_, hl.bytes⟩
    have htask := congrArg (Option.map fun y : PktId × Nat × Nat × Nat => (y.1, y.2.1)) hl.task
    rw [Option.map_map] at htask
    exact htask
  · exact ⟨_, exec_startLaunch p s, startLaunch_refused ht hg hc hf he (by rw [State.launchRefusal, ha]; rfl)⟩
  · exact ⟨_, exec_startLaunch p s, startLaunch_refused ht hg hc hf he (by rw [State.launchRefusal, ha, ht']; rfl)⟩

end Sys2Proof.Machine
end

section
/-! SUPPORT. What only the beat's own operations change: the commands that wait, the beat counter, the captured doorbells, and how many
packets the open gate may still take in (O2, O7). Every other event of a core cycle keeps its pace. -/

namespace Sys2Proof.Machine

/-! ### The pace and its rules -/

/-- The commands that wait, the beat counter, the captured doorbells, and the packets of each function the open gate may still take in. -/
def State.pace (s : State) : List Instr × Beat × List (Nat × Nat × Nat × Nat × Nat × Nat) × List Nat :=
  (s.pending, s.beat, s.doorbells, s.fns.map Aivia.eligible)

/-- The pace of a state in which other fields have been set. -/
@[simp] theorem State.pace_mk (pending : List Instr) (life : Life) (start : StartEnv) (fuses : Fuses) (beat : Beat) (irq : Irq)
    (fns : List Aivia) (hiLatch : List (List (Nat × W32))) (ring : Ring) (parts : List Part) (benches : List Bench) (hbm : Mem)
    (bar2Wait : List (Nat × Nat × Bar2)) (doorbells : List (Nat × Nat × Nat × Nat × Nat × Nat)) (ldg : Ledger)
    (sessions : List Session) (ports : List StorePort) (glue : Glue) (gpio : Gpio) (mgmt : Mgmt) (glb : Glb) (out : List Output)
    (raised : List (Nat × W32)) (invals : List (Nat × List (Nat × Nat × Nat))) (freeCtr : Nat) :
    (State.mk pending life start fuses beat irq fns hiLatch ring parts benches hbm bar2Wait doorbells ldg sessions ports glue gpio mgmt
      glb out raised invals freeCtr).pace = (pending, beat, doorbells, fns.map Aivia.eligible) := (rfl)

@[simp] theorem State.pace_eta (s : State) : (s.pending, s.beat, s.doorbells, s.fns.map Aivia.eligible) = s.pace := (rfl)

@[simp] theorem State.pace_ite (c : Prop) [Decidable c] (s t : State) : (if c then s else t).pace = if c then s.pace else t.pace :=
  apply_ite _ _ _ _

section
variable {α : Type}

/-- Steps that each keep the pace keep it together. -/
@[simp] theorem State.pace_foldl {f : State → α → State} (h : ∀ s a, (f s a).pace = s.pace) (xs : List α) (s : State) :
    (xs.foldl f s).pace = s.pace := by
  induction xs generalizing s with
  | nil => rfl
  | cons x xs ih => exact (ih (f s x)).trans (h s x)

theorem State.pace_foldl_fst {β : Type} {f : State × β → α → State × β} (h : ∀ a x, (f a x).1.pace = a.1.pace) (xs : List α)
    (a : State × β) : (xs.foldl f a).1.pace = a.1.pace := by
  induction xs generalizing a with
  | nil => rfl
  | cons x xs ih => exact (ih (f a x)).trans (h a x)

theorem State.pace_foldl_snd {β : Type} {f : β × State → α → β × State} (h : ∀ a x, (f a x).2.pace = a.2.pace) (xs : List α)
    (a : β × State) : (xs.foldl f a).2.pace = a.2.pace := by
  induction xs generalizing a with
  | nil => rfl
  | cons x xs ih => exact (ih (f a x)).trans (h a x)

@[simp] theorem State.pace_repeat {f : State → State} (h : ∀ s, (f s).pace = s.pace) (n : Nat) (s : State) :
    (Nat.repeat f n s).pace = s.pace := by
  induction n with
  | zero => rfl
  | succ n ih => exact (h _).trans ih

end

section
variable (s : State)

@[simp] theorem State.modGpio_pace (f : Gpio → Gpio) : (s.modGpio f).pace = s.pace := (rfl)
@[simp] theorem State.modBench_pace (b : Nat) (f : Bench → Bench) : (s.modBench b f).pace = s.pace := (rfl)
@[simp] theorem State.modCore_pace (b c : Nat) (f : Core → Core) : (s.modCore b c f).pace = s.pace := (rfl)
@[simp] theorem State.modQueue_pace (b c q : Nat) (f : Queue → Queue) : (s.modQueue b c q f).pace = s.pace := (rfl)
@[simp] theorem State.modSlot_pace (b c i : Nat) (f : Slot → Slot) : (s.modSlot b c i f).pace = s.pace := (rfl)
@[simp] theorem State.modPart_pace (p : Nat) (f : Part → Part) : (s.modPart p f).pace = s.pace := (rfl)
@[simp] theorem State.modRing_pace (f : Ring → Ring) : (s.modRing f).pace = s.pace := (rfl)
@[simp] theorem State.modGlb_pace (f : Glb → Glb) : (s.modGlb f).pace = s.pace := (rfl)
@[simp] theorem State.modLdg_pace (f : Ledger → Ledger) : (s.modLdg f).pace = s.pace := (rfl)
@[simp] theorem State.modMgmt_pace (f : Mgmt → Mgmt) : (s.modMgmt f).pace = s.pace := (rfl)
@[simp] theorem State.modGlue_pace (f : Glue → Glue) : (s.modGlue f).pace = s.pace := (rfl)
@[simp] theorem State.modSession_pace (i : Nat) (f : Session → Session) : (s.modSession i f).pace = s.pace := (rfl)
@[simp] theorem State.emit_pace (o : Output) : (s.emit o).pace = s.pace := (rfl)
@[simp] theorem State.fresh_pace : s.fresh.2.pace = s.pace := (rfl)
@[simp] theorem State.raise_pace (key n : Nat) : (s.raise key n).pace = s.pace := by unfold State.raise; split <;> rfl

/-- An update of one window that leaves alone how many packets the gate may take in. -/
@[simp] theorem State.modFn_pace (f : Nat) {g : Aivia → Aivia} (h : ∀ a, (g a).eligible = a.eligible) : (s.modFn f g).pace = s.pace := by
  have hg : (s.fns.modify f g).map Aivia.eligible = s.fns.map Aivia.eligible := by
    refine List.ext_getElem (by simp) fun i _ _ => ?_
    simp only [List.getElem_map, List.getElem_modify]
    split
    · exact h _
    · rfl
  exact congrArg (fun es => (s.pending, s.beat, s.doorbells, es)) hg

end

/-! ### The start of a cycle: signals, credit returns and the movers -/

@[simp] theorem State.ctxError_pace (s : State) (b c ctx : Nat) : (s.ctxError b c ctx).pace = s.pace := by simp [State.ctxError]

@[simp] theorem State.abort_pace (s : State) (p : Nat) (e : Ending) : (s.abort p e).pace = s.pace := by simp [State.abort]

@[simp] theorem State.applyTally_pace (s : State) (b c i : Nat) (xs : List Signal) : (s.applyTally b c i xs).pace = s.pace := by
  simp only [State.applyTally]
  (repeat' split) <;> simp

@[simp] theorem State.applySignals_pace (s : State) (b c : Nat) : (s.applySignals b c).pace = s.pace := by simp [State.applySignals]

@[simp] theorem State.applyReturn_pace (s : State) (b c ctx link n : Nat) : (s.applyReturn b c ctx link n).pace = s.pace := by
  unfold State.applyReturn
  (repeat' split) <;> simp

@[simp] theorem State.applyReturns_pace (s : State) (b c : Nat) : (s.applyReturns b c).pace = s.pace := by simp [State.applyReturns]

@[simp] theorem State.noteIdle_pace (s : State) (p : Nat) : (s.noteIdle p).pace = s.pace := by
  unfold State.noteIdle
  split <;> simp

@[simp] theorem State.shareSplice_pace (s : State) (p off n : Nat) (m : Mem) : (s.shareSplice p off n m).pace = s.pace := by
  simp [State.shareSplice]

@[simp] theorem State.startMovers_pace (s : State) (p : Nat) : (s.startMovers p).pace = s.pace := by
  unfold State.startMovers
  split <;> simp

@[simp] theorem State.startCycle_pace (s : State) : s.startCycle.pace = s.pace := by simp [State.startCycle]

/-! ### The end of startup, and what a beat begins with -/

@[simp] theorem State.endTest_pace (s : State) (b : Nat) (pass : Bool) (st : BState) : (s.endTest b pass st).pace = s.pace := by
  simp [State.endTest]

@[simp] theorem State.makeSpare_pace (s : State) (b : Nat) : (s.makeSpare b).pace = s.pace := by simp [State.makeSpare]

@[simp] theorem State.startBench_pace (s : State) (b : Nat) : (s.startBench b).pace = s.pace := by simp [State.startBench]

@[simp] theorem State.ldgEvent_pace (s : State) (n : Nat) : (s.ldgEvent n).pace = s.pace := by simp [State.ldgEvent]

@[simp] theorem State.postHeld_pace (s : State) : s.postHeld.pace = s.pace := by
  simp [State.postHeld, Function.comp_def]

@[simp] theorem State.ldgSettle_pace (before : State) (s : State) : (State.ldgSettle before s).pace = s.pace := by simp [State.ldgSettle]

@[simp] theorem State.mount_pace (s : State) : s.mount.pace = s.pace := by simp [State.mount]

@[simp] theorem State.finishStart_pace (s : State) : s.finishStart.pace = s.pace := by simp [State.finishStart]

@[simp] theorem State.countStart_pace (s : State) : s.countStart.pace = s.pace := by
  unfold State.countStart
  split <;> simp

@[simp] theorem State.mark_pace (s : State) (p bit : Nat) : (s.mark p bit).pace = s.pace := by simp [State.mark]

@[simp] theorem State.markHoldover_pace (s : State) : s.markHoldover.pace = s.pace := by simp [State.markHoldover]

@[simp] theorem State.touchShare_pace (s : State) (p a n : Nat) : (s.touchShare p a n).pace = s.pace := by simp [State.touchShare]

@[simp] theorem State.bar2Serve_pace (s : State) (fn off : Nat) (acc : Bar2) : (s.bar2Serve fn off acc).pace = s.pace := by
  unfold State.bar2Serve
  (repeat' split) <;> simp

@[simp] theorem State.bar2Flush_pace (s : State) (n : Nat) : (s.bar2Flush n).pace = s.pace := by
  induction n generalizing s with
  | zero => rfl
  | succ n ih =>
    unfold State.bar2Flush
    split
    · simp [ih]
    · rfl

@[simp] theorem gpioFilterChangeEffect_pace (pin : Nat) (s : State) : (gpioFilterChangeEffect pin s).pace = s.pace := by
  simp [gpioFilterChangeEffect]

@[simp] theorem State.filterChanges_pace (s : State) : s.filterChanges.pace = s.pace := by simp [State.filterChanges]

/-! ### The close of a splice window -/

@[simp] theorem State.ringEvent_pace (s : State) (n : Nat) : (s.ringEvent n).pace = s.pace := by simp [State.ringEvent]

@[simp] theorem State.post_pace (s : State) (c : Compl) : (s.post c).pace = s.pace :=
  s.modFn_pace _ fun a => by split <;> rfl

@[simp] theorem State.finish_pace (s : State) (id : PktId) (part status detail : Nat) (r0 r1 : Nat) (r2 : Nat) :
    (s.finish id part status detail r0 r1 r2).pace = s.pace := by
  simp [State.finish]

@[simp] theorem State.closeCreate_pace (s : State) (p : Nat) (id : Option PktId) : (s.closeCreate p id).pace = s.pace := by
  unfold State.closeCreate
  split <;> simp

@[simp] theorem State.closeResize_pace (s : State) (p first count : Nat) (released : List Nat) (id : Option PktId) :
    (s.closeResize p first count released id).pace = s.pace := by
  unfold State.closeResize
  split <;> simp

@[simp] theorem State.refuse_pace (s : State) (id : PktId) (p status detail : Nat) : (s.refuse id p status detail).pace = s.pace := by
  simp [State.refuse]

@[simp] theorem State.glueEvent_pace (s : State) (n : Nat) : (s.glueEvent n).pace = s.pace := by simp [State.glueEvent]

@[simp] theorem State.writeLocked_pace (s : State) (off fn : Nat) : (s.writeLocked off fn).pace = s.pace := by simp [State.writeLocked]

theorem State.decideJob_pace {s t : State} {j : GlueJob} (h : s.decideJob j = some t) : t.pace = s.pace := by
  suffices hs : ∀ t ∈ s.decideJob j, t.pace = s.pace from hs t h
  simp only [State.decideJob]
  (repeat' split) <;> simp

@[simp] theorem State.beginSlot_pace (s : State) (n : Nat) : (s.beginSlot n).pace = s.pace := by simp [State.beginSlot]

@[simp] theorem State.glueStart_pace (s : State) (n : Nat) : (s.glueStart n).pace = s.pace := by
  induction n generalizing s with
  | zero => rfl
  | succ n ih =>
    unfold State.glueStart
    split
    · rfl
    · split
      next h => simp [ih, State.decideJob_pace h]
      next => split <;> simp

@[simp] theorem State.glueUpdate_pace (s : State) (j : GlueJob) : (s.glueUpdate j).pace = s.pace := by simp [State.glueUpdate]

@[simp] theorem State.glueSpare_pace (s : State) (b : Nat) : (s.glueSpare b).pace = s.pace := by simp [State.glueSpare]

@[simp] theorem State.emptyRing_pace (s : State) (p : Nat) : (s.emptyRing p).pace = s.pace := by
  unfold State.emptyRing
  split <;> simp

@[simp] theorem State.setPhases_pace (s : State) (p step : Nat) : (s.setPhases p step).pace = s.pace :=
  State.pace_foldl (fun s b => by split <;> simp) _ s

@[simp] theorem State.setSlotPage_pace (s : State) (p k i : Nat) (m : Mem) : (s.setSlotPage p k i m).pace = s.pace := by
  simp [State.setSlotPage]

@[simp] theorem State.buddyLoad_pace (s : State) (p k : Nat) (pages : List Nat) : (s.buddyLoad p k pages).pace = s.pace := by
  simp [State.buddyLoad]

@[simp] theorem State.beginLoad_pace (s : State) (p k : Nat) (pages : List Nat) (kind : Nat) :
    (s.beginLoad p k pages kind).pace = s.pace := by
  simp [State.beginLoad]

@[simp] theorem State.closeTakeover_pace (s : State) (p lost : Nat) : (s.closeTakeover p lost).pace = s.pace := by
  simp only [State.closeTakeover]
  (repeat' split) <;> simp

@[simp] theorem State.dropLoad_pace (s : State) (p : Nat) : (s.dropLoad p).pace = s.pace := by
  unfold State.dropLoad
  split <;> simp

@[simp] theorem State.unload_pace (s : State) (p : Nat) : (s.unload p).pace = s.pace := by simp [State.unload]

@[simp] theorem State.abortAndDrop_pace (s : State) (p detail : Nat) : (s.abortAndDrop p detail).pace = s.pace := by
  simp [State.abortAndDrop]

@[simp] theorem State.closeBypass_pace (s : State) (p lost : Nat) : (s.closeBypass p lost).pace = s.pace := by
  simp only [State.closeBypass]
  (repeat' split) <;> simp

@[simp] theorem State.closeChange_pace (s : State) (r : SpliceReq) : (s.closeChange r).pace = s.pace := by
  unfold State.closeChange
  split <;> simp

@[simp] theorem spliceWindowCloseEffect_pace (s : State) : (spliceWindowCloseEffect s).pace = s.pace := by
  unfold spliceWindowCloseEffect
  split <;> simp

/-! ### What a gate does with the stores, the comparisons and the drains -/

@[simp] theorem State.gateScrub_pace (s : State) : s.gateScrub.pace = s.pace := by simp [State.gateScrub]

@[simp] theorem State.admitDoorbell_pace (s : State) (d : Nat × Nat × Nat × Nat × Nat × Nat) : (s.admitDoorbell d).pace = s.pace := by
  simp [State.admitDoorbell]

@[simp] theorem State.supplyGate_pace (s : State) (env : GateEnv) : (s.supplyGate env).pace = s.pace := by simp [State.supplyGate]

@[simp] theorem State.setDisagreed_pace (s : State) (kind unit n : Nat) : (s.setDisagreed kind unit n).pace = s.pace := by
  simp [State.setDisagreed]

@[simp] theorem State.loseSpare_pace (s : State) : s.loseSpare.pace = s.pace := by simp [State.loseSpare]

@[simp] theorem State.ckpEvent_pace (s : State) (p n : Nat) : (s.ckpEvent p n).pace = s.pace := by simp [State.ckpEvent]

@[simp] theorem State.failDrain_pace (s : State) (p status : Nat) : (s.failDrain p status).pace = s.pace := by simp [State.failDrain]

@[simp] theorem State.dropClamp_pace (s : State) (p : Nat) : (s.dropClamp p).pace = s.pace := by
  unfold State.dropClamp
  split <;> simp

@[simp] theorem State.requestSplice_pace (s : State) (q : SpliceReq) : (s.requestSplice q).pace = s.pace := by simp [State.requestSplice]

@[simp] theorem State.endTests_pace (s : State) : s.endTests.pace = s.pace := by simp [State.endTests]

@[simp] theorem State.abandonTest_pace (s : State) : s.abandonTest.1.pace = s.pace := by
  simp only [State.abandonTest, State.fresh]
  split <;> simp

@[simp] theorem State.startTakeover_pace (s : State) (p b : Nat) : (s.startTakeover p b).pace = s.pace := by simp [State.startTakeover]

@[simp] theorem State.recover_pace (s : State) (p b : Nat) : (s.recover p b).pace = s.pace := by simp [State.recover]

@[simp] theorem State.fence_pace (s : State) (b : Nat) : (s.fence b).pace = s.pace := by
  simp only [State.fence]
  (repeat' split) <;> simp

@[simp] theorem State.setMember_pace (s : State) (m : Nat) (st : MState) : (s.setMember m st).pace = s.pace := by simp [State.setMember]

@[simp] theorem State.failMember_pace (s : State) (m : Nat) : (s.failMember m).pace = s.pace := by simp [State.failMember]

@[simp] theorem State.programPages_pace (s : State) (x : Stripe) (ms : List Nat) : (s.programPages x ms).pace = s.pace := by
  simp [State.programPages]

@[simp] theorem State.beginProgram_pace (s : State) (g : StripeProg) : (s.beginProgram g).pace = s.pace := by simp [State.beginProgram]

@[simp] theorem State.makeDurable_pace (s : State) (n : Nat) : (s.makeDurable n).pace = s.pace := by simp [State.makeDurable]

@[simp] theorem State.completeStripe_pace (s : State) (g : StripeProg) : (s.completeStripe g).pace = s.pace := by
  unfold State.completeStripe
  (repeat' split) <;> simp

@[simp] theorem State.continueProgram_pace (s : State) (g : StripeProg) : (s.continueProgram g).pace = s.pace := by
  unfold State.continueProgram
  (repeat' split) <;> simp

@[simp] theorem State.abandonStripe_pace (s : State) (g : StripeProg) : (s.abandonStripe g).pace = s.pace := by simp [State.abandonStripe]

@[simp] theorem State.pageFailed_pace (s : State) (g : StripeProg) (m : Nat) (status : Bool) : (s.pageFailed g m status).pace = s.pace := by
  unfold State.pageFailed
  split <;> simp

@[simp] theorem State.beginErase_pace (s : State) (why : EraseWhy) (ms : List Nat) : (s.beginErase why ms).pace = s.pace := by
  simp [State.beginErase]

@[simp] theorem State.beginAnchor_pace (s : State) (id : Option PktId) : (s.beginAnchor id).pace = s.pace := by
  simp only [State.beginAnchor]
  (repeat' split) <;> simp

@[simp] theorem State.eraseDone_pace (s : State) (j : EraseJob) : (s.eraseDone j).pace = s.pace := by
  unfold State.eraseDone
  split <;> simp

@[simp] theorem State.loseMember_pace (s : State) (m : Nat) : (s.loseMember m).pace = s.pace := by
  simp only [State.loseMember]
  (repeat' split) <;> simp

@[simp] theorem State.sessionDown_pace (s : State) (i status : Nat) : (s.sessionDown i status).pace = s.pace := by
  simp only [State.sessionDown]
  (repeat' split) <;> simp

@[simp] theorem State.takeOut_pace (s : State) (kind unit : Nat) : (s.takeOut kind unit).pace = s.pace := by simp [State.takeOut]

@[simp] theorem State.latchUnit_pace (s : State) (kind unit mgmt data : Nat) : (s.latchUnit kind unit mgmt data).pace = s.pace := by
  simp [State.latchUnit]

@[simp] theorem State.compareUnit_pace (s : State) (env : GateEnv) (kind unit : Nat) : (s.compareUnit env kind unit).pace = s.pace := by
  simp [State.compareUnit]

@[simp] theorem State.compareAll_pace (s : State) (env : GateEnv) : (s.compareAll env).pace = s.pace := by simp [State.compareAll]

@[simp] theorem State.endWake_pace (s : State) : s.endWake.pace = s.pace := by simp [State.endWake]

@[simp] theorem State.commitGen_pace (s : State) (p : Nat) (d : Drain) : (s.commitGen p d).pace = s.pace := by simp [State.commitGen]

@[simp] theorem State.drainCompletion_pace (s : State) (p status : Nat) : (s.drainCompletion p status).pace = s.pace := by
  unfold State.drainCompletion
  split <;> simp

@[simp] theorem State.storeGate_pace (s : State) (i : Nat) : (s.storeGate i).pace = s.pace := by
  simp only [State.storeGate]
  (repeat' split) <;> simp

theorem State.drainIssue_pace {s t : State} {p : Nat} (h : s.drainIssue p = some t) : t.pace = s.pace := by
  suffices hs : ∀ t ∈ s.drainIssue p, t.pace = s.pace from hs t h
  simp only [State.drainIssue]
  (repeat' split) <;> simp

@[simp] theorem State.drainAll_pace (s : State) (p n : Nat) : (s.drainAll p n).pace = s.pace := by
  induction n generalizing s with
  | zero => rfl
  | succ n ih =>
    unfold State.drainAll
    split
    next h => exact (ih _).trans (State.drainIssue_pace h)
    next => rfl

@[simp] theorem State.drainGate_pace (s : State) (p : Nat) : (s.drainGate p).pace = s.pace := by
  unfold State.drainGate
  (repeat' split) <;> simp

@[simp] theorem State.modTile_pace (s : State) (b c slot num : Nat) (f : Tile → Tile) : (s.modTile b c slot num f).pace = s.pace := by
  simp [State.modTile]

@[simp] theorem State.feedRows_pace (s : State) (b c slot n : Nat) : (s.feedRows b c slot n).pace = s.pace := by
  induction n generalizing s with
  | zero => rfl
  | succ n ih =>
    simp only [State.feedRows]
    split
    · split
      · rfl
      · split
        · exact ih _
        · rfl
    · rfl

@[simp] theorem State.ask_pace (s : State) (b : Nat) (rs : List MemReq) : (s.ask b rs).pace = s.pace := by simp [State.ask]

@[simp] theorem State.tileZeros_pace (s : State) (p b c slot : Nat) (t : Tile) : (s.tileZeros p b c slot t).pace = s.pace := by
  simp [State.tileZeros]

@[simp] theorem State.modReq_pace (s : State) (b c id : Nat) (f : Req → Req) : (s.modReq b c id f).pace = s.pace := by simp [State.modReq]

@[simp] theorem State.writeLocal_pace (s : State) (p b c : Nat) (r : Req) : (s.writeLocal p b c r).pace = s.pace := by
  simp [State.writeLocal]

@[simp] theorem State.gateTile_pace (s : State) (p b c i : Nat) (t : Tile) : (s.gateTile p b c i t).pace = s.pace := by
  unfold State.gateTile
  split <;> simp

@[simp] theorem State.deadline_pace (s : State) (b c n : Nat) : (s.deadline b c n).pace = s.pace := by simp [State.deadline]

@[simp] theorem State.gateDowel_pace (s : State) (p b c : Nat) (r : Req) : (s.gateDowel p b c r).pace = s.pace := by
  unfold State.gateDowel
  split <;> simp

@[simp] theorem State.gateTiles_pace (s : State) (p : Nat) : (s.gateTiles p).pace = s.pace := by
  refine State.pace_foldl (fun s bc => ?_) _ s
  refine (State.pace_foldl (fun s r => s.gateDowel_pace p _ _ r) _ _).trans ?_
  exact State.pace_foldl (fun s i => State.pace_foldl (fun s t => s.gateTile_pace p _ _ i t) _ s) _ s

@[simp] theorem State.refuseHeader_pace (s : State) (id : PktId) (detail : Nat) : (s.refuseHeader id detail).pace = s.pace := by
  simp [State.refuseHeader]

@[simp] theorem State.wakeForRun_pace (s : State) (f : Nat) : (s.wakeForRun f).pace = s.pace := by
  unfold State.wakeForRun
  split <;> simp

/-! ### What waits for a gate: launches, power states, tests, sleep -/

@[simp] theorem State.launchDecided_pace (s : State) (f : Nat) : (s.launchDecided f).pace = s.pace := by simp [State.launchDecided]

@[simp] theorem State.refuseRun_pace (s : State) (id : PktId) (p status detail : Nat) : (s.refuseRun id p status detail).pace = s.pace := by
  simp [State.refuseRun]

@[simp] theorem State.unreserve_pace (s : State) : s.unreserve.pace = s.pace := by simp [State.unreserve]

@[simp] theorem State.benchRunStart_pace (s : State) (p b : Nat) : (s.benchRunStart p b).pace = s.pace := by simp [State.benchRunStart]

@[simp] theorem State.resetHurdles_pace (s : State) (p : Nat) : (s.resetHurdles p).pace = s.pace := by simp [State.resetHurdles]

@[simp] theorem State.launchRun_pace (s : State) (p : Nat) (t : Task) : (s.launchRun p t).pace = s.pace := by simp [State.launchRun]

@[simp] theorem startLaunchEffect_pace (p : Nat) (s : State) : (startLaunchEffect p s).pace = s.pace := by
  unfold startLaunchEffect
  split <;> simp

@[simp] theorem State.beginTest_pace (s : State) (b : Nat) (why : TestWhy) : (s.beginTest b why).pace = s.pace := by simp [State.beginTest]

@[simp] theorem State.startTest_pace (s : State) (b : Nat) (why : TestWhy) : (s.startTest b why).pace = s.pace := by simp [State.startTest]

@[simp] theorem deferredSelfTestStartEffect_pace (b : Nat) (s : State) : (deferredSelfTestStartEffect b s).pace = s.pace := by
  simp [deferredSelfTestStartEffect]

@[simp] theorem benchPowerTransitionEffect_pace (b : Nat) (s : State) : (benchPowerTransitionEffect b s).pace = s.pace := by
  simp [benchPowerTransitionEffect]

@[simp] theorem State.dropWork_pace (s : State) (p : Nat) : (s.dropWork p).pace = s.pace := by simp [State.dropWork]

@[simp] theorem packageSleepEntryEffect_pace (s : State) : (packageSleepEntryEffect s).pace = s.pace := by simp [packageSleepEntryEffect]

@[simp] theorem spliceWindowOpenEffect_pace (s : State) : (spliceWindowOpenEffect s).pace = s.pace := by simp [spliceWindowOpenEffect]

@[simp] theorem State.endBenchMove_pace (s : State) (b : Nat) : (s.endBenchMove b).pace = s.pace := by
  unfold State.endBenchMove
  split <;> simp

@[simp] theorem State.wakePackage_pace (s : State) : s.wakePackage.pace = s.pace :=
  State.pace_foldl (fun s b => by split <;> simp) _ (s.modGlb _)

@[simp] theorem State.endSleepMove_pace (s : State) : s.endSleepMove.pace = s.pace := by
  simp only [State.endSleepMove]
  (repeat' split) <;> simp

/-! ### The issue of commands -/

@[simp] theorem State.faultAbort_pace (s : State) (b c q detail cause : Nat) : (s.faultAbort b c q detail cause).pace = s.pace := by
  unfold State.faultAbort
  split <;> simp

@[simp] theorem badEntryEffect_pace (b c q : Nat) (s : State) : (badEntryEffect b c q s).pace = s.pace := by
  unfold badEntryEffect
  split <;> simp

@[simp] theorem State.modHurdle_pace (s : State) (p h : Nat) (f : Hurdle → Hurdle) : (s.modHurdle p h f).pace = s.pace := by
  simp [State.modHurdle]

@[simp] theorem State.acknowledge_pace (s : State) (p b c q h : Nat) : (s.acknowledge p b c q h).pace = s.pace := by
  simp [State.acknowledge]

@[simp] theorem State.issue_pace (s : State) (p : Nat) (t : Task) (b c q : Nat) (cmd : Cmd) (doneAt : Nat) (on : Until) :
    (s.issue p t b c q cmd doneAt on).pace = s.pace := by
  simp [State.issue]

@[simp] theorem nopEffect_pace (b c q : Nat) (s : State) : (nopEffect b c q s).pace = s.pace := by
  unfold nopEffect
  split <;> simp

@[simp] theorem State.busy_pace (s : State) (b c e until_ : Nat) : (s.busy b c e until_).pace = s.pace := by simp [State.busy]

@[simp] theorem jogEffect_pace (b c q : Nat) (s : State) : (jogEffect b c q s).pace = s.pace := by
  unfold jogEffect
  split <;> simp

@[simp] theorem endEffect_pace (b c q : Nat) (s : State) : (endEffect b c q s).pace = s.pace := by
  unfold endEffect
  split <;> simp

@[simp] theorem State.strike_pace (s : State) (us : List Upset) : (s.strike us).pace = s.pace := by simp [State.strike]

@[simp] theorem State.arithAbort_pace (s : State) (b c q bit op : Nat) : (s.arithAbort b c q bit op).pace = s.pace := by
  simp [State.arithAbort]

@[simp] theorem State.mxAbort_pace (s : State) (b c q op : Nat) (x : MxFault) : (s.mxAbort b c q op x).pace = s.pace := by
  unfold State.mxAbort
  split <;> simp

@[simp] theorem State.loadOn_pace (s : State) (eb ec q : Nat) (cmd : Cmd) (from_ : Nat) : (s.loadOn eb ec q cmd from_).pace = s.pace := by
  simp [State.loadOn]

@[simp] theorem State.addJob_pace (s : State) (b : Nat) (j : Job) : (s.addJob b j).pace = s.pace := by simp [State.addJob]

@[simp] theorem mloadEffect_pace (b c q : Nat) (errs : List Upset) (s : State) : (mloadEffect b c q errs s).pace = s.pace := by
  simp only [mloadEffect]
  (repeat' split) <;> simp

@[simp] theorem State.rowsNone_pace (s : State) (b c q : Nat) (cmd : Cmd) : (s.rowsNone b c q cmd).pace = s.pace := by simp [State.rowsNone]

@[simp] theorem State.streamOn_pace (s : State) (eb ec : Nat) (cmd : Cmd) (from_ : Nat) : (s.streamOn eb ec cmd from_).pace = s.pace := by
  simp [State.streamOn]

@[simp] theorem State.streamIssue_pace (s : State) (p : Nat) (t : Task) (b c q : Nat) (cmd : Cmd) (kind : JobKind) (gens : List (Option Nat)) :
    (s.streamIssue p t b c q cmd kind gens).pace = s.pace := by
  simp [State.streamIssue]

@[simp] theorem mstreamEffect_pace (b c q : Nat) (errs : List Upset) (s : State) : (mstreamEffect b c q errs s).pace = s.pace := by
  simp only [mstreamEffect]
  (repeat' split) <;> simp

@[simp] theorem mconvEffect_pace (b c q : Nat) (errs : List Upset) (s : State) : (mconvEffect b c q errs s).pace = s.pace := by
  simp only [mconvEffect]
  (repeat' split) <;> simp

@[simp] theorem mgenEffect_pace (b c q : Nat) (errs : List Upset) (s : State) : (mgenEffect b c q errs s).pace = s.pace := by
  simp only [mgenEffect]
  (repeat' split) <;> simp

@[simp] theorem State.dmaFault_pace (s : State) (b c q cause slot addr : Nat) (pasid : Option Nat) :
    (s.dmaFault b c q cause slot addr pasid).pace = s.pace := by
  simp [State.dmaFault]

@[simp] theorem sstartEffect_pace (b c q : Nat) (s : State) : (sstartEffect b c q s).pace = s.pace := by
  simp only [sstartEffect]
  (repeat' split) <;> simp

@[simp] theorem State.settleOn_pace (s : State) (b c : Nat) (u : Until) (at_ : Nat) : (s.settleOn b c u at_).pace = s.pace := by
  simp [State.settleOn]

@[simp] theorem State.slotIdle_pace (s : State) (b c i : Nat) : (s.slotIdle b c i).pace = s.pace := by simp [State.slotIdle]

@[simp] theorem State.slotRest_pace (s : State) (b c i : Nat) : (s.slotRest b c i).pace = s.pace := by simp [State.slotRest]

@[simp] theorem State.drainSlot_pace (s : State) (b c i : Nat) : (s.drainSlot b c i).pace = s.pace := by simp [State.drainSlot]

@[simp] theorem sdrainEffect_pace (b c q : Nat) (s : State) : (sdrainEffect b c q s).pace = s.pace := by
  unfold sdrainEffect
  split <;> simp

@[simp] theorem srearmEffect_pace (b c q : Nat) (s : State) : (srearmEffect b c q s).pace = s.pace := by
  simp only [srearmEffect]
  (repeat' split) <;> simp

@[simp] theorem dowelEffect_pace (b c q : Nat) (errs : List Upset) (s : State) : (dowelEffect b c q errs s).pace = s.pace := by
  simp only [dowelEffect]
  (repeat' split) <;> simp

@[simp] theorem blapEffect_pace (b c q : Nat) (errs : List Upset) (s : State) : (blapEffect b c q errs s).pace = s.pace := by
  simp only [blapEffect]
  (repeat' split) <;> simp

@[simp] theorem State.plumbAbort_pace (s : State) (b c q op : Nat) (x : PlbFault) : (s.plumbAbort b c q op x).pace = s.pace := by
  unfold State.plumbAbort
  split <;> simp

@[simp] theorem State.takePlumb_pace (s : State) (b c : Nat) (j : PlbJob) : (s.takePlumb b c j).pace = s.pace := by simp [State.takePlumb]

@[simp] theorem State.phaseRequests_pace (s : State) (e : PEng) (phase perIter total start len : Nat) :
    (s.phaseRequests e phase perIter total start len).pace = s.pace := by
  simp [State.phaseRequests]

@[simp] theorem State.modPlb_pace (s : State) (b c : Nat) (f : PlbJob → PlbJob) : (s.modPlb b c f).pace = s.pace := by simp [State.modPlb]

@[simp] theorem State.startProblem_pace (s : State) (es : List PEng) (batch credit : Bool) (start : Nat) :
    (s.startProblem es batch credit start).pace = s.pace := by
  simp [State.startProblem]

@[simp] theorem psolveEffect_pace (b c q : Nat) (errs : List Upset) (s : State) : (psolveEffect b c q errs s).pace = s.pace := by
  simp only [psolveEffect]
  (repeat' split) <;> simp

@[simp] theorem State.startBatch_pace (s : State) (p b c q a : Nat) (credit : Bool) (start : Nat) :
    (s.startBatch p b c q a credit start).pace = s.pace := by
  simp only [State.startBatch]
  (repeat' split) <;> simp

@[simp] theorem pbatchEffect_pace (b c q : Nat) (errs : List Upset) (s : State) : (pbatchEffect b c q errs s).pace = s.pace := by
  simp only [pbatchEffect]
  (repeat' split) <;> simp

@[simp] theorem pdeltaEffect_pace (b c q : Nat) (errs : List Upset) (s : State) : (pdeltaEffect b c q errs s).pace = s.pace := by
  simp only [pdeltaEffect]
  (repeat' split) <;> simp

@[simp] theorem vecEffect_pace (op b c q : Nat) (errs : List Upset) (s : State) : (vecEffect op b c q errs s).pace = s.pace := by
  simp only [vecEffect]
  (repeat' split) <;> simp

@[simp] theorem State.issueHead_pace (s : State) (b c q : Nat) : (s.issueHead b c q).pace = s.pace := by
  unfold State.issueHead
  split <;> simp

@[simp] theorem State.engineIssues_pace (s : State) (p b c e : Nat) : (s.engineIssues p b c e).pace = s.pace := by
  unfold State.engineIssues
  (repeat' split) <;> simp

/-! ### The streams' tiles -/

@[simp] theorem State.noteCapture_pace (s : State) (b c slot num : Nat) : (s.noteCapture b c slot num).pace = s.pace := by
  unfold State.noteCapture
  split <;> simp

@[simp] theorem State.creditReturn_pace (s : State) (b c ctx link n : Nat) : (s.creditReturn b c ctx link n).pace = s.pace := by
  simp [State.creditReturn]

@[simp] theorem State.ringCredit_pace (s : State) (b c slot num : Nat) : (s.ringCredit b c slot num).pace = s.pace := by
  simp [State.ringCredit]

@[simp] theorem State.tileIndexed_pace (s : State) (p b c slot num : Nat) (words : List Nat) :
    (s.tileIndexed p b c slot num words).pace = s.pace := by
  simp only [State.tileIndexed]
  (repeat' split) <;> simp

@[simp] theorem State.startTile_pace (s : State) (p b c slot : Nat) (t : Task) : (s.startTile p b c slot t).pace = s.pace := by
  simp [State.startTile]

@[simp] theorem streamTileStartEffect_pace (b c slot : Nat) (errs : List Upset) (s : State) :
    (streamTileStartEffect b c slot errs s).pace = s.pace := by
  simp only [streamTileStartEffect]
  (repeat' split) <;> simp

@[simp] theorem State.coreBegins_pace (s : State) (p b c : Nat) : (s.coreBegins p b c).pace = s.pace := by simp [State.coreBegins]

/-! ### The ring's legs and laps -/

@[simp] theorem State.eachLeg_pace (s : State) (p : Nat) {f : State → Leg → State} (h : ∀ s x, (f s x).pace = s.pace) :
    (State.eachLeg s p f).pace = s.pace := State.pace_foldl (fun s id => by split <;> simp [h]) _ s

@[simp] theorem State.signal_pace (s : State) (b c key tally delta ctx : Nat) : (s.signal b c key tally delta ctx).pace = s.pace := by
  simp [State.signal]

@[simp] theorem State.signalArrival_pace (s : State) (p b : Nat) (ccw : Bool) : (s.signalArrival p b ccw).pace = s.pace := by
  simp only [State.signalArrival]
  (repeat' split) <;> simp

@[simp] theorem State.boundary_pace (s : State) (p : Nat) (ends : Bool) : (s.boundary p ends).pace = s.pace := by simp [State.boundary]

@[simp] theorem State.legEnds_pace (s : State) (p : Nat) (l : Leg) : (s.legEnds p l).pace = s.pace := by simp [State.legEnds]

@[simp] theorem State.ringArrivals_pace (s : State) (p : Nat) : (s.ringArrivals p).pace = s.pace := by simp [State.ringArrivals]

@[simp] theorem State.addLegs_pace (s : State) (p : Nat) (ls : List Leg) : (s.addLegs p ls).pace = s.pace := by simp [State.addLegs]

@[simp] theorem State.startLap_pace (s : State) (p b : Nat) (l : Lap) : (s.startLap p b l).pace = s.pace := by simp [State.startLap]

@[simp] theorem lapStartEffect_pace (b : Nat) (s : State) : (lapStartEffect b s).pace = s.pace := by
  simp only [lapStartEffect]
  (repeat' split) <;> simp

/-! ### The dowels' requests -/

@[simp] theorem State.shareWrite_pace (s : State) (p off : Nat) (bs : Bytes) : (s.shareWrite p off bs).pace = s.pace := by
  simp [State.shareWrite]

@[simp] theorem State.hbmWrite_pace (s : State) (p off : Nat) (bs : Bytes) : (s.hbmWrite p off bs).pace = s.pace := by simp [State.hbmWrite]

@[simp] theorem State.writeFar_pace (s : State) (p b c : Nat) (r : Req) : (s.writeFar p b c r).pace = s.pace := by
  unfold State.writeFar
  (repeat' split) <;> simp

@[simp] theorem State.readSource_pace (s : State) (p b c due : Nat) (r : Req) : (s.readSource p b c due r).pace = s.pace := by
  simp [State.readSource]

@[simp] theorem State.issueReq_pace (s : State) (p b c cls slot : Nat) (r : Req) (used : Option AtcEnt) :
    (s.issueReq p b c cls slot r used).pace = s.pace := by
  simp [State.issueReq]

@[simp] theorem State.askTranslation_pace (s : State) (b c slot : Nat) (r : Req) (a : Nat) :
    (s.askTranslation b c slot r a).pace = s.pace := by
  simp [State.askTranslation]

@[simp] theorem State.dmaCycle_pace (s : State) (b c : Nat) : (s.dmaCycle b c).pace = s.pace := by
  simp only [State.dmaCycle]
  (repeat' split) <;> simp

@[simp] theorem State.modLeg_pace (s : State) (p id : Nat) (f : Leg → Leg) : (s.modLeg p id f).pace = s.pace := by simp [State.modLeg]

@[simp] theorem State.takeSlot_pace (s : State) (p : Nat) (l : Leg) : (s.takeSlot p l).pace = s.pace := by simp [State.takeSlot]

@[simp] theorem State.landFlits_pace (s : State) (p : Nat) (l : Leg) : (s.landFlits p l).pace = s.pace := by
  unfold State.landFlits
  split <;> simp

@[simp] theorem State.legLands_pace (s : State) (p : Nat) (l : Leg) : (s.legLands p l).pace = s.pace := by
  simp only [State.legLands]
  (repeat' split) <;> simp

@[simp] theorem State.laneSends_pace (s : State) (p place : Nat) (ccw : Bool) : (s.laneSends p place ccw).pace = s.pace := by
  simp only [State.laneSends]
  (repeat' split) <;> simp

@[simp] theorem State.ringAsk_pace (s : State) (p : Nat) : (s.ringAsk p).pace = s.pace := by simp [State.ringAsk]

@[simp] theorem State.partBegins_pace (s : State) (p : Nat) : (s.partBegins p).pace = s.pace := by simp [State.partBegins]

/-! ### Jobs, and what the stores' ports serve -/

@[simp] theorem State.eachJob_pace (s : State) (p : Nat) {f : State → Job → State} (h : ∀ s x, (f s x).pace = s.pace) :
    (State.eachJob s p f).pace = s.pace := State.pace_foldl (fun s id => by split <;> simp [h]) _ s

@[simp] theorem State.modJob_pace (s : State) (b id : Nat) (f : Job → Job) : (s.modJob b id f).pace = s.pace := by simp [State.modJob]

@[simp] theorem State.vecAsk_pace (s : State) (b : Nat) (j : Job) : (s.vecAsk b j).pace = s.pace := by simp [State.vecAsk]

@[simp] theorem State.gatherRow_pace (s : State) (b : Nat) (j : Job) (row : Bytes) : (s.gatherRow b j row).pace = s.pace := by
  simp [State.gatherRow]

@[simp] theorem State.matrixAsk_pace (s : State) (b : Nat) (j : Job) : (s.matrixAsk b j).pace = s.pace := by
  unfold State.matrixAsk
  extract_lets ask
  (repeat' split) <;> simp only [ask, State.ask_pace, State.modJob_pace, State.gatherRow_pace]

@[simp] theorem State.jobsAsk_pace (s : State) (b : Nat) : (s.jobsAsk b).pace = s.pace := by simp [State.jobsAsk]

@[simp] theorem State.askWriteBack_pace (s : State) (b : Nat) (w : Nat × Nat × Nat) : (s.askWriteBack b w).pace = s.pace := by
  simp [State.askWriteBack]

@[simp] theorem State.writeBacks_pace (s : State) (b : Nat) : (s.writeBacks b).pace = s.pace := by simp [State.writeBacks]

@[simp] theorem State.markWaits_pace (s : State) (b : Nat) (denied : List MemReq) : (s.markWaits b denied).pace = s.pace := by
  simp only [State.markWaits]
  (repeat' split) <;> simp

@[simp] theorem State.spdEvent_pace (s : State) (b n : Nat) : (s.spdEvent b n).pace = s.pace := by simp [State.spdEvent]

@[simp] theorem State.portClash_pace (s : State) (b bank row first second : Nat) (ww : Bool) :
    (s.portClash b bank row first second ww).pace = s.pace := by
  simp [State.portClash]

@[simp] theorem State.clashes_pace (s : State) (b : Nat) (served denied : List MemReq) (r : MemReq) :
    (s.clashes b served denied r).pace = s.pace := by
  simp only [State.clashes]
  (repeat' split) <;> simp

@[simp] theorem State.leaseBreach_pace (s : State) (b bank port : Nat) : (s.leaseBreach b bank port).pace = s.pace := by
  unfold State.leaseBreach
  split <;> simp

@[simp] theorem State.rackCorrected_pace (s : State) (b port bank row word : Nat) :
    (s.rackCorrected b port bank row word).pace = s.pace := by
  simp [State.rackCorrected]

@[simp] theorem State.rackBroken_pace (s : State) (b port bank row word : Nat) : (s.rackBroken b port bank row word).pace = s.pace := by
  simp [State.rackBroken]

@[simp] theorem State.parityRerun_pace (s : State) (b : Nat) : (s.parityRerun b).pace = s.pace := by
  unfold State.parityRerun
  (repeat' split) <;> simp

@[simp] theorem State.parityError_pace (s : State) (b port bank row word : Nat) : (s.parityError b port bank row word).pace = s.pace := by
  simp [State.parityError]

@[simp] theorem State.readWord_pace (s : State) (b port a : Nat) (bs : Bytes) (us : List Upset) :
    (s.readWord b port a bs us).2.pace = s.pace := by
  unfold State.readWord
  split
  · rfl
  · split
    · split
      · simp
      · split
        · simp
        · dsimp only
          split <;> simp
    · simp

@[simp] theorem State.readSpan_pace (s : State) (b port : Nat) (rack : Bool) (a n : Nat) : (s.readSpan b port rack a n).2.pace = s.pace := by
  unfold State.readSpan
  dsimp only
  split
  · rfl
  · exact State.pace_foldl_snd (fun acc o => acc.2.readWord_pace b port a acc.1 _) _ _

@[simp] theorem State.readReq_pace (s : State) (b : Nat) (r : MemReq) : (s.readReq b r).2.pace = s.pace := by
  refine State.pace_foldl_snd (fun acc x => ?_) _ ([], s)
  exact acc.2.readSpan_pace b r.port r.rack x.1 x.2

@[simp] theorem State.writeBackDone_pace (s : State) (b : Nat) (r : MemReq) : (s.writeBackDone b r).pace = s.pace := by
  unfold State.writeBackDone
  split <;> simp

@[simp] theorem State.rackStore_pace (s : State) (b a : Nat) (bs : Bytes) : (s.rackStore b a bs).pace = s.pace := by simp [State.rackStore]

@[simp] theorem State.touchStore_pace (s : State) (b : Nat) (rack : Bool) (a n : Nat) : (s.touchStore b rack a n).pace = s.pace := by
  unfold State.touchStore
  split <;> simp

@[simp] theorem State.rackWrite_pace (s : State) (b a : Nat) (bs : Bytes) : (s.rackWrite b a bs).pace = s.pace := by simp [State.rackWrite]

@[simp] theorem State.actWrite_pace (s : State) (b a : Nat) (bs : Bytes) : (s.actWrite b a bs).pace = s.pace := by simp [State.actWrite]

@[simp] theorem State.writeReq_pace (s : State) (b : Nat) (r : MemReq) : (s.writeReq b r).pace = s.pace := by
  unfold State.writeReq
  split <;> simp

@[simp] theorem State.serveBench_pace (s : State) (b : Nat) : (s.serveBench b).1.pace = s.pace := by
  unfold State.serveBench
  dsimp only
  split
  · rfl
  · refine (State.pace_foldl (fun s r => by simp) _ _).trans ((State.pace_foldl_fst (fun acc r => acc.1.readReq_pace b r) _ _).trans ?_)
    simp

@[simp] theorem State.dowelRest_pace (s : State) (b c id : Nat) : (s.dowelRest b c id).pace = s.pace := by simp [State.dowelRest]

@[simp] theorem State.reqEnd_pace (s : State) (b c : Nat) (r : Req) : (s.reqEnd b c r).pace = s.pace := by
  simp only [State.reqEnd]
  (repeat' split) <;> simp

@[simp] theorem State.sourceCame_pace (s : State) (p b c : Nat) (r : Req) : (s.sourceCame p b c r).pace = s.pace := by
  simp [State.sourceCame]

@[simp] theorem State.dmaServed_pace (s : State) (x b c id : Nat) (m : MemReq) (bs : List Bytes) :
    (s.dmaServed x b c id m bs).pace = s.pace := by
  simp only [State.dmaServed]
  (repeat' split) <;> simp

@[simp] theorem State.indexCame_pace (s : State) (b c slot num : Nat) (spans : List (Nat × Nat)) (bs : List Bytes) :
    (s.indexCame b c slot num spans bs).pace = s.pace := by
  simp only [State.indexCame]
  (repeat' split) <;> simp

@[simp] theorem State.flitServed_pace (s : State) (p id : Nat) (m : MemReq) (bs : List Bytes) : (s.flitServed p id m bs).pace = s.pace := by
  unfold State.flitServed
  split <;> simp

@[simp] theorem State.deliver_pace (s : State) (b : Nat) (x : Served) : (s.deliver b x).pace = s.pace := by
  unfold State.deliver
  split <;> simp

@[simp] theorem State.serveAll_pace (s : State) : s.serveAll.pace = s.pace := by simp [State.serveAll]

/-! ### The end of a cycle: hurdles, engines, tiles and legs -/

@[simp] theorem State.releaseRound_pace (s : State) (p h : Nat) (last : List Nat) : (s.releaseRound p h last).pace = s.pace := by
  simp [State.releaseRound]

@[simp] theorem State.moveEarly_pace (s : State) (p h : Nat) : (s.moveEarly p h).pace = s.pace := by simp [State.moveEarly]

@[simp] theorem earlyArrivalMoveEffect_pace (p h : Nat) (s : State) : (earlyArrivalMoveEffect p h s).pace = s.pace := by
  unfold earlyArrivalMoveEffect
  split <;> simp

@[simp] theorem State.saturate_pace (s : State) (b c step kind n : Nat) : (s.saturate b c step kind n).pace = s.pace := by
  simp [State.saturate]

@[simp] theorem State.vecAdvance_pace (s : State) (b : Nat) (j : Job) : (s.vecAdvance b j).pace = s.pace := by simp [State.vecAdvance]

@[simp] theorem State.loadStep_pace (s : State) (b : Nat) (j : Job) : (s.loadStep b j).pace = s.pace := by simp [State.loadStep]

@[simp] theorem State.rowOn_pace (s : State) (b : Nat) (job : Job) (j due : Nat) (row : List Int) (ag : Nat × Nat × Int) :
    (s.rowOn b job j due row ag).pace = s.pace := by
  simp [State.rowOn]

@[simp] theorem State.rowIn_pace (s : State) (b : Nat) (job : Job) (j due : Nat) (row : List Int) :
    (s.rowIn b job j due row).pace = s.pace := by
  simp [State.rowIn]

@[simp] theorem State.waveStep_pace (s : State) (b : Nat) (j : Job) : (s.waveStep b j).pace = s.pace := by simp [State.waveStep]

@[simp] theorem State.matrixAdvance_pace (s : State) (b : Nat) (j : Job) : (s.matrixAdvance b j).pace = s.pace := by
  unfold State.matrixAdvance
  (repeat' split) <;> simp

@[simp] theorem State.enterStep_pace (s : State) (b : Nat) (j : Job) : (s.enterStep b j).pace = s.pace := by
  unfold State.enterStep
  split <;> simp

@[simp] theorem State.jobsAdvance_pace (s : State) (b : Nat) : (s.jobsAdvance b).pace = s.pace := by simp [State.jobsAdvance]

@[simp] theorem State.feederPush_pace (s : State) (b c a : Nat) : (s.feederPush b c a).pace = s.pace := by
  simp only [State.feederPush]
  (repeat' split) <;> simp

@[simp] theorem State.plumbRest_pace (s : State) (b c at_ : Nat) : (s.plumbRest b c at_).pace = s.pace := by simp [State.plumbRest]

@[simp] theorem State.deltaFault_pace (s : State) (p b c : Nat) (j : PlbJob) (i : Nat) : (s.deltaFault p b c j i).pace = s.pace := by
  unfold State.deltaFault
  split <;> simp

@[simp] theorem State.plumbCount_pace (s : State) (b c step status iters : Nat) : (s.plumbCount b c step status iters).pace = s.pace := by
  simp [State.plumbCount]

@[simp] theorem State.writeSolution_pace (s : State) (o : Outcome) (start len : Nat) (e : PEng) (lo : Nat) :
    (s.writeSolution o start len e lo).pace = s.pace := by
  simp [State.writeSolution]

@[simp] theorem State.writeProblem_pace (s : State) (p : Nat) (es : List PEng) (batch : Bool) (start len : Nat) :
    (s.writeProblem p es batch start len).pace = s.pace :=
  State.pace_foldl_fst (fun a e => a.1.writeSolution_pace _ start len e a.2) es (s, 0)

@[simp] theorem State.nextPhase_pace (s : State) (p : Nat) (es : List PEng) (j : PlbJob) : (s.nextPhase p es j).pace = s.pace := by
  simp [State.nextPhase]

@[simp] theorem State.phasesEnd_pace (p b c n : Nat) (s : State) : (State.phasesEnd p b c n s).pace = s.pace := by
  induction n generalizing s with
  | zero => rfl
  | succ n ih =>
    unfold State.phasesEnd
    (repeat' split) <;> simp [ih]

@[simp] theorem solveCompleteEffect_pace (b c : Nat) (s : State) : (solveCompleteEffect b c s).pace = s.pace := by
  unfold solveCompleteEffect
  split <;> simp

@[simp] theorem State.plumbCycle_pace (s : State) (b c : Nat) : (s.plumbCycle b c).pace = s.pace := by
  unfold State.plumbCycle
  split <;> simp

@[simp] theorem State.rowsFed_pace (s : State) (b c : Nat) : (s.rowsFed b c).pace = s.pace := by simp [State.rowsFed]

@[simp] theorem deadlineMissEffect_pace (b c slot : Nat) (s : State) : (deadlineMissEffect b c slot s).pace = s.pace := by
  simp only [deadlineMissEffect]
  (repeat' split) <;> simp

@[simp] theorem tileLandEffect_pace (b c slot : Nat) (s : State) : (tileLandEffect b c slot s).pace = s.pace := by
  simp only [tileLandEffect]
  (repeat' split) <;> simp

@[simp] theorem State.dropHeld_pace (s : State) (b c : Nat) : (s.dropHeld b c).pace = s.pace := by
  unfold State.dropHeld
  split <;> simp

@[simp] theorem State.coreEnds_pace (s : State) (b c : Nat) : (s.coreEnds b c).pace = s.pace := by simp [State.coreEnds]

@[simp] theorem State.jobsEnd_pace (s : State) (b : Nat) : (s.jobsEnd b).pace = s.pace := by simp [State.jobsEnd]

@[simp] theorem State.batonLate_pace (s : State) (p : Nat) (l : Leg) : (s.batonLate p l).pace = s.pace := by simp [State.batonLate]

@[simp] theorem State.ringDue_pace (s : State) (p : Nat) : (s.ringDue p).pace = s.pace := by simp [State.ringDue]

@[simp] theorem State.forwardLeg_pace (s : State) (p : Nat) (l : Leg) : (s.forwardLeg p l).pace = s.pace := by simp [State.forwardLeg]

@[simp] theorem State.ringForward_pace (s : State) (p : Nat) : (s.ringForward p).pace = s.pace := by simp [State.ringForward]

@[simp] theorem State.hurdleFault_pace (s : State) (p bit h slot c q : Nat) : (s.hurdleFault p bit h slot c q).pace = s.pace := by
  simp [State.hurdleFault]

@[simp] theorem State.setArrival_pace (s : State) (b c q h : Nat) (held : Bool) (freeAt : Option Nat) :
    (s.setArrival b c q h held freeAt).pace = s.pace := by
  simp [State.setArrival]

@[simp] theorem State.poison_pace (s : State) (p h b c q : Nat) : (s.poison p h b c q).pace = s.pace := by simp [State.poison]

@[simp] theorem State.arrive_pace (s : State) (p b c q h : Nat) : (s.arrive p b c q h).pace = s.pace := by simp [State.arrive]

@[simp] theorem State.arriveNow_pace (s : State) (b c q : Nat) : (s.arriveNow b c q).pace = s.pace := by
  unfold State.arriveNow
  split <;> simp

@[simp] theorem hurdleArrivalEffect_pace (b c q : Nat) (s : State) : (hurdleArrivalEffect b c q s).pace = s.pace := by
  unfold hurdleArrivalEffect
  split <;> simp

@[simp] theorem completeEffect_pace (b c q : Nat) (s : State) : (completeEffect b c q s).pace = s.pace := by
  simp only [completeEffect]
  (repeat' split) <;> simp

@[simp] theorem State.queuesEnd_pace (s : State) (b c : Nat) : (s.queuesEnd b c).pace = s.pace := by simp [State.queuesEnd]

@[simp] theorem State.partEnds_pace (s : State) (p : Nat) : (s.partEnds p).pace = s.pace := by simp [State.partEnds]

/-! ### The ledger -/

@[simp] theorem State.stageRaw_pace (s : State) (p ty : Nat) (body : Bytes) : (s.stageRaw p ty body).pace = s.pace := by
  simp [State.stageRaw]

@[simp] theorem State.stageSignature_pace (s : State) (p : Nat) : (s.stageSignature p).pace = s.pace := by simp [State.stageSignature]

@[simp] theorem signatureTimerEffect_pace (p : Nat) (s : State) : (signatureTimerEffect p s).pace = s.pace := by simp [signatureTimerEffect]

@[simp] theorem keepAliveEffect_pace (i : Nat) (s : State) : (keepAliveEffect i s).pace = s.pace := by simp [keepAliveEffect]

@[simp] theorem State.keepAlives_pace (s : State) : s.keepAlives.pace = s.pace := by simp [State.keepAlives]

theorem State.newStripe_pace {s : State} {sectors : List Sector} {aux : Option Nat} {reserve : Bool} {t : State × Stripe}
    (h : s.newStripe sectors aux reserve = some t) : t.1.pace = s.pace := by
  unfold State.newStripe at h
  dsimp only at h
  split at h <;> obtain ⟨r, -, rfl⟩ := Option.map_eq_some_iff.1 h <;> rfl

@[simp] theorem State.relocate_pace (s : State) (n : Nat) (ys : List Sector) : (s.relocate n ys).pace = s.pace := by
  simp only [State.relocate]
  split
  · simp
  · split
    · simp
    next h => simp [State.newStripe_pace h]

@[simp] theorem State.stageStripe_pace (s : State) : s.stageStripe.pace = s.pace := by
  simp only [State.stageStripe]
  split
  · rfl
  · split
    · rfl
    next h => simp [State.newStripe_pace h]

@[simp] theorem State.mediaStart_pace (s : State) : s.mediaStart.pace = s.pace := by
  simp only [State.mediaStart]
  (repeat' split) <;> simp

@[simp] theorem stripeStartEffect_pace (s : State) : (stripeStartEffect s).pace = s.pace := by simp [stripeStartEffect]

@[simp] theorem anchorTimerEffect_pace (s : State) : (anchorTimerEffect s).pace = s.pace := by
  unfold anchorTimerEffect
  split <;> simp

@[simp] theorem State.ledgerActs_pace (s : State) : s.ledgerActs.pace = s.pace := by simp [State.ledgerActs]

/-! ### The end of a step: checkpoints, commits, clamps, reruns -/

@[simp] theorem State.buddyCopy_pace (s : State) (p : Nat) : (s.buddyCopy p).pace = s.pace := by simp [State.buddyCopy]

@[simp] theorem State.loadEnd_pace (s : State) (p : Nat) : (s.loadEnd p).pace = s.pace := by
  unfold State.loadEnd
  split <;> simp

@[simp] theorem State.endAwait_pace (s : State) (p : Nat) : (s.endAwait p).pace = s.pace := by
  unfold State.endAwait
  split <;> simp

@[simp] theorem buddyPauseEndEffect_pace (p : Nat) (s : State) : (buddyPauseEndEffect p s).pace = s.pace := by
  unfold buddyPauseEndEffect
  (repeat' split) <;> simp

@[simp] theorem State.freeOutputs_pace (s : State) (p : Nat) : (s.freeOutputs p).2.pace = s.pace := by
  unfold State.freeOutputs
  split
  · rfl
  · split
    · rfl
    · refine State.pace_foldl_snd (fun acc r => ?_) _ ([], s)
      rfl

@[simp] theorem State.recordStep_pace (s : State) (p k : Nat) : (s.recordStep p k).pace = s.pace := by simp [State.recordStep]

@[simp] theorem State.splitRecord_pace (s : State) (p : Nat) (x : Layer) : (s.splitRecord p x).pace = s.pace := by
  unfold State.splitRecord
  split <;> simp

@[simp] theorem State.dropEntry_pace (s : State) : s.dropEntry.pace = s.pace := by simp [State.dropEntry]

@[simp] theorem State.endTask_pace (s : State) (p : Nat) (t : Task) (outcome status detail : Nat) (r1 : Nat) (postIt : Bool) :
    (s.endTask p t outcome status detail r1 postIt).pace = s.pace := by
  simp [State.endTask]

@[simp] theorem State.modArc_pace (s : State) (p : Nat) (f : Bench → Bench) : (s.modArc p f).pace = s.pace := by simp [State.modArc]

@[simp] theorem State.quietRun_pace (s : State) (p : Nat) : (s.quietRun p).pace = s.pace := by simp [State.quietRun]

@[simp] theorem State.closeTask_pace (s : State) (p outcome status detail r1 : Nat) (postIt : Bool) (final : PState) :
    (s.closeTask p outcome status detail r1 postIt final).pace = s.pace := by
  unfold State.closeTask
  split <;> simp

@[simp] theorem State.clampStep_pace (s : State) (p k : Nat) (t : Task) : (s.clampStep p k t).pace = s.pace := by simp [State.clampStep]

@[simp] theorem State.commitNow_pace (s : State) (p : Nat) (t : Task) (last : Bool) (hostOut : List Bytes) :
    (s.commitNow p t last hostOut).pace = s.pace := by
  simp [State.commitNow]

@[simp] theorem stepCommitEffect_pace (p : Nat) (hostOut : List Bytes) (s : State) : (stepCommitEffect p hostOut s).pace = s.pace := by
  unfold stepCommitEffect
  split <;> simp

@[simp] theorem taskAbortCompleteEffect_pace (p : Nat) (s : State) : (taskAbortCompleteEffect p s).pace = s.pace := by
  unfold taskAbortCompleteEffect
  split <;> simp

@[simp] theorem State.undoLaps_pace (s : State) (p : Nat) (snaps : List CoreSnap) : (s.undoLaps p snaps).pace = s.pace := by
  simp [State.undoLaps]

@[simp] theorem State.backToStep_pace (s : State) (p : Nat) (t : Task) (resumeAt : Nat) : (s.backToStep p t resumeAt).pace = s.pace := by
  simp [State.backToStep]

@[simp] theorem State.modArcCores_pace (s : State) (p : Nat) (f : Core → Core) : (s.modArcCores p f).pace = s.pace := by
  simp [State.modArcCores]

@[simp] theorem State.shiftRun_pace (s : State) (p d : Nat) : (s.shiftRun p d).pace = s.pace := by simp [State.shiftRun]

@[simp] theorem State.resumeAfterLoad_pace (s : State) (p : Nat) (t : Task) (kind : Nat) : (s.resumeAfterLoad p t kind).pace = s.pace := by
  simp only [State.resumeAfterLoad]
  (repeat' split) <;> simp

@[simp] theorem buddyLoadDoneEffect_pace (p : Nat) (s : State) : (buddyLoadDoneEffect p s).pace = s.pace := by
  simp only [buddyLoadDoneEffect]
  (repeat' split) <;> simp

@[simp] theorem lateTileResumeEffect_pace (p : Nat) (s : State) : (lateTileResumeEffect p s).pace = s.pace := by
  unfold lateTileResumeEffect
  split <;> simp

@[simp] theorem stepRerunEffect_pace (p : Nat) (s : State) : (stepRerunEffect p s).pace = s.pace := by
  unfold stepRerunEffect
  split <;> simp

@[simp] theorem clampDoneEffect_pace (p : Nat) (s : State) : (clampDoneEffect p s).pace = s.pace := by
  simp only [clampDoneEffect]
  (repeat' split) <;> simp

@[simp] theorem State.stepEnds_pace (s : State) (p : Nat) : (s.stepEnds p).pace = s.pace := by simp [State.stepEnds]

@[simp] theorem State.coreCounts_pace (s : State) (b c : Nat) : (s.coreCounts b c).pace = s.pace := by simp [State.coreCounts]

end Sys2Proof.Machine
end

section
/-! R53, R57, R64 to R66, R72, R75 to R77: the core cycles of a beat, the REF_BEAT edge and the gate (O2, O7). -/

namespace Sys2Proof.Machine

/-! ### What an unchanged pace means -/

theorem State.eligible_fn (s : State) (f : Nat) : (s.fn f).eligible = (s.fns.map Aivia.eligible).getD f 0 :=
  (List.getD_map (l := s.fns) (d := ({} : Aivia)) (f := Aivia.eligible)).symm

section
variable {s t : State} (h : t.pace = s.pace)
include h

theorem State.pending_of_pace : t.pending = s.pending := congrArg Prod.fst h
theorem State.beat_of_pace : t.beat = s.beat := congrArg (fun x => x.2.1) h
theorem State.doorbells_of_pace : t.doorbells = s.doorbells := congrArg (fun x => x.2.2.1) h

theorem State.eligible_of_pace (f : Nat) : (t.fn f).eligible = (s.fn f).eligible := by
  have hf : t.fns.map Aivia.eligible = s.fns.map Aivia.eligible := congrArg (fun x => x.2.2.2) h
  calc (t.fn f).eligible = (t.fns.map Aivia.eligible).getD f 0 := t.eligible_fn f
    _ = (s.fns.map Aivia.eligible).getD f 0 := by rw [hf]
    _ = (s.fn f).eligible := (s.eligible_fn f).symm

end

/-! ### The gate (R75 to R77, R200) -/

/-- t follows s within an open gate: packets may have been taken in, and neither the beat nor the doorbells have changed. -/
structure State.GateGoesOn (s t : State) : Prop where
  pending : t.pending = s.pending
  beat : t.beat = s.beat
  doorbells : t.doorbells = s.doorbells
  eligible : ∀ f, (t.fn f).eligible ≤ (s.fn f).eligible

theorem State.GateGoesOn.of_pace {s t : State} (h : t.pace = s.pace) : s.GateGoesOn t :=
  ⟨pending_of_pace h, beat_of_pace h, doorbells_of_pace h, fun f => (eligible_of_pace h f).le⟩

theorem State.GateGoesOn.trans {s t u : State} (h : s.GateGoesOn t) (k : t.GateGoesOn u) : s.GateGoesOn u :=
  ⟨k.pending.trans h.pending, k.beat.trans h.beat, k.doorbells.trans h.doorbells, fun f => (k.eligible f).trans (h.eligible f)⟩

theorem State.GateGoesOn.foldl {α : Type} {f : State → α → State} (h : ∀ (s : State) (a : α), s.GateGoesOn (f s a)) (xs : List α)
    (s : State) : s.GateGoesOn (xs.foldl f s) := by
  induction xs generalizing s with
  | nil => exact .of_pace rfl
  | cons x xs ih => exact (h s x).trans (ih _)

theorem State.GateGoesOn.takePkt (s : State) (f i : Nat) : s.GateGoesOn (s.takePkt f i) := by
  refine ⟨rfl, rfl, rfl, fun g => ?_⟩
  by_cases hf : f = g
  · subst hf
    by_cases hl : f < s.fns.length
    · rw [State.takePkt, State.fn_modFn _ _ _ hl]
      exact Nat.sub_le _ _
    · rw [State.takePkt, State.modFn, List.modify_eq_self (Nat.not_lt.1 hl)]
  · rw [State.takePkt, State.fn_modFn_ne _ _ _ _ hf]

theorem State.GateGoesOn.flushReserved (f n : Nat) (s : State) : s.GateGoesOn (s.flushReserved f n) := by
  induction n generalizing s with
  | zero => exact .of_pace rfl
  | succ n ih =>
    unfold State.flushReserved
    split
    · split
      · exact .of_pace rfl
      · exact ((GateGoesOn.takePkt s _ _).trans (.of_pace (refuseHeader_pace _ _ _))).trans (ih _)
    · exact .of_pace rfl

/-- R200: doorbells captured before the cut take effect, and the others stay. -/
theorem State.gateDoorbells_pace (s : State) : s.gateDoorbells.pace =
    (s.pending, s.beat, s.doorbells.filter fun d => !decide (d.1 + 2 < s.beat.periods), s.fns.map Aivia.eligible) :=
  State.pace_foldl State.admitDoorbell_pace _ _

/-- R200: the doorbells from before the cut take effect, and nothing else of the pace changes. -/
theorem State.gateDoorbells_keeps (s : State) :
    s.gateDoorbells.pending = s.pending ∧ s.gateDoorbells.beat = s.beat ∧
      (∀ f, (s.gateDoorbells.fn f).eligible = (s.fn f).eligible) ∧ ∀ d ∈ s.gateDoorbells.doorbells, s.beat.periods ≤ d.1 + 2 := by
  have hg : s.gateDoorbells.pace =
      State.pace { s with doorbells := s.doorbells.filter fun d => !decide (d.1 + 2 < s.beat.periods) } := s.gateDoorbells_pace
  refine ⟨(pending_of_pace hg :), (beat_of_pace hg :), (eligible_of_pace hg :), fun d hd => ?_⟩
  rw [doorbells_of_pace hg] at hd
  simpa using (List.mem_filter.1 hd).2

/-- A gate that has just opened (R75, R77). -/
def State.admitting64 (s : State) : State :=
  { s with beat := { s.beat with gateOpen := true, gateDone := true }, fns := s.fns.map fun (a : Aivia) => { a with eligible := 64 } }

theorem State.admitting64_eligible (s : State) (f : Nat) : (s.admitting64.fn f).eligible ≤ 64 := by
  by_cases hf : f < s.fns.length <;> simp [State.fn, State.admitting64, hf]

/-- What follows at an open gate once its doorbells have taken effect. -/
theorem State.GateGoesOn.openGate (s : State) (env : GateEnv) :
    State.GateGoesOn (s.admitting64.endWake.compareAll env).gateDoorbells (s.openGate env) := by
  refine (of_pace ?_).trans (.foldl (fun s f => (of_pace (State.wakeForRun_pace s f)).trans (.flushReserved f 64 _)) _ _)
  simp [State.modBeat, State.admitting64]

/-- R75 to R77, R200: an open gate admits at most 64 packets of each function, and no doorbell from before the cut waits. -/
theorem State.openGate_opens (s : State) (env : GateEnv) :
    (s.openGate env).pending = s.pending ∧ (s.openGate env).beat = { s.beat with gateOpen := true, gateDone := true } ∧
      (∀ f, ((s.openGate env).fn f).eligible ≤ 64) ∧ ∀ d ∈ (s.openGate env).doorbells, s.beat.periods ≤ d.1 + 2 := by
  have hw : (s.admitting64.endWake.compareAll env).pace = s.admitting64.pace := by simp
  obtain ⟨gp, gb, ge, gd⟩ := (s.admitting64.endWake.compareAll env).gateDoorbells_keeps
  obtain ⟨hp, hb, hd, he⟩ := GateGoesOn.openGate s env
  rw [beat_of_pace hw] at gb gd
  refine ⟨hp.trans (gp.trans (pending_of_pace hw :)), hb.trans gb, fun f => ?_, fun d h => gd d (hd ▸ h)⟩
  calc ((s.openGate env).fn f).eligible ≤ _ := he f
    _ = (s.admitting64.fn f).eligible := (ge f).trans (eligible_of_pace hw f)
    _ ≤ 64 := s.admitting64_eligible f

/-! ### The dial: what a core cycle moves on or leaves alone (R53, R65 to R68, R72) -/

/-- The beat counter without its flags and tallies: the count and the load that is due, the cycle within the beat, the samples. -/
def Beat.dial (b : Beat) : Beat :=
  { b with epochPrior := 0, locked := false, aligned := false, holdover := false, armed := false, events := 0, lostCount := 0, holdCount := 0
           edgeArmed := false, loadDecided := false, epochBeat := false, lost := false, relocking := false, relockBeats := 0
           gateOpen := false, gateDone := false }

/-- The commands that wait, and the dial. -/
def State.dial (s : State) : List Instr × Beat := (s.pending, s.beat.dial)

/-- No epoch edge is still to be handled. -/
def Beat.edgeDone (b : Beat) : Beat := { b with edgeSeen := false }

/-- No epoch load is due: where it was, the count is the epoch's (R67). -/
def Beat.loaded (b : Beat) : Beat := { b with count := if b.loadDue then b.epochValue else b.count, loadDue := false }

/-- The epoch edge and the epoch beat are handled, as every core cycle does first. -/
def Beat.handled (b : Beat) : Beat := b.edgeDone.loaded

section
variable {s t : State}

theorem State.dial_of_pace (h : t.pace = s.pace) : t.dial = s.dial := by
  rw [State.dial, State.dial, pending_of_pace h, beat_of_pace h]

theorem State.modBeat_dial_map (s : State) {f g : Beat → Beat} (h : ∀ b, (f b).dial = g b.dial) : (s.modBeat f).dial = s.dial.map id g :=
  congrArg (Prod.mk s.pending) (h s.beat)

/-- An update of the beat that leaves the dial alone. -/
theorem State.modBeat_dial (s : State) {f : Beat → Beat} (h : ∀ b, (f b).dial = b.dial) : (s.modBeat f).dial = s.dial :=
  s.modBeat_dial_map (g := id) h

theorem State.beatEvent_dial (s : State) (n : Nat) : (s.beatEvent n).dial = s.dial := by
  rw [State.beatEvent, dial_of_pace (State.raise_pace ..)]
  exact s.modBeat_dial fun _ => rfl

end

section
variable (s : State)

theorem State.gateEffect_dial (env : GateEnv) : (gateEffect env s).dial = s.dial := by
  unfold gateEffect
  split
  · obtain ⟨hp, hb, _, _⟩ := s.openGate_opens env
    rw [State.dial, hp, hb]
    rfl
  · rfl

theorem State.beginCal_dial (j : CalJob) : (s.beginCal j).dial = s.dial := by
  unfold State.beginCal
  split
  · exact State.modBeat_dial _ fun _ => rfl
  · rfl

theorem State.calibrateStartEffect_dial : (calibrateStartEffect s).dial = s.dial := by
  unfold calibrateStartEffect
  split
  · split
    · exact s.beginCal_dial _
    · rfl
  · rfl

theorem State.gateRests_dial : s.gateRests.dial = s.dial := by
  rw [State.gateRests, dial_of_pace (packageSleepEntryEffect_pace _), State.calibrateStartEffect_dial]
  exact dial_of_pace (State.pace_foldl (fun t b => by simp) _ _)

/-- R75, R94, R153, R711: what waits for a gate takes effect at it. -/
theorem State.gateNow_dial : s.gateNow.dial = s.dial := by
  unfold State.gateNow
  extract_lets t
  split
  · exact s.gateEffect_dial {}
  · rw [State.gateRests_dial, dial_of_pace (spliceWindowOpenEffect_pace _), dial_of_pace (State.pace_foldl (fun u p => by simp) _ t)]
    exact s.gateEffect_dial {}

theorem State.calibrateDoneEffect_dial : (calibrateDoneEffect s).dial = s.dial := by
  unfold calibrateDoneEffect
  split
  · split
    · split
      · rfl
      · rw [dial_of_pace (State.bar2Flush_pace ..), dial_of_pace (State.finish_pace ..), dial_of_pace (State.modGlb_pace ..)]
        split
        · exact s.modBeat_dial fun _ => rfl
        · rfl
    · rfl
  · rfl

theorem State.restsEnd_dial : s.restsEnd.dial = s.dial := by
  rw [State.restsEnd, State.calibrateDoneEffect_dial]
  exact dial_of_pace (by simp)

/-- R58, R63. -/
theorem State.enterHoldover_dial : s.enterHoldover.dial = s.dial := by
  unfold State.enterHoldover
  split
  · rfl
  · rw [dial_of_pace (State.markHoldover_pace _)]
    exact s.modBeat_dial fun _ => rfl

/-- R60. -/
theorem State.loseBeat_dial : s.loseBeat.dial = s.dial := by
  unfold State.loseBeat
  split
  · rfl
  · rw [State.beatEvent_dial]
    exact s.modBeat_dial fun _ => rfl

/-- R61. -/
theorem State.relockDue_dial : s.relockDue.dial = s.dial := by
  unfold State.relockDue State.relockNow
  split
  · split
    · rfl
    · exact s.modBeat_dial fun _ => rfl
  · rfl

/-- R67, R68. -/
theorem State.epochEdgeNow_dial : s.epochEdgeNow.dial = s.dial.map id Beat.edgeDone := by
  cases hs : s.beat.edgeSeen with
  | false => simp [State.epochEdgeNow_of_unseen hs, State.dial, Beat.dial, Beat.edgeDone, hs]
  | true =>
    cases ha : s.beat.edgeArmed with
    | false => rw [State.epochEdgeNow_of_unarmed hs ha, dial_of_pace (State.raise_pace ..)]; rfl
    | true => rw [State.epochEdgeNow_of_armed hs ha]; rfl

/-- R67, R70. -/
theorem State.epochBeatNow_dial : s.epochBeatNow.dial = s.dial.map id Beat.loaded := by
  cases hs : s.beat.loadDue with
  | false => simp [State.epochBeatNow, State.dial, Beat.dial, Beat.loaded, hs]
  | true =>
    rw [State.epochBeatNow_of_due hs, State.markAll, dial_of_pace (State.pace_foldl (fun t p => t.mark_pace p 3) _ _),
      dial_of_pace (State.raise_pace ..)]
    simp [State.dial, Beat.dial, Beat.load, Beat.loaded, hs]

/-- What is due in a core cycle moves the dial no further than the epoch edge and the epoch beat do. -/
theorem State.dueEvents_dial : s.dueEvents.dial = s.dial.map id Beat.handled := by
  rw [State.dueEvents, dial_of_pace (State.filterChanges_pace _), State.relockDue_dial, State.loseBeat_dial, State.enterHoldover_dial,
    dial_of_pace (spliceWindowCloseEffect_pace _), State.gateNow_dial, State.restsEnd_dial, State.epochBeatNow_dial,
    State.epochEdgeNow_dial, Prod.map_map, Function.id_comp]
  rfl

theorem State.endCycle_dial : s.endCycle.dial = s.dial.map id Beat.handled := by
  rw [← State.dueEvents_dial]
  refine dial_of_pace ?_
  simp [State.endCycle]

end

/-! ### A core cycle, and the rest of a beat (R53, R57) -/

/-- One core cycle more of the beat. -/
def Beat.nextCc (b : Beat) : Beat := { b with cc := b.cc + 1 }

/-- The dial, the number of the cycle left out. -/
def Beat.rewound (b : Beat) : Beat := { b with cc := 0 }

/-- The dial at the end of a core cycle, whichever of the beat's it is. -/
def Beat.ended (b : Beat) : Beat := b.handled.rewound

section
variable (s : State)

theorem State.startCycle_dial : s.startCycle.dial = s.dial := dial_of_pace (State.startCycle_pace s)

variable {s}

/-- R53: before the first lock, and in a beat's last cycle, the device waits for the REF_BEAT edge. -/
theorem State.coreCycle_of_waits (h : s.beat.started = false ∨ s.m ≤ s.beat.cc + 1) : s.coreCycle = s := by
  rw [State.coreCycle, if_pos (by simpa using h)]

theorem State.coreCycle_dial (h : s.beat.started = true) (hm : s.beat.cc + 1 < s.m) :
    s.coreCycle.dial = s.dial.map id (Beat.nextCc ∘ Beat.handled) := by
  have hc : ¬ ((!s.beat.started || decide (s.m ≤ s.beat.cc + 1)) = true) := by simpa [h] using hm
  rw [State.coreCycle, if_neg hc, State.startCycle_dial, State.modBeat_dial_map _ (g := Beat.nextCc) fun _ => rfl,
    State.endCycle_dial, Prod.map_map, Function.id_comp]

variable (s)

theorem State.coreCycle_ended : s.coreCycle.dial.map id Beat.ended = s.dial.map id Beat.ended := by
  by_cases h : s.beat.started = false ∨ s.m ≤ s.beat.cc + 1
  · rw [State.coreCycle_of_waits h]
  · rw [not_or, Bool.not_eq_false, Nat.not_le] at h
    rw [State.coreCycle_dial h.1 h.2, Prod.map_map]
    rfl

theorem State.repeat_coreCycle_ended (n : Nat) : (Nat.repeat State.coreCycle n s).dial.map id Beat.ended = s.dial.map id Beat.ended := by
  induction n with
  | zero => rfl
  | succ n ih => exact (State.coreCycle_ended _).trans ih

/-- At the end of the beat no epoch edge and no epoch load waits. -/
theorem State.restOfBeat_dial (h : s.beat.started = true) : s.restOfBeat.dial.map id Beat.rewound = s.dial.map id Beat.ended := by
  rw [State.restOfBeat, if_pos h, State.endCycle_dial, Prod.map_map]
  exact s.repeat_coreCycle_ended _

end

theorem step_of_empty {s : State} (h : s.pending = []) : step s = .next (settle s s.coreCycle) := by
  unfold step
  rw [h]
  rfl

/-- Settles O2: a step on an empty queue is one core cycle, and of the dial a core cycle moves the cycle's number only. -/
theorem stepOnEmptyQueueIsOneCoreCycle : Obligations.StepOnEmptyQueueIsOneCoreCycle := by
  refine fun s hq => ⟨fun h => ?_, fun h hm => ⟨_, step_of_empty hq, ?_⟩⟩
  · rw [step_of_empty hq, State.coreCycle_of_waits h, settle_self]
  · obtain ⟨hp, hb⟩ := Prod.ext_iff.1 (State.coreCycle_dial h hm)
    rw [settle_beat, settle_pending]
    exact ⟨(congrArg Beat.cc hb :), (congrArg Beat.periods hb :), (congrArg Beat.mActive hb :), hp.trans hq⟩

/-! ### The edge that begins a beat (R64 to R66, R72) -/

/-- The beat counter of the beat that begins, at a seen edge or at one of the device's own. -/
def Beat.counted (seen : Bool) (b : Beat) : Beat :=
  let b := if seen then b.refSeen else b.refMissing
  { b with
    count := b.count + 1, periods := b.periods + 1, cc := 0, gateOpen := false, gateDone := false, epochBeat := false
    loadDue := b.loadDecided && seen, loadDecided := b.loadDecided && !seen
    relockBeats := if b.relocking then b.relockBeats + 1 else b.relockBeats }

theorem State.countBeat_beat (s : State) (seen : Bool) : (s.countBeat seen).beat = s.beat.counted seen :=
  beat_of_pace (State.markHoldover_pace _)

/-- A beat begins where the epoch edge of the last one is handled. -/
theorem State.beginBeat_beat {s : State} (h : s.beat.started = true) (he : s.beat.edgeSeen = false) (edge : Bool) :
    (s.beginBeat edge).beat =
      (if edge && s.beat.lines.seen then s.beat.sampled else s.beat).counted (edge && s.beat.lines.seen) := by
  unfold State.beginBeat
  extract_lets seen t
  have ht : t.beat = if seen then s.beat.sampled else s.beat := by
    rw [← State.epochEdgeNow_of_unseen he, ← State.sampleEdge_beat, ← apply_ite State.beat, State.epochEdgeNow_of_unseen he]
  have hst : t.beat.started = true := by rw [ht]; split <;> exact h
  have hp : ((t.countBeat seen).countStart.startCycle.bar2Flush (t.countBeat seen).countStart.startCycle.bar2Wait.length).pace =
      (t.countBeat seen).pace := by simp
  rw [hst, ← ht, ← State.countBeat_beat]
  exact beat_of_pace hp

theorem exec_gate (env : GateEnv) (s : State) : exec (.gate env) s = .next (settle s (gateEffect env s)) := rfl
theorem exec_refBeatEdge (edge : Bool) (e : RefEdge) (s : State) :
    exec (.refBeatEdge edge e) s = .next (settle s (refBeatEdgeEffect edge e s)) := rfl

/-- What the beat counter is when the REF_BEAT edge comes: no core cycle has counted the beat, or sampled, and the epoch's load is done. -/
theorem State.restOfBeat_beat {s : State} (hs : s.beat.started = true) :
    let b := s.restOfBeat.beat
    (b.edgeSeen = false ∧ b.started = true ∧ b.count = (if s.beat.loadDue then s.beat.epochValue else s.beat.count)) ∧
      b.periods = s.beat.periods ∧ b.synth = s.beat.synth ∧
      b.epochIn = s.beat.epochIn ∧ b.epochOut = s.beat.epochOut ∧ b.outEn = s.beat.outEn := by
  obtain ⟨_, hb⟩ := Prod.ext_iff.1 (s.restOfBeat_dial hs)
  exact ⟨⟨(congrArg Beat.edgeSeen hb :), (congrArg Beat.started hb :).trans hs, (congrArg Beat.count hb :)⟩, (congrArg Beat.periods hb :),
    (congrArg Beat.synth hb :), (congrArg Beat.epochIn hb :), (congrArg Beat.epochOut hb :), (congrArg Beat.outEn hb :)⟩

theorem refBeatEdgeEffect_beat {s : State} (hr : s.running = true) (hs : s.beat.started = true) (edge : Bool) (e : RefEdge) :
    (refBeatEdgeEffect edge e s).beat =
      (if edge && e.seen then { s.restOfBeat.beat with lines := e }.sampled else { s.restOfBeat.beat with lines := e }).counted
        (edge && e.seen) := by
  obtain ⟨⟨hedge, hstart, _⟩, _⟩ := State.restOfBeat_beat hs
  have h := State.beginBeat_beat (s := s.restOfBeat.modBeat fun b => { b with lines := e }) hstart hedge edge
  rw [refBeatEdgeEffect, hr]
  exact h

/-- Settles O7: what the edge does to the beat that the rest of the cycles left, and what an open gate admits. -/
theorem refBeatEdgesAndGates : Obligations.RefBeatEdgesAndGates := by
  refine ⟨fun s edge e hr hs => ⟨_, exec_refBeatEdge edge e s, ?_⟩, fun s env =>
    ⟨fun hs hg hc hd hl => ⟨_, exec_gate env s, ?_⟩, fun h => ?_⟩⟩
  · obtain ⟨⟨hedge, _, hcount⟩, hperiods, hsynth, hin, hout, hen⟩ := State.restOfBeat_beat hs
    rw [settle_beat, refBeatEdgeEffect_beat hr hs, ← hcount, ← hperiods, ← hsynth, ← hin, ← hout, ← hen]
    cases hseen : edge && e.seen with
    | true =>
      obtain ⟨rfl, he⟩ : edge = true ∧ e.seen = true := by simpa using hseen
      exact ⟨rfl, rfl, rfl, rfl, fun _ _ => ⟨rfl, rfl, rfl, rfl⟩, fun h => by simp [he] at h⟩
    | false =>
      exact ⟨rfl, rfl, rfl, rfl, fun h k => by simp [h, k] at hseen, fun _ => ⟨rfl, rfl, hedge, rfl, Bool.and_false _⟩⟩
  · have : gateEffect env s = s.openGate env := by simp [gateEffect, State.gateBeat, hs, hg, hc, hd, hl]
    obtain ⟨_, hb, he, hd⟩ := s.openGate_opens env
    rw [settle_beat, settle_doorbells, this]
    exact ⟨hb, fun f => by rw [State.fn, settle_fns]; exact he f, hd⟩
  · have : gateEffect env s = s := by simp [gateEffect, State.gateBeat, h]
    rw [exec_gate, this]

end Sys2Proof.Machine
end

section
/-! SUPPORT. What operations on the benches leave of them, and what admitted packets leave of the state (O8, O10, O11, O38). -/

namespace Sys2Proof.Machine

/-! ### Projections that every step of a fold keeps -/

section
variable {σ α β : Type}

theorem foldl_keeps {f : σ → α → σ} {view : σ → β} (h : ∀ s a, view (f s a) = view s) (xs : List α) (s : σ) :
    view (xs.foldl f s) = view s :=
  (List.foldl_hom view (g₂ := fun b _ => b) fun s a => (h s a).symm).symm.trans (List.foldl_fixed xs)

/-- A view of a state of which every option is kept. -/
theorem view_ite {view : σ → β} (c : Prop) [Decidable c] {s t : σ} {v : β} (hs : view s = v) (ht : view t = v) :
    view (if c then s else t) = v := by
  split
  · exact hs
  · exact ht

/-- Elements that a fold appends one by one, seen through a key. -/
theorem map_foldl_append {γ : Type} {f : List σ × γ → α → List σ × γ} {key : σ → β} {key' : α → β}
    (h : ∀ acc x, (f acc x).1.map key = acc.1.map key ++ [key' x]) (xs : List α) (acc : List σ × γ) :
    (xs.foldl f acc).1.map key = acc.1.map key ++ xs.map key' := by
  induction xs generalizing acc with
  | nil => simp
  | cons x xs ih => rw [List.foldl_cons, ih, h, List.append_assoc]; rfl

end

/-! ### What a function of a bench shows of every bench -/

section
variable {α β : Type} {f : Bench → α}

/-- What f shows of every bench. -/
def State.shows (f : Bench → α) (s : State) : List α := s.benches.map f

theorem State.shown_of_shows {s t : State} (h : t.shows f = s.shows f) (b : Nat) : f (t.bench b) = f (s.bench b) :=
  calc f (t.bench b) = (t.shows f).getD b (f {}) := (List.getD_map ..).symm
    _ = (s.shows f).getD b (f {}) := by rw [h]
    _ = f (s.bench b) := List.getD_map ..

theorem State.length_of_shows {s t : State} (h : t.shows f = s.shows f) : t.benches.length = s.benches.length := by
  simpa [State.shows] using congrArg List.length h

/-- An update that f does not see. -/
theorem State.modBench_shows (s : State) (b : Nat) {g : Bench → Bench} (h : ∀ x, f (g x) = f x) : (s.modBench b g).shows f = s.shows f := by
  refine List.ext_getElem (by simp [State.shows]) fun i _ _ => ?_
  simp only [State.shows, List.getElem_map, State.modBench_benches, List.getElem_modify]
  split
  · exact h _
  · rfl

/-- What f shows does not depend on the cores. -/
def Bench.Coreless (f : Bench → α) : Prop := ∀ x c k, f (x.modCore c k) = f x

theorem State.modCore_shows (hf : Bench.Coreless f) (s : State) (b c : Nat) (k : Core → Core) : (s.modCore b c k).shows f = s.shows f :=
  s.modBench_shows b fun x => hf x c k

/-- The two stores of a bench. -/
def Bench.stores (x : Bench) : Mem × Mem := (x.rack, x.act)

theorem sameBytes.of_stores {s t : State} (hm : t.hbm = s.hbm) (hb : t.shows Bench.stores = s.shows Bench.stores) : sameBytes s t := by
  refine ⟨fun a => by rw [hm], fun b a => ?_⟩
  obtain ⟨hr, ha⟩ := Prod.mk.inj (State.shown_of_shows hb b)
  rw [hr, ha]
  exact ⟨rfl, rfl⟩

end

/-! ### One update of the benches of a list -/

section
variable {α : Type} {f : Bench → α} {g : Bench → Bench} {h : α → α} {b : Nat}

theorem State.bench_foldl_modBench_of_not_mem {bs : List Nat} (hb : b ∉ bs) (s : State) :
    (bs.foldl (fun s b => s.modBench b g) s).bench b = s.bench b := by
  induction bs generalizing s with
  | nil => rfl
  | cons c bs ih =>
    obtain ⟨hc, hb⟩ := not_or.1 (mt List.mem_cons.2 hb)
    rw [List.foldl_cons, ih hb, State.bench_modBench_ne _ _ _ _ (Ne.symm hc)]

/-- A bench of the list, which may stand there more than once: f sees the update h, which done twice is done once. -/
theorem State.shown_foldl_modBench_of_mem (hf : ∀ x, f (g x) = h (f x)) (hh : ∀ a, h (h a) = h a) {bs : List Nat} (hb : b ∈ bs)
    (s : State) (hl : b < s.benches.length) : f ((bs.foldl (fun s b => s.modBench b g) s).bench b) = h (f (s.bench b)) := by
  induction bs generalizing s with
  | nil => cases hb
  | cons c bs ih =>
    rw [List.foldl_cons]
    by_cases hm : b ∈ bs
    · rw [ih hm _ (by simpa using hl)]
      by_cases hc : c = b
      · subst hc
        rw [State.bench_modBench _ _ _ hl, hf, hh]
      · rw [State.bench_modBench_ne _ _ _ _ hc]
    · obtain rfl := (List.mem_cons.1 hb).resolve_right hm
      rw [State.bench_foldl_modBench_of_not_mem hm, State.bench_modBench _ _ _ hl, hf]

end

/-! ### Partitions and benches that the device has -/

section
variable {s : State} {b p : Nat}

theorem State.part_eq_of_parts {t : State} (h : t.parts = s.parts) (p : Nat) : t.part p = s.part p := by rw [State.part, h]

theorem State.bench_eq_of_benches {t : State} (h : t.benches = s.benches) (b : Nat) : t.bench b = s.bench b := by rw [State.bench, h]

/-- What only a partition that the device has can hold. -/
theorem State.part_lt_of {α : Type} {f : Part → α} (h : f (s.part p) ≠ f {}) : p < s.parts.length := by
  by_contra hp
  exact h (congrArg f (List.getD_eq_default _ _ (Nat.not_lt.1 hp)))

theorem State.bench_lt_of {α : Type} {f : Bench → α} (h : f (s.bench b) ≠ f {}) : b < s.benches.length := by
  by_contra hb
  exact h (congrArg f (List.getD_eq_default _ _ (Nat.not_lt.1 hb)))

theorem State.valid_of_benchPart (h : s.benchPart b = some p) : (s.part p).valid = true := by
  have hp := List.find?_some h
  rw [Bool.and_eq_true] at hp
  exact hp.1

theorem State.part_lt_of_benchPart (h : s.benchPart b = some p) : p < s.parts.length :=
  State.part_lt_of (f := Part.valid) (by rw [State.valid_of_benchPart h]; decide)

theorem State.bench_lt_of_computes (h : (s.bench b).computes = true) : b < s.benches.length :=
  State.bench_lt_of (f := Bench.computes) (by rw [h]; decide)

end

/-! ### Completions -/

section
variable {s t : State} {id : PktId}

theorem State.answered.of_fns {part status detail r0 r1 r2 : Nat} (h : s.answered id part status detail r0 r1 r2) (hf : t.fns = s.fns) :
    t.answered id part status detail r0 r1 r2 := by
  rwa [State.answered, State.fn, hf]

theorem State.hears.of_fns (h : s.hears id) (hf : t.fns = s.fns) : t.hears id := by
  rwa [State.hears, State.fn, hf]

/-- The completion of a packet whose function has not been reset, with its results (R661). -/
theorem State.hears.answered_finish (h : s.hears id) (part status detail r0 r1 r2 : Nat) :
    (s.finish id part status detail r0 r1 r2).answered id part status detail r0 r1 r2 := by
  obtain ⟨hf, he⟩ := h
  rw [State.answered, State.finish, State.post, State.fn_modFn _ _ _ hf, if_pos he]
  exact List.mem_append_right _ (List.mem_singleton.2 rfl)

/-- A completion that later effects on other fields, completions and messages leave in its window. -/
theorem State.hears.answered_of {u v : State} (h : s.hears id) (part status detail r0 r1 r2 : Nat) (k : u.AnswersMore v)
    (hu : u.fns = (s.finish id part status detail r0 r1 r2).fns) : v.answered id part status detail r0 r1 r2 :=
  ((h.answered_finish ..).of_fns hu).of_answersMore k

end

section
variable {s t : State} (h : s.AnswersMore t)
include h

theorem State.AnswersMore.benches : t.benches = s.benches := by obtain ⟨⟨_, _, _, rfl⟩, -⟩ := h; rfl
theorem State.AnswersMore.parts : t.parts = s.parts := by obtain ⟨⟨_, _, _, rfl⟩, -⟩ := h; rfl
theorem State.AnswersMore.ring : t.ring = s.ring := by obtain ⟨⟨_, _, _, rfl⟩, -⟩ := h; rfl
theorem State.AnswersMore.glue : t.glue = s.glue := by obtain ⟨⟨_, _, _, rfl⟩, -⟩ := h; rfl
theorem State.AnswersMore.ldg : t.ldg = s.ldg := by obtain ⟨⟨_, _, _, rfl⟩, -⟩ := h; rfl
theorem State.AnswersMore.hbm : t.hbm = s.hbm := by obtain ⟨⟨_, _, _, rfl⟩, -⟩ := h; rfl

end

/-! ### Unloading a program (R145, R602) -/

section
variable {β : Type} {view : State → β} (hp : ∀ s p f, view (State.modPart s p f) = view s) (hf : ∀ s i f, view (State.modFn s i f) = view s)
include hp hf

theorem State.dropLoad_view (s : State) (p : Nat) : view (s.dropLoad p) = view s := by
  unfold State.dropLoad
  split
  · exact (hp ..).trans (hf ..)
  · rfl

theorem State.unload_view (s : State) (p : Nat) : view (s.unload p) = view s := (hp ..).trans (State.dropLoad_view hp hf s p)

end

section
variable (s : State) (p : Nat)

@[simp] theorem State.unload_ring : (s.unload p).ring = s.ring := State.unload_view (view := State.ring) (fun _ _ _ => rfl) (fun _ _ _ => rfl) s p
@[simp] theorem State.unload_benches : (s.unload p).benches = s.benches :=
  State.unload_view (view := State.benches) (fun _ _ _ => rfl) (fun _ _ _ => rfl) s p
@[simp] theorem State.unload_hbm : (s.unload p).hbm = s.hbm := State.unload_view (view := State.hbm) (fun _ _ _ => rfl) (fun _ _ _ => rfl) s p
@[simp] theorem State.unload_beat : (s.unload p).beat = s.beat := State.unload_view (view := State.beat) (fun _ _ _ => rfl) (fun _ _ _ => rfl) s p

theorem State.unload_parts_length : (s.unload p).parts.length = s.parts.length :=
  State.unload_view (view := fun s => s.parts.length) (fun _ _ _ => List.length_modify ..) (fun _ _ _ => rfl) s p

theorem State.unload_prog {s : State} {p : Nat} (h : p < s.parts.length) : ((s.unload p).part p).prog = none := by
  have hl : (s.dropLoad p).parts.length = s.parts.length :=
    State.dropLoad_view (view := fun s => s.parts.length) (fun _ _ _ => List.length_modify ..) (fun _ _ _ => rfl) s p
  rw [State.unload, State.part_modPart _ _ _ (hl ▸ h)]

end

/-! ### Admitted packets -/

section
variable {s : State} {f op i : Nat} {x : Pkt}

/-- The function of an admitted packet has not been reset since. -/
theorem State.hears_takePkt (h : s.admits f op i x) : (s.takePkt f i).hears (s.pktId f x) := by
  have hf : f < s.fns.length := State.lt_length_of_nextPkt h.1
  refine ⟨?_, (congrArg Aivia.epoch (State.fn_modFn s f _ hf) :)⟩
  simpa [State.takePkt, State.pktId, Pkt.id] using hf

/-- After the opcode's own effect u only completions of reserved opcodes and messages follow. -/
theorem State.admitPkt_answersMore {run : PktId → Nat → Pkt → State → State} {u : State} (h : s.admits f op i x)
    (hr : run (s.pktId f x) (x.part f) x (s.takePkt f i) = u) : u.AnswersMore (settle s (s.admitPkt f op run)) := by
  rw [State.admitPkt_of_admits h, hr]
  exact (State.AnswersMore.flushReserved f 64 _).trans (.settle _ _)

end

end Sys2Proof.Machine
end

section
/-! R110 to R113, R123 to R126: the lap that a BLAP gives to the ring port, and the start of a lap (O8). -/

namespace Sys2Proof.Machine

theorem exec_blap (b c q : Nat) (s : State) : exec (.blap b c q []) s = .next (settle s (blapEffect b c q [] s)) := rfl
theorem exec_lapStart (b : Nat) (s : State) : exec (.lapStart b) s = .next (settle s (lapStartEffect b s)) := rfl

/-! ### What an issue leaves: it touches the run's partition and the queue's core only -/

section
variable {β : Type} {view : State → β} (hp : ∀ s p f, view (State.modPart s p f) = view s)
  (hc : ∀ s b c f, view (State.modCore s b c f) = view s)
include hp hc
theorem State.acknowledge_view (s : State) (p b c q h : Nat) : view (s.acknowledge p b c q h) = view s := by
  unfold State.acknowledge
  extract_lets a step t
  have ht : view t = view s := (hp ..).trans (hc ..)
  exact view_ite _ ((hp ..).trans ht) ht

theorem State.issue_view (s : State) (p : Nat) (t : Task) (b c q : Nat) (cmd : Cmd) (doneAt : Nat) (on : Until) :
    view (s.issue p t b c q cmd doneAt on) = view s := by
  unfold State.issue
  extract_lets late noted marked i charged freed
  have h1 : view noted = view s := hp ..
  have h2 : view marked = view s := view_ite _ ((hp ..).trans h1) h1
  have h3 : view charged = view s := (hc ..).trans h2
  have h4 : view freed = view s := view_ite _ ((State.acknowledge_view hp hc ..).trans h3) h3
  exact (hc ..).trans h4
end

section
variable (s : State) (p : Nat) (t : Task) (b c q : Nat) (cmd : Cmd) (doneAt : Nat) (on : Until)

theorem State.issue_hbm : (s.issue p t b c q cmd doneAt on).hbm = s.hbm :=
  State.issue_view (view := State.hbm) (fun _ _ _ => rfl) (fun _ _ _ _ => rfl) ..

theorem State.issue_shows {α : Type} {f : Bench → α} (hf : Bench.Coreless f) : (s.issue p t b c q cmd doneAt on).shows f = s.shows f :=
  State.issue_view (view := State.shows f) (fun _ _ _ => rfl) (State.modCore_shows hf) ..

end

/-! ### BLAP (R123 to R126) -/

/-- The ring-in buffers of the run, with those that a BLAP names where its slot's are not known yet (R126). -/
def RingPort.buffersWith (x : RingPort) (y : Bool × Nat × Nat × Nat) : List (Bool × Nat × Nat × Nat) :=
  if x.buffers.any (fun z => z.1 = y.1) then x.buffers else x.buffers ++ [y]

theorem RingPort.mem_buffersWith_of_mem {x : RingPort} {y z : Bool × Nat × Nat × Nat} (h : z ∈ x.buffers) : z ∈ x.buffersWith y := by
  unfold RingPort.buffersWith
  split
  · exact h
  · exact List.mem_append_left _ h

/-- No other buffers of the slot are known. -/
theorem RingPort.mem_buffersWith {x : RingPort} {y : Bool × Nat × Nat × Nat}
    (h : x.buffers.any (fun z => z.1 = y.1 && z.2 != y.2) = false) : y ∈ x.buffersWith y := by
  unfold RingPort.buffersWith
  split
  next ha =>
    obtain ⟨z, hz, h1⟩ := List.any_eq_true.1 ha
    have h2 := List.any_eq_false.1 h z hz
    obtain rfl : z = y := Prod.ext (by simpa using h1) (by simpa [of_decide_eq_true h1] using h2)
    exact hz
  · exact List.mem_append_right _ List.mem_cons_self

section
variable (x : RingPort) (mode : Nat) (part : LapPart)

theorem RingPort.accept_laps : (x.accept mode part).laps = x.laps := by
  unfold RingPort.accept
  extract_lets
  (repeat' split) <;> rfl

theorem RingPort.accept_buffers : (x.accept mode part).buffers = x.buffers := by
  unfold RingPort.accept
  extract_lets
  (repeat' split) <;> rfl

end

/-- What a BLAP gives to a lap of port x: the next of its slot, with the batons of its list in the slot's half of the rack (R124, R599). -/
def State.blapPart (s : State) (p b q : Nat) (cmd : Cmd) (x : RingPort) : LapPart :=
  let adopted := s.adoptedCtx p b (ctxOf q)
  { no := (if adopted then x.accepted.2 else x.accepted.1) + 1, adopted := adopted, releaseTally := cmd.releaseTally
    releaseEn := cmd.releaseEn, ctx := ctxOf q
    batons := (s.batons b (s.actOff p b (ctxOf q) cmd.batonList) cmd.batonCount).map fun x => (x.1 + if adopted then 512 else 0, x.2) }

/-- Port x after an accepted BLAP (R123, R126). -/
def State.blapPort (s : State) (p b q : Nat) (cmd : Cmd) (x : RingPort) : RingPort :=
  let adopted := s.adoptedCtx p b (ctxOf q)
  { x.accept cmd.lapMode (s.blapPart p b q cmd x) with
    accepted := if adopted then (x.accepted.1, x.accepted.2 + 1) else (x.accepted.1 + 1, x.accepted.2)
    buffers := x.buffersWith (adopted, cmd.ringInCw, cmd.ringInCcw, cmd.slotUnits) }

section
variable {s : State} {b c q p : Nat} {t : Task} {cmd : Cmd}

theorem State.blapCause_buffers (h : s.blapCause p b c q cmd = none) :
    (s.bench b).port.buffers.any (fun z => z.1 = s.adoptedCtx p b (ctxOf q) && z.2 != (cmd.ringInCw, cmd.ringInCcw, cmd.slotUnits)) =
      false := by
  unfold State.blapCause at h
  extract_lets ctx adopted a half fitsList xs fits at h
  split at h
  · cases h
  · split at h
    · cases h
    next h2 => exact (Bool.or_eq_false_iff.1 (Bool.eq_false_iff.2 h2)).2

/-- A head command that meets its conditions has its bench computing. -/
theorem State.computes_of_preReady (h : s.preReady b c q = some (p, t, cmd)) : (s.bench b).computes = true := by
  unfold State.preReady at h
  split at h
  · cases h
  · split at h
    · cases h
    · extract_lets k e hurdle mode at h
      split at h
      next hc =>
        simp only [Bool.and_eq_true] at hc
        tauto
      · cases h

theorem State.preReady_of_ready (h : s.ready b c q = some (p, t, cmd)) : s.preReady b c q = some (p, t, cmd) := by
  unfold State.ready at h
  split at h
  next hr =>
    split at h
    · rw [hr, h]
    · cases h
  · cases h

theorem State.ready_of_mayIssue {op : Nat} (h : s.mayIssue b c q op = some (p, t, cmd)) : s.ready b c q = some (p, t, cmd) := by
  unfold State.mayIssue at h
  split at h
  next hr =>
    split at h
    · rw [hr, h]
    · cases h
  · cases h

/-- A command that may issue has its bench computing. -/
theorem State.computes_of_mayIssue {op : Nat} (h : s.mayIssue b c q op = some (p, t, cmd)) : (s.bench b).computes = true :=
  State.computes_of_preReady (State.preReady_of_ready (State.ready_of_mayIssue h))


/-- The run issues the command, its list is read, and the bench's port accepts the lap. -/
theorem blapEffect_of_accepted (h : s.mayIssue b c q 0xA4 = some (p, t, cmd)) (hc : s.blapCause p b c q cmd = none) :
    ∃ rs, blapEffect b c q [] s = ((s.issue p t b c q cmd s.now .time).ask b rs).modBench b
      fun x => { x with port := s.blapPort p b q cmd x.port } := by
  refine ⟨MemReq.reads { due := s.now, port := c } (s.actOff p b (ctxOf q) cmd.batonList) (8 * cmd.batonCount), ?_⟩
  simp only [blapEffect, State.strike, List.foldl_nil, h, hc]
  refine congrArg (State.modBench _ b) (funext fun x => ?_)
  simp only [State.blapPort, State.blapPart, RingPort.buffersWith, RingPort.accept_buffers]
  by_cases ha : s.adoptedCtx p b (ctxOf q) = true <;> simp [ha] <;> rfl

/-- Of what neither the cores nor the requests show, an accepted BLAP leaves all. -/
theorem State.asked_shows {α : Type} {f : Bench → α} (hf : Bench.Coreless f) (hr : ∀ x rs, f { x with reqs := rs } = f x)
    (rs : List MemReq) : ((s.issue p t b c q cmd s.now .time).ask b rs).shows f = s.shows f :=
  (State.modBench_shows _ b fun x => hr x _).trans (s.issue_shows p t b c q cmd _ _ hf)

theorem blapEffect_port (h : s.mayIssue b c q 0xA4 = some (p, t, cmd)) (hc : s.blapCause p b c q cmd = none) :
    ((blapEffect b c q [] s).bench b).port = s.blapPort p b q cmd (s.bench b).port := by
  obtain ⟨rs, hu⟩ := blapEffect_of_accepted h hc
  have hk := s.asked_shows (p := p) (t := t) (b := b) (c := c) (q := q) (cmd := cmd) (f := Bench.port) (fun _ _ _ => rfl)
    (fun _ _ => rfl) rs
  have hb := State.bench_lt_of_computes (State.computes_of_mayIssue h)
  rw [hu, State.bench_modBench _ _ _ (State.length_of_shows hk ▸ hb), ← State.shown_of_shows hk b]

theorem blapEffect_bytes (h : s.mayIssue b c q 0xA4 = some (p, t, cmd)) (hc : s.blapCause p b c q cmd = none) :
    sameBytes s (blapEffect b c q [] s) := by
  obtain ⟨rs, hu⟩ := blapEffect_of_accepted h hc
  rw [hu]
  refine .of_stores (s.issue_hbm p t b c q cmd s.now .time) ((State.modBench_shows _ b ?_).trans ?_)
  · exact fun _ => rfl
  · exact State.asked_shows (fun _ _ _ => rfl) (fun _ _ => rfl) rs

end

/-! ### The legs of a lap (R110 to R113) -/

/-- Where a leg begins and what it carries: the fields that O8 names, then the place, the flits sent and the leg before. -/
def Leg.heading (g : Leg) : (Nat × Bool × Nat × Nat × Nat × Nat × Nat × Nat) × Nat × Nat × Option Nat :=
  ((g.home, g.ccw, g.dest, g.leg, g.legs, g.lap, g.src, g.bytes), g.place, g.sent, g.parent)

/-- The heading of the first leg of baton y on a circle of n places. -/
def firstHeading (place n lapNo mode : Nat) (ccw : Bool) (y : Nat × Nat) :
    (Nat × Bool × Nat × Nat × Nat × Nat × Nat × Nat) × Nat × Nat × Option Nat :=
  ((place, ccw, nextPlace ccw n place, 1, lapLegs mode n, lapNo, 65536 * y.1, 65536 * y.2), place, 0, none)

theorem State.homeLegs_heading (s : State) (p place lapNo mode step : Nat) (ccw : Bool) (xs : List (Nat × Nat)) :
    (s.homeLegs p place lapNo mode step ccw xs).map Leg.heading =
      xs.map (firstHeading place (s.part p).circle.length lapNo mode ccw) :=
  map_foldl_append (fun _ _ => List.map_append) xs ([], s.now)

/-- The headings of a lap's first legs in one direction: none where its mode leaves the direction out (R111). -/
def Lap.headings (l : Lap) (place n lapNo : Nat) (ccw : Bool) :
    List ((Nat × Bool × Nat × Nat × Nat × Nat × Nat × Nat) × Nat × Nat × Option Nat) :=
  if l.mode = (if ccw then 0 else 1) then [] else (l.parts.flatMap (·.batons)).map (firstHeading place n lapNo l.mode ccw)

section
variable {s : State} {p b : Nat}

theorem State.addLegs_nil : s.addLegs p [] = s := by
  have h : (fun x : Part => { x with legs := x.legs ++ [], nextLeg := x.nextLeg + ([] : List Leg).length }) = id :=
    funext fun x => by simp
  rw [State.addLegs, State.modPart, h, List.modify_id]

theorem State.part_addLegs (hp : p < s.parts.length) (ls : List Leg) :
    (s.addLegs p ls).part p = { s.part p with legs := (s.part p).legs ++ ls, nextLeg := (s.part p).nextLeg + ls.length } :=
  State.part_modPart _ _ _ hp

/-- The legs of one direction, where the mode leaves it out or not. -/
theorem State.addLegs_of_mode (s : State) (p : Nat) {l : Lap} {place lapNo step : Nat} (ccw : Bool) :
    ∃ ls, (if l.mode = (if ccw then 0 else 1) then s
        else s.addLegs p (s.homeLegs p place lapNo l.mode step ccw (l.parts.flatMap (·.batons)))) = s.addLegs p ls ∧
      ls.map Leg.heading = l.headings place (s.part p).circle.length lapNo ccw := by
  by_cases hm : l.mode = (if ccw then 0 else 1)
  · simp only [Lap.headings, if_pos hm]
    exact ⟨[], State.addLegs_nil.symm, rfl⟩
  · simp only [Lap.headings, if_neg hm]
    exact ⟨_, rfl, State.homeLegs_heading ..⟩

/-- The first legs of the lap join those of the partition, and the port has the lap in work. -/
theorem State.startLap_cases (hp : p < s.parts.length) (l : Lap) :
    let place := (s.part p).placeOf b
    let n := (s.part p).circle.length
    let no := (s.bench b).port.laps + 1
    ∃ cw ccw, s.startLap p b l = ((s.addLegs p cw).addLegs p ccw).modBench b
        (fun x => { x with port := { x.port with lap := some { l with started := true }, laps := no } }) ∧
      cw.map Leg.heading = l.headings place n no false ∧ ccw.map Leg.heading = l.headings place n no true := by
  intro place n no
  obtain ⟨cw, hcw, kcw⟩ := s.addLegs_of_mode p (l := l) (place := place) (lapNo := no)
    (step := ((l.parts.flatMap (·.batons)).map (·.2)).sum * 32) false
  obtain ⟨ccw, hccw, kccw⟩ := (s.addLegs p cw).addLegs_of_mode p (l := l) (place := place) (lapNo := no)
    (step := ((l.parts.flatMap (·.batons)).map (·.2)).sum * 32) true
  refine ⟨cw, ccw, ?_, kcw, ?_⟩
  · rw [← hccw, ← hcw]
    rfl
  · rw [kccw, State.part_addLegs hp]

/-- What the start of lap l leaves, where x is the port that it finds and k the laps that it has started (R110 to R113, R125). -/
structure State.LapStarted (s : State) (p b : Nat) (l : Lap) (x : RingPort) (k : Nat) (u : State) : Prop where
  port : (u.bench b).port = { x with lap := some { l with started := true }, laps := k + 1 }
  legs : ∃ legs, (u.part p).legs = (s.part p).legs ++ legs ∧
    legs.map Leg.heading = l.headings ((s.part p).placeOf b) (s.part p).circle.length (k + 1) false ++
      l.headings ((s.part p).placeOf b) (s.part p).circle.length (k + 1) true
  bytes : sameBytes s u

theorem State.startLap_started (hp : p < s.parts.length) (hb : b < s.benches.length) (l : Lap) :
    s.LapStarted p b l (s.bench b).port (s.bench b).port.laps (s.startLap p b l) := by
  obtain ⟨cw, ccw, hu, hcw, hccw⟩ := State.startLap_cases (b := b) hp l
  rw [hu]
  refine ⟨?_, ⟨cw ++ ccw, ?_, by rw [List.map_append, hcw, hccw]⟩, ?_⟩
  · rw [State.bench_modBench ((s.addLegs p cw).addLegs p ccw) b _ hb]
    rfl
  · calc ((s.addLegs p cw).addLegs p ccw |>.part p).legs
        = ((s.addLegs p cw).part p).legs ++ ccw := by rw [State.part_addLegs (by simpa [State.addLegs] using hp)]
      _ = (s.part p).legs ++ (cw ++ ccw) := by rw [State.part_addLegs hp, List.append_assoc]
  · exact .of_stores rfl (State.modBench_shows _ b fun _ => rfl)

/-- The lap that waited takes the place of the one that was sent. -/
def State.takeNext (s : State) (b : Nat) (m : Lap) : State :=
  s.modBench b fun y => { y with port := { y.port with lap := some m, next := none } }

theorem State.startNext_started (hp : p < s.parts.length) (hb : b < s.benches.length) (m : Lap) :
    s.LapStarted p b m { (s.bench b).port with next := none } (s.bench b).port.laps
      ((s.takeNext b m).startLap p b m) := by
  obtain ⟨hport, hlegs, hbytes⟩ := State.startLap_started (s := s.takeNext b m) (p := p) hp (by simpa [State.takeNext] using hb) m
  rw [State.takeNext, State.bench_modBench _ _ _ hb] at hport hlegs
  have hk : sameBytes s (s.takeNext b m) := .of_stores rfl (s.modBench_shows b fun _ => rfl)
  exact ⟨hport, hlegs, hk.trans hbytes⟩

theorem State.LapStarted.settle {l : Lap} {x : RingPort} {k : Nat} {u : State} (h : s.LapStarted p b l x k u) (a : State) :
    s.LapStarted p b l x k (settle a u) := by
  obtain ⟨⟨_, _, _, hu⟩, -⟩ := State.AnswersMore.settle a u
  rw [hu]
  exact ⟨h.port, h.legs, h.bytes⟩

end

section
variable {l : Lap} {place n no : Nat}

theorem Lap.snd_of_mem_headings {ccw : Bool} {y : (Nat × Bool × Nat × Nat × Nat × Nat × Nat × Nat) × Nat × Nat × Option Nat}
    (h : y ∈ l.headings place n no ccw) : y.2 = (place, 0, none) := by
  by_cases hm : l.mode = (if ccw then 0 else 1)
  · simp only [Lap.headings, if_pos hm] at h
    cases h
  · simp only [Lap.headings, if_neg hm] at h
    obtain ⟨z, -, rfl⟩ := List.mem_map.1 h
    rfl

/-- Legs of these headings leave the place, have sent nothing and follow no other leg. -/
theorem Lap.begins_of_headings {legs : List Leg}
    (h : legs.map Leg.heading = l.headings place n no false ++ l.headings place n no true) :
    ∀ g ∈ legs, g.place = place ∧ g.sent = 0 ∧ g.parent = none := by
  intro g hg
  have hm : g.heading ∈ l.headings place n no false ++ l.headings place n no true := h ▸ List.mem_map_of_mem hg
  have h2 : g.heading.2 = (place, 0, none) := (List.mem_append.1 hm).elim Lap.snd_of_mem_headings Lap.snd_of_mem_headings
  obtain ⟨hplace, h2⟩ := Prod.mk.inj h2
  exact ⟨hplace, Prod.mk.inj h2⟩

/-- Legs of these headings are those of one direction by the lap's mode, or of both (R111). -/
theorem Lap.sent_of_headings {legs : List Leg}
    (h : legs.map Leg.heading = l.headings place n no false ++ l.headings place n no true) :
    let first (ccw : Bool) := (l.parts.flatMap (·.batons)).map fun y => (firstHeading place n no l.mode ccw y).1
    legs.map (fun g => g.heading.1) =
      if l.mode = 0 then first false else if l.mode = 1 then first true else first false ++ first true := by
  have h1 := congrArg (List.map Prod.fst) h
  rw [List.map_map, List.map_append] at h1
  refine h1.trans ?_
  by_cases h0 : l.mode = 0
  · simp [Lap.headings, h0, Function.comp_def]
  · by_cases h1 : l.mode = 1 <;> simp [Lap.headings, h0, h1, Function.comp_def]

end

/-! ### LAP_START (R125) -/

section
variable {s : State} {b p : Nat} {l m : Lap}

/-- The port may start a lap: legs of its partition may begin, and its bench computes on the circle. -/
def State.MayStart (s : State) (b p : Nat) : Prop :=
  s.benchPart b = some p ∧ (!s.ringBegins p || !(s.bench b).computes || (s.part p).clamping || !(s.part p).circle.contains b) = false

theorem lapStartEffect_of_first (h : s.MayStart b p) (hl : (s.bench b).port.lap = some l) (hn : l.started = false)
    (hw : s.lapWhole p b l = true) : lapStartEffect b s = s.startLap p b l := by
  obtain ⟨hb, hc⟩ := h
  simp only [lapStartEffect, hb, hc, hl, hn, hw, Bool.not_false, Bool.false_eq_true, if_true, if_false]

theorem lapStartEffect_of_next (h : s.MayStart b p) (hl : (s.bench b).port.lap = some l) (hn : l.started = true)
    (hm : (s.bench b).port.next = some m) (hs : s.lapSent p ((s.part p).placeOf b) (s.bench b).port.laps = true)
    (hw : s.lapWhole p b m = true) : lapStartEffect b s = (s.takeNext b m).startLap p b m := by
  obtain ⟨hb, hc⟩ := h
  simp only [lapStartEffect, hb, hc, hl, hn, hm, hs, hw, Bool.not_true, Bool.and_self, Bool.false_eq_true, if_true, if_false, State.takeNext]

end

/-- Settles O8: an accepted BLAP is the port's `accept`, and a lap that starts is `startLap` on the port it finds. -/
theorem lapsReachTheRing : Obligations.LapsReachTheRing := by
  refine ⟨fun s b c q p t cmd h hc => ⟨_, exec_blap b c q s, ?_, ?_⟩, fun s b p hb hr hcomp hcl hcirc => ?_⟩
  · have hport : ((settle s (blapEffect b c q [] s)).bench b).port = s.blapPort p b q cmd (s.bench b).port := by
      rw [State.bench_eq_of_benches (settle_benches ..), blapEffect_port h hc]
    rw [hport]
    exact ⟨rfl, rfl, RingPort.accept_laps .., fun y hy => RingPort.mem_buffersWith_of_mem hy,
      RingPort.mem_buffersWith (State.blapCause_buffers hc)⟩
  · exact (blapEffect_bytes h hc).of_answersMore (.settle ..)
  · have hmay : s.MayStart b p := ⟨hb, by rw [hr, hcomp, hcl, hcirc]; rfl⟩
    have hp := State.part_lt_of_benchPart hb
    have hl := State.bench_lt_of_computes hcomp
    refine ⟨fun l hlap hn hw => ⟨_, exec_lapStart b s, ?_⟩, fun l m hlap hn hnext hs hw => ⟨_, exec_lapStart b s, ?_⟩⟩
    · rw [lapStartEffect_of_first hmay hlap hn hw]
      obtain ⟨hport, ⟨legs, hlegs, hh⟩, hbytes⟩ := (State.startLap_started hp hl l).settle s
      exact ⟨hport, ⟨legs, hlegs, Lap.sent_of_headings hh, Lap.begins_of_headings hh⟩, hbytes⟩
    · rw [lapStartEffect_of_next hmay hlap hn hnext hs hw]
      obtain ⟨hport, ⟨legs, hlegs, hh⟩, hbytes⟩ := (State.startNext_started hp hl m).settle s
      exact ⟨hport, ⟨legs, hlegs, Lap.sent_of_headings hh, Lap.begins_of_headings hh⟩, hbytes⟩

end Sys2Proof.Machine
end

section
/-! R115, R412, R415: the arrival of a baton is signalled with the context of the BLAP whose lap the receiver's port runs, not always with
context 0 (O9). -/

namespace Sys2Proof.Machine

theorem exec_batonArrival (p : Nat) (s : State) : exec (.batonArrival p []) s = .next (settle s (batonArrivalEffect p [] s)) := rfl

/-- An image of one segment: a map for every slot, in which batons that come clockwise are signalled on tally 5 of core C0. -/
def ringMapImage : Bytes :=
  List.replicate 0x24 0 ++ leBytes 2 1 ++ List.replicate 0xDA 0 ++
    (leBytes 2 9 ++ leBytes 6 0xFFFF ++ leBytes 8 0x120 ++ leBytes 8 20 ++ leBytes 8 0) ++
    (leBytes 4 0 ++ leBytes 2 1 ++ leBytes 10 0 ++ leBytes 4 (5 + 2 ^ 14))

/-- A baton that bench 1 keeps and has forwarded. -/
def keptLeg : Leg := { dest := 1, leg := 1, legs := 2, lap := 1, bytes := 2048, slots := some [0], got := 1, forwarded := true }

/-- A credit-mode run on benches 0 and 1, in which bench 1 runs the lap of a BLAP of context 1. -/
def lapOfContextOne : State :=
  { parts := { state := .running, valid := true, seats := 2, task := some { credit := true }, circle := [0, 1], legs := [keptLeg]
               prog := some { image := ringMapImage } } :: List.replicate 5 {}
    benches := { state := .active } ::
      { state := .active, port := { lap := some { parts := [{ ctx := 1 }], started := true }, laps := 1 } } :: List.replicate 11 {} }

theorem lapOfContextOne_keeps_baton :
    (lapOfContextOne.part 0).legs.find? Leg.over = some keptLeg ∧ keptLeg.discarded (lapOfContextOne.part 0).circle.length = false ∧
      (lapOfContextOne.part 0).scheduledRun = false ∧ (lapOfContextOne.part 0).adopted = [] ∧
      (lapOfContextOne.part 0).benchAt keptLeg.dest = 1 := by decide +kernel

/-- The signal on tally 5 is one of context 1. -/
theorem lapOfContextOne_signal :
    ((batonArrivalEffect 0 [] lapOfContextOne).core 1 0).signals = [{ key := 200, tally := 5, delta := 1, ctx := 1 }] := by decide +kernel

/-- What O9 names as the signals of the arrival. -/
theorem lapOfContextOne_named :
    (lapOfContextOne.core 1 0).signals ++ ((ringEntries (Img.map (lapOfContextOne.part 0).img (lapOfContextOne.ownSlot 0 1)) false).filter
      fun e => e.1 = 0).map (fun e => ({ key := 200, tally := e.2, delta := 1, ctx := 0 } : Signal)) =
        [{ key := 200, tally := 5, delta := 1, ctx := 0 }] := by decide +kernel

/-- Refutes O9: a baton's arrival is signalled with context 1 where the lap is that of a BLAP of context 1. -/
theorem not_batonsArriveAndRetry : ¬ Obligations.BatonsArriveAndRetry := by
  intro h
  obtain ⟨hover, hkept, hcredit, hadopted, hbench⟩ := lapOfContextOne_keeps_baton
  obtain ⟨u, hu, -, -, -, hsignals⟩ := h.1 lapOfContextOne 0 keptLeg hover
  rw [exec_batonArrival] at hu
  obtain rfl := Host.Outcome.next.inj hu
  rw [hbench] at hsignals
  have hs := hsignals hkept hcredit hadopted (by decide) 0 (by decide)
  rw [State.core, State.bench, settle_benches, ← State.bench, ← State.core, lapOfContextOne_signal] at hs
  exact absurd (hs.trans lapOfContextOne_named) (by decide)

end Sys2Proof.Machine
end

section
/-! R722 to R725: an update of the glued settings that meets no other update (O10, O11). -/

namespace Sys2Proof.Machine

theorem getLsbD_setBit_self (w : W32) {n : Nat} (h : n < 32) : (setBit w n).getLsbD n = true := by
  simp [setBit, h]

theorem getLsbD_setBit_of_set {w : W32} {k : Nat} (n : Nat) (h : w.getLsbD k = true) : (setBit w n).getLsbD k = true := by
  simp [setBit, h]

theorem State.ringEvent_self (s : State) {n : Nat} (h : n < 32) : (s.ringEvent n).ring.event.getLsbD n = true := by
  rw [State.ringEvent, State.raise_ring]
  exact getLsbD_setBit_self _ h

theorem State.glueEvent_self (s : State) {n : Nat} (h : n < 32) : (s.glueEvent n).glue.event.getLsbD n = true := by
  rw [State.glueEvent, State.raise_glue]
  exact getLsbD_setBit_self _ h

/-! ### Updates, one at a time (R725) -/

/-- The only update is decided at once. -/
theorem State.glueUpdate_of_idle {s : State} (h : s.glue.jobs = []) (j : GlueJob) :
    s.glueUpdate j = (s.modGlue fun g => { g with jobs := [j] }).glueStart 64 := by
  simp [State.glueUpdate, State.modGlue, h]

section
variable {s t : State} {j : GlueJob} (hj : s.glue.jobs = [j])
include hj

/-- An update that needs no slot leaves no update behind it. -/
theorem State.glueStart_of_decided (h : s.decideJob j = some t) (n : Nat) :
    s.glueStart (n + 2) = t.modGlue fun g => { g with jobs := [] } := by
  rw [State.glueStart]
  simp only [hj, h]
  rw [State.glueStart]
  rfl

/-- An update of SPARE_GLUED for a loss or a rejoin begins its slot's program. -/
theorem State.glueStart_of_spare (h : s.decideJob j = none) (hw : j.who = .spare none) (n : Nat) :
    s.glueStart (n + 1) = s.beginSlot j.setting := by
  rw [State.glueStart]
  simp only [hj, h, hw]

/-- RING_SPARE_SET makes its bench SPARE as its slot's program begins (R160). -/
theorem State.glueStart_of_spareSet {id : PktId} (h : s.decideJob j = none) (hw : j.who = .spare (some id)) (n : Nat) :
    s.glueStart (n + 1) = (s.beginSlot j.setting).makeSpare j.value := by
  rw [State.glueStart]
  simp only [hj, h, hw]

end

/-! ### SPARE_GLUED follows the spare (R163, R166) -/

/-- The state t is s but for the glued settings, the event bits of the ring, of which none is lost, and the record of raised bits. -/
def State.GluedOnly (s t : State) : Prop :=
  ∃ g e r, t = { s with glue := g, ring := { s.ring with event := e }, raised := r } ∧
    ∀ n, s.ring.event.getLsbD n = true → e.getLsbD n = true

theorem State.GluedOnly.modGlue (s : State) (f : Glue → Glue) : s.GluedOnly (s.modGlue f) := ⟨_, _, _, rfl, fun _ h => h⟩

theorem State.GluedOnly.trans {s t u : State} (h : s.GluedOnly t) (k : t.GluedOnly u) : s.GluedOnly u := by
  obtain ⟨g, e, r, rfl, he⟩ := h
  obtain ⟨g', e', r', rfl, he'⟩ := k
  exact ⟨g', e', r', rfl, fun n h => he' n (he n h)⟩

theorem State.raise_eq (s : State) (key n : Nat) : ∃ r, s.raise key n = { s with raised := r } := by
  unfold State.raise
  split
  · exact ⟨_, rfl⟩
  · exact ⟨s.raised, rfl⟩

theorem State.GluedOnly.ringEvent (s : State) (n : Nat) : s.GluedOnly (s.ringEvent n) := by
  obtain ⟨r, h⟩ := (s.modRing fun r => { r with event := setBit r.event n }).raise_eq 1 n
  exact ⟨s.glue, _, r, h, fun k hk => getLsbD_setBit_of_set n hk⟩

/-- The update takes a slot, needs none, or finds none left, which sets an event bit of the ring. -/
theorem State.glueSpare_gluedOnly {s : State} (h : s.glue.jobs = []) (b : Nat) : s.GluedOnly (s.glueSpare b) := by
  rw [State.glueSpare, State.glueUpdate_of_idle h]
  generalize ht : (s.modGlue fun g => { g with jobs := [{ setting := 1, value := b, who := .spare none }] }) = t
  have hj : t.glue.jobs = [{ setting := 1, value := b, who := .spare none }] := by rw [← ht]; rfl
  have hst : s.GluedOnly t := ht ▸ .modGlue s _
  refine hst.trans ?_
  cases hd : t.decideJob { setting := 1, value := b, who := .spare none } with
  | none =>
    rw [State.glueStart_of_spare hj hd rfl]
    exact .modGlue _ _
  | some u =>
    rw [State.glueStart_of_decided hj hd]
    refine State.GluedOnly.trans ?_ (.modGlue u _)
    simp only [State.decideJob] at hd
    split at hd
    · cases hd
      exact .modGlue t id
    · split at hd
      · cases hd
        exact .ringEvent t 5
      · cases hd

section
variable {s t : State} (h : s.GluedOnly t)
include h

theorem State.GluedOnly.benches : t.benches = s.benches := by obtain ⟨_, _, _, rfl, -⟩ := h; rfl
theorem State.GluedOnly.parts : t.parts = s.parts := by obtain ⟨_, _, _, rfl, -⟩ := h; rfl
theorem State.GluedOnly.fns : t.fns = s.fns := by obtain ⟨_, _, _, rfl, -⟩ := h; rfl
theorem State.GluedOnly.spareLive : t.ring.spareLive = s.ring.spareLive := by obtain ⟨_, _, _, rfl, -⟩ := h; rfl
theorem State.GluedOnly.seatMap : t.ring.seatMap = s.ring.seatMap := by obtain ⟨_, _, _, rfl, -⟩ := h; rfl
theorem State.GluedOnly.event {n : Nat} (k : s.ring.event.getLsbD n = true) : t.ring.event.getLsbD n = true := by
  obtain ⟨_, _, _, rfl, he⟩ := h
  exact he n k

end

end Sys2Proof.Machine
end

section
/-! R160, R164 to R166, R724, R725: the rejoin of a fenced bench, and RING_SPARE_SET (O11). -/

namespace Sys2Proof.Machine

theorem exec_ringRejoin (f : Nat) (s : State) : exec (.ringRejoin f) s = .next (settle s (ringRejoinEffect f s)) := rfl
theorem exec_rejoinDone (b : Nat) (pass : Bool) (s : State) :
    exec (.rejoinDone b pass) s = .next (settle s (rejoinDoneEffect b pass s)) := rfl
theorem exec_ringSpareSet (f : Nat) (s : State) : exec (.ringSpareSet f) s = .next (settle s (ringSpareSetEffect f s)) := rfl

/-! ### RING_REJOIN and its outcome (R164 to R166) -/

section
variable {s : State} {f i b : Nat} {x : Pkt}

/-- A fenced bench that nothing claims and no latch holds is tested. -/
theorem ringRejoin_tests (h : s.admits f 0x09 i x) (hb : x.u 0x20 1 = b) (hs : b < s.nSeats) (hl : s.latched b = false) (hc : s.claims b = false)
    (hf : (s.bench b).state = .fenced) :
    ((s.takePkt f i).beginTest b (.rejoin (s.pktId f x))).AnswersMore (settle s (ringRejoinEffect f s)) := by
  subst hb
  refine State.admitPkt_answersMore h ?_
  have hs' : ¬ (s.takePkt f i).nSeats ≤ x.u 0x20 1 := Nat.not_le.2 hs
  have hl' : (s.takePkt f i).latched (x.u 0x20 1) = false := hl
  have hc' : (s.takePkt f i).claims (x.u 0x20 1) = false := hc
  have hf' : ((s.takePkt f i).bench (x.u 0x20 1)).state = .fenced := hf
  simp only [hs', hl', hc', hf', if_false, Bool.false_eq_true, bne_self_eq_false]

theorem State.bench_beginTest (s : State) (why : TestWhy) (hb : b < s.benches.length) :
    (s.beginTest b why).bench b = { (s.bench b).resetAll with
      state := .testing, test := some { why := why, former := (s.bench b).state, endAt := s.beat.periods + 50000 }
      power := 0, powerMove := none, testDeferred := false } :=
  State.bench_modBench _ _ _ hb

end

/-- The state that a bench's rejoin ends in (R165, R166). -/
def State.rejoined (s : State) (b : Nat) (pass : Bool) : BState :=
  if pass && decide ((s.bench b).state = .testing) then (if s.ring.spareLive = 0xF then .spare else .unassigned) else .fenced

section
variable {s : State} {b e : Nat} {pass : Bool} {id : PktId} {former : BState}

theorem rejoinDoneEffect_of_rejoin (h : (s.bench b).test = some { why := .rejoin id, former := former, endAt := e }) (he : e ≤ s.beat.periods) :
    let good := pass && decide ((s.bench b).state = .testing)
    let u := (s.endTest b pass (s.rejoined b pass)).ringEvent 3
    rejoinDoneEffect b pass s = (if good && decide (s.ring.spareLive = 0xF) then
      (u.modRing fun r => { r with spareLive := b }).glueSpare b else u).finish id 0xFF stOK 0 (s.rejoined b pass).code := by
  simp only [rejoinDoneEffect, h, Nat.not_lt.2 he, if_false, State.rejoined]
  by_cases hs : s.ring.spareLive = 0xF <;> cases pass && decide ((s.bench b).state = .testing) <;> simp only [hs, if_true, if_false] <;> rfl

/-- R166: the bench becomes the spare where the device has none. -/
theorem State.spareIf_cases {u : State} {c : Bool} (hg : u.glue.jobs = []) (b : Nat) :
    let v := if c then (u.modRing fun r => { r with spareLive := b }).glueSpare b else u
    v.benches = u.benches ∧ v.fns = u.fns ∧ v.ring.spareLive = (if c then b else u.ring.spareLive) ∧
      ∀ n, u.ring.event.getLsbD n = true → v.ring.event.getLsbD n = true := by
  cases c with
  | false => exact ⟨rfl, rfl, rfl, fun _ h => h⟩
  | true =>
    have h := State.glueSpare_gluedOnly (s := u.modRing fun r => { r with spareLive := b }) hg b
    exact ⟨h.benches, h.fns, h.spareLive, fun _ hn => h.event hn⟩

/-- The rejoin's completion is the last act; before it the bench is in its new state, REJOIN_DONE is set, and the spare is known. -/
theorem rejoinDoneEffect_cases (h : (s.bench b).test = some { why := .rejoin id, former := former, endAt := e }) (he : e ≤ s.beat.periods)
    (hg : s.glue.jobs = []) :
    let good := pass && decide ((s.bench b).state = .testing)
    ∃ v : State, rejoinDoneEffect b pass s = v.finish id 0xFF stOK 0 (s.rejoined b pass).code ∧
      v.benches = (s.endTest b pass (s.rejoined b pass)).benches ∧ v.fns = s.fns ∧
      v.ring.spareLive = (if good && decide (s.ring.spareLive = 0xF) then b else s.ring.spareLive) ∧ v.ring.event.getLsbD 3 = true := by
  intro good
  have hu : (s.endTest b pass (s.rejoined b pass)).GluedOnly ((s.endTest b pass (s.rejoined b pass)).ringEvent 3) := .ringEvent _ 3
  have hjobs : ((s.endTest b pass (s.rejoined b pass)).ringEvent 3).glue.jobs = [] := by simp [State.ringEvent, State.endTest, hg]
  have hset : ((s.endTest b pass (s.rejoined b pass)).ringEvent 3).ring.event.getLsbD 3 = true :=
    State.ringEvent_self _ (by decide)
  obtain ⟨hbenches, hfns, hspare, hevent⟩ := State.spareIf_cases (c := good && decide (s.ring.spareLive = 0xF)) hjobs b
  exact ⟨_, rejoinDoneEffect_of_rejoin h he, hbenches.trans hu.benches, hfns.trans hu.fns, by rw [hspare, hu.spareLive]; rfl, hevent 3 hset⟩

theorem rejoinDone_ends (h : (s.bench b).test = some { why := .rejoin id, former := former, endAt := e }) (he : e ≤ s.beat.periods)
    (hg : s.glue.jobs = []) (hid : s.hears id) :
    let good := pass && decide ((s.bench b).state = .testing)
    let t := settle s (rejoinDoneEffect b pass s)
    (t.bench b).state = s.rejoined b pass ∧ (t.bench b).testPass = pass ∧ (t.bench b).test = none ∧
      t.ring.spareLive = (if good && decide (s.ring.spareLive = 0xF) then b else s.ring.spareLive) ∧ t.ring.event.getLsbD 3 = true ∧
      t.answered id 0xFF 0 0 (s.rejoined b pass).code 0 0 := by
  intro good t
  obtain ⟨v, hv, hbenches, hfns, hspare, hevent⟩ := rejoinDoneEffect_cases (pass := pass) h he hg
  have hk : (v.finish id 0xFF stOK 0 (s.rejoined b pass).code).AnswersMore t := hv ▸ .settle s _
  have hb : b < s.benches.length := State.bench_lt_of (f := Bench.test) (by rw [h]; exact Option.some_ne_none _)
  have hbench : t.bench b = { (s.bench b).zeroFill with state := s.rejoined b pass, test := none, testPass := pass } :=
    (State.bench_eq_of_benches (hk.benches.trans hbenches) b).trans (State.bench_modBench _ _ _ hb)
  rw [hbench, hk.ring]
  exact ⟨rfl, rfl, rfl, hspare, hevent, (hid.of_fns hfns).answered_of _ _ _ _ _ _ hk rfl⟩

end

/-! ### RING_SPARE_SET (R160, R724, R725) -/

section
variable {s : State} {f i b : Nat} {x : Pkt}

/-- The state in which the open gate decides a RING_SPARE_SET: it is the only update. -/
def State.spareSetJob (s : State) (f i b : Nat) (x : Pkt) : State :=
  (s.takePkt f i).modGlue fun g => { g with jobs := [{ setting := 1, value := b, who := .spare (some (s.pktId f x)) }] }

theorem ringSpareSet_refused {st d : Nat} (h : s.admits f 0x08 i x) (hr : s.spareSetRefusal (x.u 0x20 1) = some (st, d)) :
    ((s.takePkt f i).refuse (s.pktId f x) 0xFF st d).AnswersMore (settle s (ringSpareSetEffect f s)) := by
  refine State.admitPkt_answersMore h ?_
  have hr' : (s.takePkt f i).spareSetRefusal (x.u 0x20 1) = some (st, d) := hr
  simp only [hr']

theorem ringSpareSet_updates (h : s.admits f 0x08 i x) (hr : s.spareSetRefusal (x.u 0x20 1) = none) (hg : s.glue.jobs = []) :
    ((s.spareSetJob f i (x.u 0x20 1) x).glueStart 64).AnswersMore (settle s (ringSpareSetEffect f s)) := by
  refine State.admitPkt_answersMore h ?_
  have hr' : (s.takePkt f i).spareSetRefusal (x.u 0x20 1) = none := hr
  simp only [hr']
  exact State.glueUpdate_of_idle (s := s.takePkt f i) hg _

/-- R160, R724: the decision, where the bench may be the spare: no slot is needed, none is left, or one is to be programmed. -/
theorem State.decideJob_spareSet (hr : s.spareSetRefusal b = none) :
    (s.spareSetJob f i b x).decideJob { setting := 1, value := b, who := .spare (some (s.pktId f x)) } =
      if s.glue.value 1 = b then
        some (((s.spareSetJob f i b x).makeSpare b).finish (s.pktId f x) 0xFF stOK 0 (s.glue.left 1))
      else if s.glue.left 1 = 0 then some (((s.spareSetJob f i b x).glueEvent 1).refuse (s.pktId f x) 0xFF stGLUE 0) else none := by
  have hr' : (s.spareSetJob f i b x).spareSetRefusal b = none := hr
  simp only [State.decideJob, hr']
  rfl

/-- The bench is SPARE_GLUED already (R160). -/
theorem ringSpareSet_same (h : s.admits f 0x08 i x) (hr : s.spareSetRefusal (x.u 0x20 1) = none) (hg : s.glue.jobs = [])
    (hv : s.glue.value 1 = x.u 0x20 1) :
    ((((s.spareSetJob f i (x.u 0x20 1) x).makeSpare (x.u 0x20 1)).finish (s.pktId f x) 0xFF stOK 0 (s.glue.left 1)).modGlue
      fun g => { g with jobs := [] }).AnswersMore (settle s (ringSpareSetEffect f s)) := by
  have hd := State.decideJob_spareSet (f := f) (i := i) (x := x) hr
  rw [if_pos hv] at hd
  exact State.glueStart_of_decided rfl hd 62 ▸ ringSpareSet_updates h hr hg

/-- No slot of SPARE_GLUED is left (R724). -/
theorem ringSpareSet_full (h : s.admits f 0x08 i x) (hr : s.spareSetRefusal (x.u 0x20 1) = none) (hg : s.glue.jobs = [])
    (hv : s.glue.value 1 ≠ x.u 0x20 1) (hl : s.glue.left 1 = 0) :
    ((((s.spareSetJob f i (x.u 0x20 1) x).glueEvent 1).refuse (s.pktId f x) 0xFF stGLUE 0).modGlue
      fun g => { g with jobs := [] }).AnswersMore (settle s (ringSpareSetEffect f s)) := by
  have hd := State.decideJob_spareSet (f := f) (i := i) (x := x) hr
  rw [if_neg hv, if_pos hl] at hd
  exact State.glueStart_of_decided rfl hd 62 ▸ ringSpareSet_updates h hr hg

/-- A slot of SPARE_GLUED is to be programmed (R724). -/
theorem ringSpareSet_programs (h : s.admits f 0x08 i x) (hr : s.spareSetRefusal (x.u 0x20 1) = none) (hg : s.glue.jobs = [])
    (hv : s.glue.value 1 ≠ x.u 0x20 1) (hl : s.glue.left 1 ≠ 0) :
    (((s.spareSetJob f i (x.u 0x20 1) x).beginSlot 1).makeSpare (x.u 0x20 1)).AnswersMore (settle s (ringSpareSetEffect f s)) := by
  have hd := State.decideJob_spareSet (f := f) (i := i) (x := x) hr
  rw [if_neg hv, if_neg hl] at hd
  exact State.glueStart_of_spareSet rfl hd rfl 63 ▸ ringSpareSet_updates h hr hg

theorem State.bench_makeSpare (s : State) (b : Nat) :
    (s.makeSpare b).bench b = { s.bench b with state := if b < s.benches.length then .spare else (s.bench b).state } := by
  split
  next h => exact State.bench_modBench _ _ _ h
  next h => exact congrArg (·.getD b {}) (List.modify_eq_self (Nat.not_lt.1 h))

end

/-- Settles O11: the refusals and conditions of R160 and R164, and the decision of the one update. -/
theorem sparesAndRejoin : Obligations.SparesAndRejoin := by
  refine ⟨fun s => ⟨fun f i x h hs hl hlatch hc hf => ⟨_, exec_ringRejoin f s, ?_⟩, fun b pass id former e h he hg hf hid =>
    ⟨_, exec_rejoinDone b pass s, rejoinDone_ends h he hg ⟨hf, hid⟩⟩⟩, fun s f i x h => ⟨fun st d hr => ⟨_, exec_ringSpareSet f s, ?_⟩,
      fun hr hg => ⟨fun hv => ⟨_, exec_ringSpareSet f s, ?_⟩, fun hv hl => ⟨_, exec_ringSpareSet f s, ?_⟩,
        fun hv hl => ⟨_, exec_ringSpareSet f s, ?_⟩⟩⟩⟩
  · have hk := ringRejoin_tests h rfl hs hlatch hc hf
    have hb := (State.bench_eq_of_benches hk.benches _).trans (State.bench_beginTest (s.takePkt f i) (.rejoin (s.pktId f x)) hl)
    rw [hb]
    refine ⟨rfl, rfl, rfl, ?_, fun b hb => ?_, hk.hbm⟩
    · exact congrArg (fun st => some (BenchTest.mk (.rejoin (s.pktId f x)) st (s.beat.periods + 50000))) hf
    · exact (State.bench_eq_of_benches hk.benches _).trans (State.bench_modBench_ne _ _ _ _ (Ne.symm hb))
  · have hk := ringSpareSet_refused h hr
    exact ⟨(State.hears_takePkt h).answered_of _ _ _ _ _ _ hk rfl, hk.ring, hk.benches, hk.glue⟩
  · have hk := ringSpareSet_same h hr hg hv
    refine ⟨hk.ring, ?_, hk.glue.trans ?_, ?_⟩
    · exact (State.bench_eq_of_benches hk.benches _).trans (State.bench_makeSpare _ _)
    · exact congrArg (fun js => { s.glue with jobs := js }) hg.symm
    · exact (State.hears_takePkt h).answered_of _ _ _ _ _ _ hk rfl
  · have hk := ringSpareSet_full h hr hg hv hl
    refine ⟨?_, hk.glue ▸ State.glueEvent_self (s.spareSetJob f i (x.u 0x20 1) x) (by decide), hk.ring.trans ?_, hk.benches.trans ?_⟩
    · have hu : ((s.spareSetJob f i (x.u 0x20 1) x).glueEvent 1).hears (s.pktId f x) :=
        (State.hears_takePkt h).of_fns (by simp [State.glueEvent, State.spareSetJob])
      exact hu.answered_of _ _ _ _ _ _ hk rfl
    · exact State.raise_ring ..
    · exact State.raise_benches ..
  · have hk := ringSpareSet_programs h hr hg hv hl
    exact ⟨hk.ring, hk.glue⟩

end Sys2Proof.Machine
end

section
/-! R137, R142 to R147, R313, R485, R669, R670: the creation, the resize and the end of a partition (O38). -/

namespace Sys2Proof.Machine

theorem exec_partCreate (f : Nat) (s : State) : exec (.partCreate f) s = .next (settle s (partCreateEffect f s)) := rfl
theorem exec_partResize (f : Nat) (s : State) : exec (.partResize f) s = .next (settle s (partResizeEffect f s)) := rfl
theorem exec_partDestroy (f : Nat) (s : State) : exec (.partDestroy f) s = .next (settle s (partDestroyEffect f s)) := rfl
theorem exec_partitionZeroed (p : Nat) (s : State) : exec (.partitionZeroed p) s = .next (settle s (partitionZeroedEffect p s)) := rfl

/-! ### What an entry of the ledger leaves (R485, R486, R502) -/

/-- A partition but for its stream, which keeps its identity and whether it is closed. -/
def Part.SameStream (x y : Part) : Prop := ∃ z, y = { x with stream := z } ∧ z.id = x.stream.id ∧ z.closed = x.stream.closed

theorem Part.SameStream.refl (x : Part) : x.SameStream x := ⟨x.stream, rfl, rfl, rfl⟩

theorem Part.SameStream.trans {x y z : Part} (h : x.SameStream y) (k : y.SameStream z) : x.SameStream z := by
  obtain ⟨u, rfl, hi, hc⟩ := h
  obtain ⟨v, rfl, ki, kc⟩ := k
  exact ⟨v, rfl, ki.trans hi, kc.trans hc⟩

/-- The state t is s but for the ledger, which has opened no stream, the record of raised bits, and the stream of partition p. -/
def State.Staged (s t : State) (p : Nat) : Prop :=
  (∃ l r ps, t = { s with ldg := l, raised := r, parts := ps } ∧ l.nextStream = s.ldg.nextStream ∧ ps.length = s.parts.length) ∧
    (s.part p).SameStream (t.part p) ∧ ∀ q, q ≠ p → t.part q = s.part q

section
variable {s t u : State} {p : Nat}

theorem State.Staged.refl (s : State) (p : Nat) : s.Staged s p := ⟨⟨_, _, _, rfl, rfl, rfl⟩, .refl _, fun _ _ => rfl⟩

theorem State.Staged.trans (h : s.Staged t p) (k : t.Staged u p) : s.Staged u p := by
  obtain ⟨⟨l, r, ps, rfl, hn, hl⟩, hp, hq⟩ := h
  obtain ⟨⟨l', r', ps', rfl, hn', hl'⟩, hp', hq'⟩ := k
  exact ⟨⟨l', r', ps', rfl, hn'.trans hn, hl'.trans hl⟩, hp.trans hp', fun q h => (hq' q h).trans (hq q h)⟩

theorem State.Staged.modLdg (s : State) (p : Nat) {g : Ledger → Ledger} (h : (g s.ldg).nextStream = s.ldg.nextStream) :
    s.Staged (s.modLdg g) p := ⟨⟨_, s.raised, s.parts, rfl, h, rfl⟩, .refl _, fun _ _ => rfl⟩

theorem State.Staged.raise (s : State) (p key n : Nat) : s.Staged (s.raise key n) p := by
  unfold State.raise
  split
  · exact ⟨⟨s.ldg, _, s.parts, rfl, rfl, rfl⟩, .refl _, fun _ _ => rfl⟩
  · exact .refl s p

/-- An update of the partition's stream that keeps its identity and whether it is closed. -/
theorem State.Staged.modStream (s : State) (p : Nat) {g : Part → Part} (h : (s.part p).SameStream (g (s.part p))) : s.Staged (s.modPart p g) p := by
  refine ⟨⟨s.ldg, s.raised, _, rfl, rfl, List.length_modify ..⟩, ?_, fun q hq => State.part_modPart_ne _ _ _ _ (Ne.symm hq)⟩
  by_cases hp : p < s.parts.length
  · rwa [State.part_modPart _ _ _ hp]
  · have hs : s.modPart p g = s := by rw [State.modPart, List.modify_eq_self (Nat.not_lt.1 hp)]
    rw [hs]
    exact .refl _

theorem State.stageRaw_staged (s : State) (p ty : Nat) (body : Bytes) : s.Staged (s.stageRaw p ty body) p := by
  refine (State.Staged.modLdg s p rfl).trans (.modStream _ p ?_)
  refine ⟨_, rfl, ?_, ?_⟩
  · show Stream.id (if _ then _ else _) = _
    split <;> rfl
  · show Stream.closed (if _ then _ else _) = _
    split <;> rfl

theorem State.stageSignature_staged (s : State) (p : Nat) : s.Staged (s.stageSignature p) p :=
  (s.stageRaw_staged p 3 _).trans (.modStream _ p ⟨_, rfl, rfl, rfl⟩)

theorem State.dropEntry_staged (s : State) (p : Nat) : s.Staged s.dropEntry p :=
  (State.Staged.modLdg s p rfl).trans ((State.Staged.modLdg _ p rfl).trans (.raise _ p 6 6))

theorem State.stageOpen_staged (s : State) (p : Nat) : s.Staged (s.stageOpen p) p := by
  unfold State.stageOpen
  extract_lets
  split
  · exact s.dropEntry_staged p
  · exact s.stageRaw_staged p 1 _

/-- CLOSE, and then the stream is closed. -/
theorem State.stageClose_cases (s : State) (p : Nat) :
    ∃ u, s.Staged u p ∧ s.stageClose p = u.modPart p fun x => { x with stream := { x.stream with closed := true } } := by
  unfold State.stageClose
  extract_lets body u
  refine ⟨u, ?_, rfl⟩
  show s.Staged (if _ then _ else _) p
  split
  · exact s.dropEntry_staged p
  · exact (s.stageRaw_staged p 4 _).trans (State.stageSignature_staged _ p)

end

/-- A change that waits for a splice window from the next gate on (R151, log entry 55). -/
theorem State.requestSplice_waiting (s : State) {q : SpliceReq} (h : q.notBefore = 0) :
    (s.requestSplice q).ring.waiting = s.ring.waiting ++ [{ q with notBefore := s.beat.periods + 1 }] := by
  rw [State.requestSplice, h, Nat.zero_max]
  rfl

/-! ### PART_CREATE (R142, R143, R485, R669) -/

/-- The entry that an accepted PART_CREATE claims. -/
def Part.created (y : Part) (x : Pkt) (base stream : Nat) : Part :=
  { ckp := { event := y.ckp.event, skips := y.ckp.skips, nvme := y.ckp.nvme, lastGen := y.ckp.lastGen, tornLba := y.ckp.tornLba }
    first := x.u 0x20 1, seats := x.u 0x21 1, hbmBase := base, hbmSize := x.u 0x2C 2
    bw := splitUnits [x.u 0x26 1, x.u 0x27 1, x.u 0x28 1], tallyBlocks := x.u 0x22 1, hurdleCount := x.u 0x24 2
    audit := bitOf (x.u 0x23 1) 0, stream := { id := stream, closed := false } }

/-- The entry is claimed, and the ledger has opened its stream. -/
def State.claimPart (s : State) (p : Nat) (x : Pkt) (base : Nat) : State :=
  (s.modLdg fun l => { l with nextStream := l.nextStream + 1, anchorDue := true, dir := l.dir ++ [(s.ldg.nextStream, p, false, 0)] }).modPart p
    fun y => y.created x base s.ldg.nextStream

section
variable {s : State} {f i p : Nat} {x : Pkt} {id : PktId}

theorem State.freeHbm_of_createRefusal (h : s.createRefusal p x = none) : ∃ base, s.freeHbm (x.u 0x2C 2) = some base := by
  unfold State.createRefusal at h
  extract_lets first n units at h
  iterate 3
    split at h
    · cases h
  split at h
  · cases h
  next hn => exact Option.ne_none_iff_exists'.1 (by simpa using hn)

theorem State.createAdmitted_of_none (h : s.createRefusal p x = none) {base : Nat} (hb : s.freeHbm (x.u 0x2C 2) = some base) :
    s.createAdmitted id p x = ((s.claimPart p x base).stageOpen p).requestSplice { part := p, change := .create, id := some id } := by
  have hb' (g : Ledger → Ledger) : (s.modLdg g).freeHbm (x.u 0x2C 2) = some base := hb
  simp only [State.createAdmitted, h, hb', Option.getD_some]
  rfl

/-- The entry as an accepted PART_CREATE leaves it, but for what its OPEN entry did to the stream. -/
theorem partCreate_claims (ha : s.admits f 0x01 i x) (hr : s.createRefusal (x.part f) x = none) :
    ∃ base, s.freeHbm (x.u 0x2C 2) = some base ∧ ∃ u, ((s.takePkt f i).claimPart (x.part f) x base).Staged u (x.part f) ∧
      (u.requestSplice { part := x.part f, change := .create, id := some (s.pktId f x) }).AnswersMore (settle s (partCreateEffect f s)) := by
  obtain ⟨base, hb⟩ := State.freeHbm_of_createRefusal hr
  exact ⟨base, hb, _, State.stageOpen_staged _ _, State.admitPkt_answersMore ha (State.createAdmitted_of_none (s := s.takePkt f i) hr hb)⟩

theorem partCreate_refused {st d : Nat} (ha : s.admits f 0x01 i x) (hr : s.createRefusal (x.part f) x = some (st, d)) :
    ((s.takePkt f i).refuse (s.pktId f x) (x.part f) st d).AnswersMore (settle s (partCreateEffect f s)) := by
  refine State.admitPkt_answersMore ha ?_
  have hr' : (s.takePkt f i).createRefusal (x.part f) x = some (st, d) := hr
  rw [State.createAdmitted, hr']

end

/-- R669: what an accepted PART_CREATE leaves. -/
theorem partCreate_accepted {s : State} {f i : Nat} {x : Pkt} (ha : s.admits f 0x01 i x) (hr : s.createRefusal (x.part f) x = none)
    (hp : x.part f < s.parts.length) :
    let p := x.part f
    let t := settle s (partCreateEffect f s)
    (t.part p).valid = false ∧ (t.part p).state = .free ∧
      (t.part p).first = x.u 0x20 1 ∧ (t.part p).seats = x.u 0x21 1 ∧ s.freeHbm (x.u 0x2C 2) = some (t.part p).hbmBase ∧
      (t.part p).hbmSize = x.u 0x2C 2 ∧ (t.part p).tallyBlocks = x.u 0x22 1 ∧ (t.part p).hurdleCount = x.u 0x24 2 ∧
      (t.part p).audit = bitOf (x.u 0x23 1) 0 ∧ (t.part p).stream.id = s.ldg.nextStream ∧ (t.part p).stream.closed = false ∧
      t.ldg.nextStream = s.ldg.nextStream + 1 ∧
      t.ring.waiting = s.ring.waiting ++ [{ part := p, change := .create, id := some (s.pktId f x), notBefore := s.beat.periods + 1 }] ∧
      (∀ q, q ≠ p → t.part q = s.part q) ∧ t.benches = s.benches ∧ t.hbm = s.hbm := by
  intro p t
  obtain ⟨base, hb, u, ⟨⟨l, r, ps, hu, hn, -⟩, ⟨z, hz, hi, hc⟩, hq⟩, hk⟩ := partCreate_claims ha hr
  have hclaim : ((s.takePkt f i).claimPart p x base).part p = (s.part p).created x base s.ldg.nextStream := State.part_modPart _ _ _ hp
  have hpart : t.part p = { (s.part p).created x base s.ldg.nextStream with stream := z } :=
    (State.part_eq_of_parts hk.parts p).trans (hz.trans (by rw [hclaim]))
  rw [hclaim] at hi hc
  rw [hpart, hk.ldg, hk.ring, hk.benches, hk.hbm]
  refine ⟨rfl, rfl, rfl, rfl, hb, rfl, rfl, rfl, rfl, hi, hc, ?_, ?_, fun q h => ?_, ?_, ?_⟩
  · rw [hu]; exact hn
  · rw [State.requestSplice_waiting _ rfl, hu]; rfl
  · exact (State.part_eq_of_parts hk.parts q).trans ((hq q h).trans (State.part_modPart_ne _ _ _ _ (Ne.symm h)))
  · rw [hu]; rfl
  · rw [hu]; rfl

/-! ### PART_RESIZE (R144, R145) -/

/-- The new arc that a PART_RESIZE names keeps the limits of R136 and R142 to R144. -/
structure State.Resizable (s : State) (p : Nat) (x : Pkt) : Prop where
  idle : (s.part p).hasTask = false ∧ (s.part p).hasLaunch = false ∧ s.partBusy p = false
  count : 2 ≤ (s.resizeArc p x).2 ∧ (s.resizeArc p x).2 ≤ (s.maxArc : Int)
  claimed : s.claimedSeats.length - (s.arcSeats p).length +
    (s.seatRun (s.resizeArc p x).1.toNat (s.resizeArc p x).2.toNat).length ≤ s.maxArc
  moves : -((s.part p).seats : Int) ≤ signedOf (x.u 0x20 1) 8 ∧ -((s.part p).seats : Int) ≤ signedOf (x.u 0x21 1) 8
  free : s.seatsFree ((s.seatRun (s.resizeArc p x).1.toNat (s.resizeArc p x).2.toNat).filter fun k => !(s.arcSeats p).contains k) = true
  blocks : s.blocksUsed + 2 * ((s.seatRun (s.resizeArc p x).1.toNat (s.resizeArc p x).2.toNat).length - (s.arcSeats p).length) *
    (s.part p).tallyBlocks ≤ 128

section
variable {s : State} {f i p : Nat} {x : Pkt} {id : PktId}

/-- The program is unloaded, buddy copies are off, and the change waits. -/
theorem State.resizeAdmitted_of_resizable (h : s.Resizable p x) :
    let a := s.resizeArc p x
    let old := s.arcSeats p
    let new := s.seatRun a.1.toNat a.2.toNat
    s.resizeAdmitted id p x = ((s.unload p).modPart p fun y => { y with ckp := y.ckp.buddyOff }).requestSplice
      { part := p, change := .resize a.1.toNat new.length (old.filter fun k => !new.contains k), id := some id } := by
  obtain ⟨⟨ht, hl, hb⟩, ⟨h2, hm⟩, hc, ⟨hf, hz⟩, hs, hk⟩ := h
  unfold State.resizeAdmitted
  rw [ht, hl, hb, Bool.or_self, Bool.or_self, if_neg Bool.false_ne_true]
  extract_lets a old new added fa za
  rw [if_neg, if_neg (Nat.not_lt.2 hk)]
  simp only [Bool.or_eq_true, decide_eq_true_eq, Bool.not_eq_true', not_or, not_lt, Bool.not_eq_false]
  exact ⟨⟨⟨⟨⟨h2, hm⟩, hc⟩, hf⟩, hz⟩, hs⟩

theorem partResize_accepted (ha : s.admits f 0x02 i x) (h : s.Resizable (x.part f) x) :
    let p := x.part f
    let a := s.resizeArc p x
    let old := s.arcSeats p
    let new := s.seatRun a.1.toNat a.2.toNat
    let t := settle s (partResizeEffect f s)
    (t.part p).prog = none ∧ (t.part p).ckp.buddyOn = false ∧
      t.ring.waiting = s.ring.waiting ++
        [{ part := p, change := .resize a.1.toNat new.length (old.filter fun k => !new.contains k), id := some (s.pktId f x)
           notBefore := s.beat.periods + 1 }] ∧
      t.benches = s.benches ∧ t.hbm = s.hbm := by
  intro p a old new t
  have hp : p < s.parts.length := State.part_lt_of_admits ha rfl (by decide)
  have hk : State.AnswersMore _ t := State.admitPkt_answersMore ha (State.resizeAdmitted_of_resizable (s := s.takePkt f i)
    ⟨h.idle, h.count, h.claimed, h.moves, h.free, h.blocks⟩)
  have hlen : p < ((s.takePkt f i).unload p).parts.length := by rw [State.unload_parts_length]; exact hp
  have hpart : t.part p = _ := (State.part_eq_of_parts hk.parts p).trans (State.part_modPart _ _ _ hlen)
  rw [hpart, hk.ring, hk.benches, hk.hbm]
  refine ⟨State.unload_prog hp, rfl, ?_, State.unload_benches .., State.unload_hbm ..⟩
  rw [State.requestSplice_waiting _ rfl, State.modPart_ring, State.unload_ring, State.modPart_beat, State.unload_beat]
  rfl

end

/-! ### PART_DESTROY (R146) -/

/-- HBM, and how many partitions there are. -/
def State.extent (s : State) : Mem × Nat := (s.hbm, s.parts.length)

theorem State.modPart_extent (s : State) (p : Nat) (f : Part → Part) : (s.modPart p f).extent = s.extent :=
  congrArg (Prod.mk s.hbm) (List.length_modify ..)

theorem State.raise_extent (s : State) (key n : Nat) : (s.raise key n).extent = s.extent := by simp [State.extent]

theorem State.failDrain_extent (s : State) (p status : Nat) : (s.failDrain p status).extent = s.extent :=
  (State.raise_extent ..).trans ((State.modPart_extent ..).trans (State.modPart_extent ..))

theorem State.dropPackets_extent (s : State) (p : Nat) : (s.dropPackets p).extent = s.extent :=
  (State.modPart_extent ..).trans (foldl_keeps (view := State.extent) (f := fun s id => State.finish s id p stDEFERRED 0) (fun _ _ => rfl) _ _)

/-- The partition's drain has failed and its packets are turned away (log entry 23). -/
def State.cleared (s : State) (p : Nat) : State := (if (s.part p).ckp.drain.isSome then s.failDrain p 0 else s).dropPackets p

section
variable {s : State} {f i p : Nat} {x : Pkt} {id : PktId}

theorem State.cleared_extent (s : State) (p : Nat) : (s.cleared p).extent = s.extent :=
  (State.dropPackets_extent ..).trans (view_ite _ (s.failDrain_extent p 0) rfl)

theorem State.destroyAdmitted_of_idle (ht : (s.part p).hasTask = false) (hl : (s.part p).hasLaunch = false) :
    s.destroyAdmitted id p x = ((s.cleared p).unload p).modPart p fun x =>
      { x with destroying := some id, stop := .none, ckp := (x.ckp.disarm).buddyOff } := by
  rw [State.destroyAdmitted, ht, hl, Bool.or_self, if_neg Bool.false_ne_true]
  rfl

theorem State.destroyAdmitted_of_task (ht : (s.part p).hasTask = true) : s.destroyAdmitted id p x = s.refuse id p stDEFERRED 0 := by
  rw [State.destroyAdmitted, ht, Bool.true_or, if_pos rfl]

theorem partDestroy_accepted (ha : s.admits f 0x03 i x) (ht : (s.part (x.part f)).hasTask = false)
    (hl : (s.part (x.part f)).hasLaunch = false) :
    let p := x.part f
    let t := settle s (partDestroyEffect f s)
    (t.part p).destroying = some (s.pktId f x) ∧ (t.part p).prog = none ∧ (t.part p).ckp.armed = false ∧
      (t.part p).ckp.buddyOn = false ∧ t.hbm = s.hbm := by
  intro p t
  have hk : State.AnswersMore _ t := State.admitPkt_answersMore ha (State.destroyAdmitted_of_idle (s := s.takePkt f i) ht hl)
  obtain ⟨hhbm, hparts⟩ := Prod.mk.inj ((s.takePkt f i).cleared_extent p)
  have hp : p < s.parts.length := State.part_lt_of_admits ha rfl (by decide)
  have hlen : p < ((s.takePkt f i).cleared p).parts.length := hparts ▸ hp
  have hpart : t.part p = _ :=
    (State.part_eq_of_parts hk.parts p).trans (State.part_modPart _ _ _ (by rwa [State.unload_parts_length]))
  rw [hpart, hk.hbm]
  exact ⟨rfl, State.unload_prog hlen, rfl, rfl, (State.unload_hbm ..).trans hhbm⟩

theorem partDestroy_deferred (ha : s.admits f 0x03 i x) (ht : (s.part (x.part f)).hasTask = true) :
    ((s.takePkt f i).refuse (s.pktId f x) (x.part f) stDEFERRED 0).AnswersMore (settle s (partDestroyEffect f s)) :=
  State.admitPkt_answersMore ha (State.destroyAdmitted_of_task (s := s.takePkt f i) ht)

end

/-! ### PARTITION_ZEROED (R145 to R147, R313) -/

/-- The state of a released bench (R145). -/
def BState.released : BState → BState
  | .active => .unassigned
  | .bypassed => .fenced
  | z => z

theorem BState.released_released (z : BState) : z.released.released = z.released := by cases z <;> rfl

theorem Bench.release_state (x : Bench) : x.release.state = x.state.released := by
  unfold Bench.release
  cases x.state <;> rfl

/-- The stores and the state of a bench. -/
def Bench.face (x : Bench) : Mem × Mem × BState := (x.rack, x.act, x.state)

/-- Benches are zero-filled and released. -/
def State.releaseAll (s : State) (bs : List Nat) : State := bs.foldl (fun s b => s.modBench b fun x => x.zeroFill.release) s

theorem State.face_releaseAll {bs : List Nat} {b : Nat} (s : State) (hb : b ∈ bs) (hl : b < s.benches.length) :
    ((s.releaseAll bs).bench b).face = ([], [], (s.bench b).state.released) :=
  State.shown_foldl_modBench_of_mem (f := Bench.face) (g := fun x => x.zeroFill.release) (h := fun a => ([], [], a.2.2.released))
    (fun x => congrArg (fun st => (([], [], st) : Mem × Mem × BState)) x.zeroFill.release_state)
    (fun a => congrArg (fun st => (([], [], st) : Mem × Mem × BState)) a.2.2.released_released) hb s hl

section
variable {s : State} {p : Nat} {id : PktId}

/-- The state in which CLOSE is staged: the share and the benches' stores are zero, and the benches are released. -/
def State.zeroed (s : State) (p : Nat) : State :=
  State.releaseAll { s with hbm := Memory.clear s.hbm (s.part p).hbmStart (s.part p).hbmBytes } (s.arcBenches p)

theorem State.releaseAll_view {β : Type} {view : State → β} (h : ∀ s b f, view (State.modBench s b f) = view s) (s : State) (bs : List Nat) :
    view (s.releaseAll bs) = view s := foldl_keeps (fun _ _ => h ..) bs s

/-- An entry without a partition: the counts of its stream and of its checkpoints stay. -/
def Part.gone (x : Part) : Part :=
  { stream := x.stream, ckp := { event := x.ckp.event, skips := x.ckp.skips, nvme := x.ckp.nvme, lastGen := x.ckp.lastGen, tornLba := x.ckp.tornLba } }

theorem partitionZeroedEffect_of_destroying (h : (s.part p).destroying = some id) : ∃ g : Ledger → Ledger,
    partitionZeroedEffect p s = (((((s.zeroed p).stageClose p).modLdg g).modPart p Part.gone).modRing fun r =>
      { r with waiting := r.waiting ++ [{ part := p, change := .destroy (s.arcSeats p) }] }).finish id p stOK 0 := by
  simp only [partitionZeroedEffect, h]
  exact ⟨_, rfl⟩

/-- What the end of the zeroing leaves, before its completion. -/
theorem partitionZeroedEffect_cases (h : (s.part p).destroying = some id) : ∃ v : State,
    partitionZeroedEffect p s = v.finish id p stOK 0 ∧ v.fns = s.fns ∧ v.benches = (s.zeroed p).benches ∧ v.hbm = (s.zeroed p).hbm ∧
      v.ring = { s.ring with waiting := s.ring.waiting ++ [{ part := p, change := .destroy (s.arcSeats p) }] } ∧
      ∃ y : Part, v.part p = y.gone ∧ y.stream.closed = true := by
  have hp : p < s.parts.length := State.part_lt_of (f := Part.destroying) (by rw [h]; exact Option.some_ne_none _)
  have hparts : (s.zeroed p).parts = s.parts := State.releaseAll_view (view := State.parts) (fun _ _ _ => rfl) _ _
  have hfns : (s.zeroed p).fns = s.fns := State.releaseAll_view (view := State.fns) (fun _ _ _ => rfl) _ _
  have hring : (s.zeroed p).ring = s.ring := State.releaseAll_view (view := State.ring) (fun _ _ _ => rfl) _ _
  obtain ⟨g, he⟩ := partitionZeroedEffect_of_destroying h
  obtain ⟨u, ⟨⟨l, r, ps, hu, -, hl⟩, -⟩, hclose⟩ := (s.zeroed p).stageClose_cases p
  have hlen : p < u.parts.length := by rw [hu, hl, hparts]; exact hp
  rw [hclose] at he
  generalize hw : u.modPart p (fun x => { x with stream := { x.stream with closed := true } }) = w at he
  have hwp : p < w.parts.length := by rw [← hw, State.modPart_parts, List.length_modify]; exact hlen
  refine ⟨((w.modLdg g).modPart p Part.gone).modRing _, he, ?_, ?_, ?_, ?_, w.part p, ?_, ?_⟩
  · rw [← hfns, State.modRing_fns, State.modPart_fns, State.modLdg_fns, ← hw, hu]; rfl
  · rw [State.modRing_benches, State.modPart_benches, State.modLdg_benches, ← hw, hu]; rfl
  · rw [State.modRing_hbm, State.modPart_hbm, State.modLdg_hbm, ← hw, hu]; rfl
  · rw [← hring, State.modRing, State.modPart_ring, State.modLdg_ring, ← hw, hu]; rfl
  · exact State.part_modPart _ _ _ (by rw [State.modLdg_parts]; exact hwp)
  · rw [← hw, State.part_modPart _ _ _ hlen]

theorem partitionZeroed_completes (h : (s.part p).destroying = some id) (hid : s.hears id) :
    let t := settle s (partitionZeroedEffect p s)
    t.answered id p 0 0 0 0 0 ∧ (t.part p).valid = false ∧ (t.part p).seats = 0 ∧ (t.part p).state = .free ∧
      (t.part p).stream.closed = true ∧
      t.ring = { s.ring with waiting := s.ring.waiting ++ [{ part := p, change := .destroy (s.arcSeats p) }] } ∧
      t.benches = (s.zeroed p).benches ∧ t.hbm = (s.zeroed p).hbm := by
  intro t
  obtain ⟨v, he, hfns, hbenches, hhbm, hring, y, hpart, hc⟩ := partitionZeroedEffect_cases h
  have hk : State.AnswersMore _ t := .settle s (partitionZeroedEffect p s)
  have hv : t.part p = y.gone := (State.part_eq_of_parts hk.parts p).trans ((congrArg (State.part · p) he).trans hpart)
  rw [hv, hk.ring, hk.benches, hk.hbm]
  refine ⟨(hid.of_fns hfns).answered_of _ _ _ _ _ _ hk (congrArg State.fns he), rfl, rfl, rfl, hc, ?_, ?_, ?_⟩
  · rw [he]; exact hring
  · rw [he]; exact hbenches
  · rw [he]; exact hhbm

theorem State.zeroed_hbm_get (s : State) (p a : Nat) : Memory.get (s.zeroed p).hbm a =
    if (s.part p).hbmStart ≤ a ∧ a < (s.part p).hbmStart + (s.part p).hbmBytes then 0 else Memory.get s.hbm a := by
  rw [State.zeroed, State.releaseAll_view (view := State.hbm) (fun _ _ _ => rfl), Memory.get_clear]

theorem State.zeroed_face {b : Nat} (hb : b ∈ s.arcBenches p) (hl : b < s.benches.length) :
    ((s.zeroed p).bench b).face = ([], [], (s.bench b).state.released) := State.face_releaseAll _ hb hl

theorem State.zeroed_bench_of_not_mem {b : Nat} (hb : b ∉ s.arcBenches p) : (s.zeroed p).bench b = s.bench b :=
  State.bench_foldl_modBench_of_not_mem hb _

end

/-! ### The statement -/

/-- Settles O38, packet by packet; the end of the zeroing goes through the state in which CLOSE is staged. -/
theorem partitionsAreCreatedResizedDestroyed : Obligations.PartitionsAreCreatedResizedDestroyed := by
  refine ⟨fun s f i x ha => ⟨fun hr hp => ?_, fun st d hr => ?_⟩, fun s => ⟨?_, ?_, ?_⟩⟩
  · exact ⟨_, exec_partCreate f s, partCreate_accepted ha hr hp⟩
  · have hk := partCreate_refused ha hr
    exact ⟨_, exec_partCreate f s, (State.hears_takePkt ha).answered_of _ _ _ _ _ _ hk rfl, hk.parts, hk.ring, hk.ldg⟩
  · intro f i x ha ht hl hb p a old new h2 hm hc hf hz hs hk
    exact ⟨_, exec_partResize f s, partResize_accepted ha ⟨⟨ht, hl, hb⟩, ⟨h2, hm⟩, hc, ⟨hf, hz⟩, hs, hk⟩⟩
  · intro f i x ha
    refine ⟨fun ht hl => ⟨_, exec_partDestroy f s, partDestroy_accepted ha ht hl⟩, fun ht => ?_⟩
    have hk := partDestroy_deferred ha ht
    exact ⟨_, exec_partDestroy f s, (State.hears_takePkt ha).answered_of _ _ _ _ _ _ hk rfl, hk.parts⟩
  · intro p id h hid
    obtain ⟨hans, hvalid, hseats, hstate, hclosed, hring, hbenches, hhbm⟩ := partitionZeroed_completes h hid
    refine ⟨_, exec_partitionZeroed p s, hans, hvalid, hseats, hstate, hclosed, by rw [hring], by rw [hring],
      fun a => by rw [hhbm, State.zeroed_hbm_get], fun b hb hl => ?_,
      fun b hb => (State.bench_eq_of_benches hbenches b).trans (State.zeroed_bench_of_not_mem hb)⟩
    have hface := (congrArg Bench.face (State.bench_eq_of_benches hbenches b)).trans (State.zeroed_face hb hl)
    simp only [Bench.face, Prod.mk.injEq] at hface
    obtain ⟨hrack, hact, hst⟩ := hface
    exact ⟨hrack, hact, fun hb => by rw [hst, hb]; rfl, fun hb => by rw [hst, hb]; rfl⟩

end Sys2Proof.Machine
end

section
/-! R143, R149 to R153, R162, R163, R669: splice windows, and what a closed one puts in force (O10). -/

namespace Sys2Proof.Machine

theorem exec_spliceWindowOpen (s : State) : exec .spliceWindowOpen s = .next (settle s (spliceWindowOpenEffect s)) := rfl
theorem exec_spliceWindowClose (s : State) : exec .spliceWindowClose s = .next (settle s (spliceWindowCloseEffect s)) := rfl

/-! ### The ring and the states of the benches -/

/-- The ring, and the state of each bench. -/
def State.rig (s : State) : Ring × List BState := (s.ring, s.shows Bench.state)

theorem State.modPart_rig (s : State) (p : Nat) (f : Part → Part) : (s.modPart p f).rig = s.rig := rfl

theorem State.modBench_rig (s : State) (b : Nat) {g : Bench → Bench} (h : ∀ x, (g x).state = x.state) : (s.modBench b g).rig = s.rig :=
  congrArg (Prod.mk s.ring) (s.modBench_shows b h)

theorem State.setPhases_rig (s : State) (p step : Nat) : (s.setPhases p step).rig = s.rig := by
  refine foldl_keeps (fun t b => ?_) _ _
  split
  · exact t.modBench_rig b fun _ => rfl
  · rfl

theorem State.emptyRing_rig (s : State) (p : Nat) : (s.emptyRing p).rig = s.rig := by
  unfold State.emptyRing
  split
  · rfl
  · exact (State.modPart_rig ..).trans (foldl_keeps (fun t n => t.modBench_rig n.bench fun _ => rfl) _ _)

theorem State.setSlotPage_rig (s : State) (p k i : Nat) (m : Mem) : (s.setSlotPage p k i m).rig = s.rig :=
  s.modBench_rig _ fun _ => view_ite _ rfl rfl

theorem State.beginLoad_rig (s : State) (p k : Nat) (pages : List Nat) (kind : Nat) : (s.beginLoad p k pages kind).rig = s.rig :=
  (State.modPart_rig ..).trans (foldl_keeps (fun t i => t.setSlotPage_rig p k i _) _ _)

/-! ### A takeover (R162, R163) -/

/-- A bench takes over from the lost one (R408, R595). -/
def Bench.takesOver (x old : Bench) : Bench :=
  { x.zeroFill with state := .active, power := 0, powerMove := none, port := old.port, jobs := [], reqs := []
                    cores := List.zipWith Core.replaces x.zeroFill.cores old.cores }

/-- The new bench and the lost one have exchanged their seats, and there is no spare. -/
def State.handOver (s : State) (lost : Nat) : State :=
  let swapped := s.modRing fun r => { r.exchange (s.benchSeat lost) (s.benchSeat s.ring.spareLive) with spareLive := 0xF }
  (swapped.modBench s.ring.spareLive fun x => x.takesOver (s.bench lost)).modBench lost fun x => { x.quiet with state := .fenced }

theorem State.closeTakeover_rig (s : State) (p lost : Nat) :
    (s.closeTakeover p lost).rig = (((s.handOver lost).ringEvent 1).glueSpare lost).rig := by
  unfold State.closeTakeover
  extract_lets new k i j old s₁ s₂ s₃ s₄ s₅ s₆
  have h : s₆.rig = s₄.rig := by
    unfold s₆
    split
    · exact (State.emptyRing_rig ..).trans (State.setPhases_rig ..)
    · rfl
  exact (view_ite _ (State.beginLoad_rig ..) (State.modPart_rig ..)).trans h

section
variable {s : State} {lost : Nat}

theorem State.handOver_spare (hs : s.ring.spareLive < s.benches.length) (hne : s.ring.spareLive ≠ lost) :
    ((s.handOver lost).bench s.ring.spareLive).state = .active := by
  rw [State.handOver, State.bench_modBench_ne _ _ _ _ (Ne.symm hne)]
  exact congrArg Bench.state (State.bench_modBench _ _ _ hs)

theorem State.handOver_lost (hl : lost < s.benches.length) : ((s.handOver lost).bench lost).state = .fenced := by
  rw [State.handOver, State.bench_modBench _ _ _ (by simpa using hl)]

end

/-! ### What no change does to the window -/

/-- The open window, and the beat of the last one. -/
def State.windows (s : State) : Option Window × W64 := (s.ring.window, s.ring.lastSplice)

section
variable (s : State)

@[simp] theorem State.modGlue_windows (f : Glue → Glue) : (s.modGlue f).windows = s.windows := rfl
@[simp] theorem State.makeSpare_windows (b : Nat) : (s.makeSpare b).windows = s.windows := rfl
@[simp] theorem State.finish_windows (id : PktId) (p status detail r0 r1 r2 : Nat) :
    (s.finish id p status detail r0 r1 r2).windows = s.windows := rfl
@[simp] theorem State.refuse_windows (id : PktId) (p status detail : Nat) : (s.refuse id p status detail).windows = s.windows := rfl
@[simp] theorem State.raise_windows (key n : Nat) : (s.raise key n).windows = s.windows := by simp [State.windows]
@[simp] theorem State.ringEvent_windows (n : Nat) : (s.ringEvent n).windows = s.windows := State.raise_windows ..
@[simp] theorem State.glueEvent_windows (n : Nat) : (s.glueEvent n).windows = s.windows := State.raise_windows ..
@[simp] theorem State.writeLocked_windows (off fn : Nat) : (s.writeLocked off fn).windows = s.windows := State.glueEvent_windows ..

end

section
variable {s : State}

/-- R725: an update that is decided at once completes its packet, or sets an event bit, or makes its bench the spare. -/
theorem State.decideJob_windows {t : State} {j : GlueJob} (h : s.decideJob j = some t) : t.windows = s.windows := by
  suffices hs : ∀ t ∈ s.decideJob j, t.windows = s.windows from hs t h
  unfold State.decideJob
  extract_lets n same left
  split
  case h_1 => (repeat' split) <;> simp
  case h_2 => (repeat' split) <;> simp
  case h_3 =>
    split
    · simp
    · (repeat' split) <;> simp

theorem State.glueStart_windows (s : State) (n : Nat) : (s.glueStart n).windows = s.windows := by
  induction n generalizing s with
  | zero => rfl
  | succ n ih =>
    unfold State.glueStart
    split
    · rfl
    · split
      next h => exact (ih _).trans ((State.modGlue_windows ..).trans (State.decideJob_windows h))
      next => split <;> rfl

theorem State.glueSpare_windows (s : State) (b : Nat) : (s.glueSpare b).windows = s.windows :=
  view_ite _ (State.glueStart_windows ..) rfl

theorem State.abortAndDrop_windows (s : State) (p detail : Nat) : (s.abortAndDrop p detail).windows = s.windows :=
  view_ite _ rfl (State.unload_view (view := State.windows) (fun _ _ _ => rfl) (fun _ _ _ => rfl) s p)

theorem State.windows_of_rig {t : State} (h : t.rig = s.rig) : t.windows = s.windows :=
  congrArg (fun r : Ring × List BState => (r.1.window, r.1.lastSplice)) h

theorem State.foldl_modBench_windows {α : Type} (b : α → Nat) (g : Bench → Bench) (s : State) (xs : List α) :
    (xs.foldl (fun s x => s.modBench (b x) g) s).windows = s.windows :=
  foldl_keeps (f := fun s x => State.modBench s (b x) g) (fun _ _ => rfl) xs s

theorem State.closeCreate_windows (s : State) (p : Nat) (id : Option PktId) : (s.closeCreate p id).windows = s.windows := by
  unfold State.closeCreate
  extract_lets s₁ s₂
  have h : s₁.windows = s.windows := State.foldl_modBench_windows (fun b => b) ..
  cases id <;> exact h

theorem State.closeResize_windows (s : State) (p first count : Nat) (released : List Nat) (id : Option PktId) :
    (s.closeResize p first count released id).windows = s.windows := by
  unfold State.closeResize
  extract_lets s₁ s₂ s₃
  have h₁ : s₁.windows = s.windows := foldl_keeps (f := fun t k => State.modBench t (t.seatBench k) Bench.release) (fun _ _ => rfl) _ _
  have h₃ : s₃.windows = s₁.windows := State.foldl_modBench_windows (fun b => b) ..
  cases id <;> exact h₃.trans h₁

theorem State.closeTakeover_windows (s : State) (p lost : Nat) : (s.closeTakeover p lost).windows = s.windows :=
  (State.windows_of_rig (s.closeTakeover_rig p lost)).trans ((State.glueSpare_windows ..).trans (State.ringEvent_windows ..))

theorem State.closeBypass_windows (s : State) (p lost : Nat) : (s.closeBypass p lost).windows = s.windows := by
  unfold State.closeBypass
  extract_lets k
  split
  · exact s.abortAndDrop_windows p 0x6B
  · rw [State.windows_of_rig (State.beginLoad_rig ..), State.ringEvent_windows, State.windows_of_rig (State.emptyRing_rig ..)]
    rfl

theorem State.closeChange_windows (s : State) (r : SpliceReq) : (s.closeChange r).windows = s.windows := by
  unfold State.closeChange
  split
  · exact s.closeCreate_windows ..
  · exact s.closeResize_windows ..
  · exact s.closeTakeover_windows ..
  · exact s.closeBypass_windows ..
  · rfl

end

/-! ### A window over (R149 to R153) -/

/-- The window is closed, and this beat is that of the last one. -/
def State.shut (s : State) : State := s.modRing fun r => { r with window := none, lastSplice := s.beat.count }

/-- SPLICE_DONE, and the switches are those of the arcs now in force. -/
def State.spliceDone (s : State) : State :=
  let t := s.ringEvent 0
  t.modRing fun r => { r with switches := t.switchesNow }

section
variable {s t : State} {w : Window}

theorem spliceWindowOpenEffect_of_stopped (hg : s.beat.gateOpen = true) (hw : s.ring.window = none)
    (hq : s.ring.waiting.filter s.stopped ≠ []) :
    spliceWindowOpenEffect s = { s with ring := { s.ring with
      waiting := s.ring.waiting.filter fun q => !s.stopped q
      window := some { closeAt := s.beat.periods + 64, reqs := s.ring.waiting.filter s.stopped } } } := by
  rw [spliceWindowOpenEffect, if_neg]
  · rfl
  · simpa [hg, hw, List.isEmpty_iff] using hq

theorem spliceWindowCloseEffect_of_over (hw : s.ring.window = some w) (hc : w.closeAt ≤ s.beat.periods) :
    spliceWindowCloseEffect s = (w.reqs.foldl State.closeChange s.shut).spliceDone := by
  simp only [spliceWindowCloseEffect, hw]
  rw [if_neg (Nat.not_lt.2 hc)]
  rfl

/-- A window over one change. -/
theorem spliceWindowCloseEffect_of_single {r : SpliceReq} (hw : s.ring.window = some w) (hc : w.closeAt ≤ s.beat.periods)
    (hr : w.reqs = [r]) : spliceWindowCloseEffect s = (s.shut.closeChange r).spliceDone := by
  rw [spliceWindowCloseEffect_of_over hw hc, hr]
  rfl

theorem State.AnswersMore.switchesNow (h : s.AnswersMore t) : t.switchesNow = s.switchesNow := by
  obtain ⟨⟨_, _, _, rfl⟩, -⟩ := h
  rfl

/-- Of the ring, SPLICE_DONE leaves all but its event bits, of which none is lost, and its switches. -/
theorem State.spliceDone_cases (s : State) : ∃ e r, s.spliceDone =
    { s with ring := { s.ring with event := e, switches := s.switchesNow }, raised := r } ∧
      e.getLsbD 0 = true ∧ ∀ n, s.ring.event.getLsbD n = true → e.getLsbD n = true := by
  obtain ⟨r, h⟩ := (s.modRing fun r => { r with event := setBit r.event 0 }).raise_eq 1 0
  refine ⟨_, r, ?_, getLsbD_setBit_self s.ring.event (by decide), fun n hn => getLsbD_setBit_of_set 0 hn⟩
  rw [State.spliceDone, State.ringEvent, h]
  rfl

/-- What a window over leaves, once its changes are in force. -/
theorem spliceWindowClose_over (hw : s.ring.window = some w) (hc : w.closeAt ≤ s.beat.periods) :
    let t := settle s (spliceWindowCloseEffect s)
    t.ring.window = none ∧ t.ring.lastSplice = s.beat.count ∧ t.ring.event.getLsbD 0 = true ∧ t.ring.switches = t.switchesNow := by
  intro t
  have hk : State.AnswersMore _ t := .settle s (spliceWindowCloseEffect s)
  have hwin : (w.reqs.foldl State.closeChange s.shut).windows = s.shut.windows := foldl_keeps State.closeChange_windows _ _
  obtain ⟨hnone, hlast⟩ := Prod.mk.inj hwin
  obtain ⟨e, r, hd, he, -⟩ := (w.reqs.foldl State.closeChange s.shut).spliceDone_cases
  rw [hk.ring, hk.switchesNow, spliceWindowCloseEffect_of_over hw hc, hd]
  exact ⟨hnone, hlast, he, rfl⟩

end

/-! ### A creation in force (R143, R153, R669) -/

/-- The state of a bench as its partition takes it. -/
def BState.joined (z : BState) : BState := if z = .unassigned then .active else z

theorem BState.joined_joined (z : BState) : z.joined.joined = z.joined := by cases z <;> rfl

/-- The partition's benches join its ring. -/
def State.joinAll (s : State) (bs : List Nat) : State :=
  bs.foldl (fun s b => s.modBench b fun x => { x with state := if x.state = .unassigned then .active else x.state, port := {} }) s

section
variable {s : State} {w : Window} {p n b : Nat} {id : PktId} {bs : List Nat}

theorem State.state_joinAll_of_mem (hb : b ∈ bs) (hl : b < s.benches.length) :
    ((s.joinAll bs).bench b).state = (s.bench b).state.joined :=
  State.shown_foldl_modBench_of_mem (f := Bench.state) (h := BState.joined) (fun _ => rfl) BState.joined_joined hb s hl

theorem State.bench_joinAll_of_not_mem (hb : b ∉ bs) : (s.joinAll bs).bench b = s.bench b :=
  State.bench_foldl_modBench_of_not_mem hb s

theorem State.joinAll_view {β : Type} {view : State → β} (h : ∀ s b f, view (State.modBench s b f) = view s) (s : State) (bs : List Nat) :
    view (s.joinAll bs) = view s := foldl_keeps (fun _ _ => h ..) bs s

theorem State.joinAll_stores (s : State) (bs : List Nat) : (s.joinAll bs).shows Bench.stores = s.shows Bench.stores :=
  foldl_keeps (fun t b => t.modBench_shows b fun _ => rfl) bs s

/-- The partition is valid and idle, and its benches have joined its ring. -/
def State.create (s : State) (p : Nat) : State :=
  (s.joinAll (s.arcBenches p)).modPart p fun x => { x with valid := true, state := .idle }

theorem State.part_create (hp : p < s.parts.length) : (s.create p).part p = { s.part p with valid := true, state := .idle } := by
  have hparts : (s.joinAll (s.arcBenches p)).parts = s.parts := State.joinAll_view (view := State.parts) (fun _ _ _ => rfl) ..
  rw [State.create, State.part_modPart _ _ _ (by rw [hparts]; exact hp), State.part_eq_of_parts hparts]

theorem State.closeCreate_eq (s : State) (p : Nat) (id : PktId) : s.closeCreate p (some id) =
    (s.create p).finish id p stOK 0 ((s.create p).part p).stream.id ((s.create p).part p).hbmBase := rfl

theorem spliceWindowCloseEffect_of_create (hw : s.ring.window = some w) (hc : w.closeAt ≤ s.beat.periods)
    (hr : w.reqs = [{ part := p, change := .create, id := some id, notBefore := n }]) (hp : p < s.parts.length) : ∃ ring r,
      spliceWindowCloseEffect s =
        { (s.shut.create p).finish id p stOK 0 (s.part p).stream.id (s.part p).hbmBase with ring := ring, raised := r } := by
  obtain ⟨e, r, hd, -⟩ := (s.shut.closeCreate p (some id)).spliceDone_cases
  have hpart : (s.shut.create p).part p = { s.part p with valid := true, state := .idle } := State.part_create hp
  have hx : spliceWindowCloseEffect s = (s.shut.closeCreate p (some id)).spliceDone := spliceWindowCloseEffect_of_single hw hc hr
  rw [hd, State.closeCreate_eq, hpart] at hx
  exact ⟨_, r, hx⟩

theorem spliceWindowClose_creates (hw : s.ring.window = some w) (hc : w.closeAt ≤ s.beat.periods)
    (hr : w.reqs = [{ part := p, change := .create, id := some id, notBefore := n }]) (hp : p < s.parts.length) (hid : s.hears id) :
    let t := settle s (spliceWindowCloseEffect s)
    (t.part p).valid = true ∧ (t.part p).state = .idle ∧
      (∀ b ∈ s.arcBenches p, (s.bench b).state = .unassigned → b < s.benches.length → (t.bench b).state = .active) ∧
      (∀ b, b ∉ s.arcBenches p → (t.bench b).state = (s.bench b).state) ∧
      t.answered id p 0 0 (s.part p).stream.id (s.part p).hbmBase 0 ∧ sameBytes s t := by
  intro t
  have hk : State.AnswersMore _ t := .settle s (spliceWindowCloseEffect s)
  obtain ⟨ring, r, hx⟩ := spliceWindowCloseEffect_of_create hw hc hr hp
  have hpart : t.part p = { s.part p with valid := true, state := .idle } :=
    (State.part_eq_of_parts (hk.parts.trans (congrArg State.parts hx)) p).trans (State.part_create (s := s.shut) hp)
  have hbench (b : Nat) : t.bench b = (s.shut.joinAll (s.arcBenches p)).bench b :=
    State.bench_eq_of_benches (hk.benches.trans (congrArg State.benches hx)) b
  have hfns : (s.shut.create p).fns = s.fns := State.joinAll_view (view := State.fns) (fun _ _ _ => rfl) s.shut (s.arcBenches p)
  rw [hpart]
  refine ⟨rfl, rfl, fun b hb hst hl => ?_, fun b hb => ?_,
    (hid.of_fns hfns).answered_of _ _ _ _ _ _ hk (by rw [hx]; rfl), (sameBytes.of_stores ?_ ?_).of_answersMore hk⟩
  · rw [hbench, State.state_joinAll_of_mem (s := s.shut) hb hl]
    exact congrArg BState.joined hst
  · rw [hbench, State.bench_joinAll_of_not_mem hb]
    rfl
  · rw [hx]
    exact State.joinAll_view (view := State.hbm) (fun _ _ _ => rfl) s.shut (s.arcBenches p)
  · rw [hx]
    exact State.joinAll_stores s.shut (s.arcBenches p)

end

/-! ### A takeover in force (R162, R163) -/

section
variable {s : State} {w : Window} {p n lost : Nat} {id : Option PktId}

theorem spliceWindowClose_takesOver (hw : s.ring.window = some w) (hc : w.closeAt ≤ s.beat.periods)
    (hr : w.reqs = [{ part := p, change := .takeover lost, id := id, notBefore := n }]) (hj : s.glue.jobs = [])
    (hl : lost < s.benches.length) (hs : s.ring.spareLive < s.benches.length) (hne : s.ring.spareLive ≠ lost) :
    let t := settle s (spliceWindowCloseEffect s)
    t.ring.seatMap = (s.ring.exchange (s.benchSeat lost) (s.benchSeat s.ring.spareLive)).seatMap ∧ t.ring.spareLive = 0xF ∧
      (t.bench s.ring.spareLive).state = .active ∧ (t.bench lost).state = .fenced ∧ t.ring.event.getLsbD 1 = true := by
  intro t
  have hk : State.AnswersMore _ t := .settle s (spliceWindowCloseEffect s)
  have hg : (s.shut.handOver lost).GluedOnly (((s.shut.handOver lost).ringEvent 1).glueSpare lost) :=
    (State.GluedOnly.ringEvent ..).trans (State.glueSpare_gluedOnly (by rw [State.ringEvent, State.raise_glue]; exact hj) lost)
  have hev : (((s.shut.handOver lost).ringEvent 1).glueSpare lost).ring.event.getLsbD 1 = true :=
    (State.glueSpare_gluedOnly (by rw [State.ringEvent, State.raise_glue]; exact hj) lost).event (State.ringEvent_self _ (by decide))
  obtain ⟨hring, hstates⟩ := Prod.mk.inj (s.shut.closeTakeover_rig p lost)
  obtain ⟨e, r, hd, -, hold⟩ := (s.shut.closeTakeover p lost).spliceDone_cases
  have hx : spliceWindowCloseEffect s = (s.shut.closeTakeover p lost).spliceDone := spliceWindowCloseEffect_of_single hw hc hr
  have hstate (b : Nat) : (t.bench b).state = ((s.shut.handOver lost).bench b).state := by
    rw [State.bench_eq_of_benches hk.benches, hx, hd, ← State.bench_eq_of_benches hg.benches]
    exact State.shown_of_shows hstates b
  rw [hk.ring, hstate, hstate, hx, hd]
  refine ⟨?_, ?_, State.handOver_spare hs hne, State.handOver_lost hl, hold 1 (by rw [hring]; exact hev)⟩
  · exact (congrArg Ring.seatMap hring).trans hg.seatMap
  · exact (congrArg Ring.spareLive hring).trans hg.spareLive

end

/-! ### The statement -/

/-- Settles O10: each change's effect is seen through the window over it, whose close keeps benches, partitions and completions. -/
theorem spliceWindowsPutChangesInForce : Obligations.SpliceWindowsPutChangesInForce := by
  refine ⟨fun s => ⟨fun hg hw hq => ?_, fun w hw hc => ⟨_, exec_spliceWindowClose s, spliceWindowClose_over hw hc⟩⟩, ?_, ?_⟩
  · rw [exec_spliceWindowOpen, spliceWindowOpenEffect_of_stopped hg hw hq]
  · intro s w p n id hw hc hr hp hf he
    exact ⟨_, exec_spliceWindowClose s, spliceWindowClose_creates hw hc hr hp ⟨hf, he⟩⟩
  · intro s w p n lost id hw hc hr hj hl hs hne
    exact ⟨_, exec_spliceWindowClose s, spliceWindowClose_takesOver hw hc hr hj hl hs hne⟩

end Sys2Proof.Machine
end

section
/-! R226, R229: requantisation rounds to the nearest, half to even, and saturates (O16). -/

namespace Sys2Proof.Machine

/-! ### Rounding (R226) -/

theorem roundShift_of_nonpos (acc : Int) {s : Int} (hs : s ≤ 0) : roundShift acc s = acc * 2 ^ (-s).toNat := by
  simp [roundShift, hs]

/-- Above zero the quotient by 2^s is rounded, by its remainder against half of 2^s. -/
theorem roundShift_of_pos (acc : Int) {s : Int} (hs : 0 < s) :
    ∃ h q r : Int, 2 ^ s.toNat = 2 * h ∧ acc = q * (2 * h) + r ∧ 0 ≤ r ∧ r < 2 * h ∧
      roundShift acc s = if r > h ∨ (r = h ∧ q % 2 = 1) then q + 1 else q := by
  have hd : (2 : Int) ^ s.toNat = 2 * 2 ^ (s.toNat - 1) := by rw [← pow_succ', Nat.sub_add_cancel (by omega)]
  have hpos : (0 : Int) < 2 * 2 ^ (s.toNat - 1) := by positivity
  refine ⟨2 ^ (s.toNat - 1), acc / (2 * 2 ^ (s.toNat - 1)), acc % (2 * 2 ^ (s.toNat - 1)), hd, (Int.ediv_mul_add_emod _ _).symm,
    Int.emod_nonneg _ hpos.ne', Int.emod_lt_of_pos _ hpos, ?_⟩
  simp [roundShift, not_le.2 hs, hd, Int.emod_def, mul_comm]

/-- Twice the distance of a multiple of 2^s from the value is at most 2^s, and where it is 2^s the multiple is even. -/
theorem roundShift_nearest (acc : Int) {s : Int} (hs : 0 < s) :
    2 * |roundShift acc s * 2 ^ s.toNat - acc| ≤ 2 ^ s.toNat ∧
      (2 * |roundShift acc s * 2 ^ s.toNat - acc| = 2 ^ s.toNat → roundShift acc s % 2 = 0) := by
  obtain ⟨h, q, r, hd, hacc, h0, hr, hround⟩ := roundShift_of_pos acc hs
  rw [hround, hd]
  split
  next hup =>
    have hdist : |(q + 1) * (2 * h) - acc| = 2 * h - r := by
      rw [hacc, show (q + 1) * (2 * h) - (q * (2 * h) + r) = 2 * h - r by ring, abs_of_pos (by omega)]
    rw [hdist]
    omega
  next hdown =>
    have hdist : |q * (2 * h) - acc| = r := by
      rw [hacc, show q * (2 * h) - (q * (2 * h) + r) = -r by ring, abs_neg, abs_of_nonneg h0]
    rw [hdist]
    omega

/-! ### Saturation (R226, R229) -/

theorem requantise_eq (acc s : Int) :
    requantise acc s = (max (-32768) (min 32767 (roundShift acc s)),
      if -32768 ≤ roundShift acc s ∧ roundShift acc s ≤ 32767 then 0 else 1) := by
  unfold requantise
  extract_lets v
  by_cases hhi : v > 32767
  · rw [if_pos hhi, if_neg (by omega), min_eq_left hhi.le, max_eq_right (by decide)]
  · rw [if_neg hhi, min_eq_right (not_lt.1 hhi)]
    by_cases hlo : v < -32768
    · rw [if_pos hlo, if_neg (by omega), max_eq_left hlo.le]
    · rw [if_neg hlo, if_pos (by omega), max_eq_right (not_lt.1 hlo)]

/-- Settles O16: the quotient goes up where the remainder is above half, or is half and the quotient odd. -/
theorem requantiseRoundsHalfToEvenAndSaturates : Obligations.RequantiseRoundsHalfToEvenAndSaturates := fun acc s =>
  ⟨roundShift_of_nonpos acc, roundShift_nearest acc, requantise_eq acc s⟩

end Sys2Proof.Machine
end

section
/-! R222: accumulators are balanced residues modulo 2^64 (O17). -/

namespace Sys2Proof.Machine

theorem accOf_eq_bmod (v : Int) : accOf v = v.bmod (2 ^ 64) := by
  have h0 : 0 ≤ v % 18446744073709551616 := Int.emod_nonneg _ (by decide)
  simp only [accOf, signedOf, Int.bmod_def]
  split <;> split <;> omega

/-- A term may be added before or after the reduction. -/
theorem accOf_accOf_add (v x : Int) : accOf (accOf v + x) = accOf (v + x) := by
  simp only [accOf_eq_bmod, Int.bmod_add_bmod]

theorem accOf_add_right_comm (a x y : Int) : accOf (accOf (a + x) + y) = accOf (accOf (a + y) + x) := by
  rw [accOf_accOf_add, accOf_accOf_add, add_right_comm]

/-- Settles O17: an accumulator is the balanced residue of its sum, and two terms may be exchanged. -/
theorem accumulationIsModuloTwoToThe64 : Obligations.AccumulationIsModuloTwoToThe64 := by
  refine ⟨fun v => ?_, fun xs ys h => h.foldl_eq' (fun x _ y _ a => accOf_add_right_comm a x y) 0⟩
  rw [accOf_eq_bmod]
  exact ⟨Int.le_bmod (by decide), Int.bmod_lt (by decide), Int.dvd_bmod_sub_self⟩

end Sys2Proof.Machine
end

section
/-! R397, R403, R494, R676, R677: what the end of a task leaves: its record, its completion, and quiet engines (O28). -/

namespace Sys2Proof.Machine

/-- Only a partition that the device has runs a task. -/
theorem State.part_lt_of_task {s : State} {p : Nat} {t : Task} (h : (s.part p).task = some t) : p < s.parts.length :=
  State.part_lt_of (f := Part.task) (by rw [h]; exact Option.some_ne_none _)

/-! ### The record of a task in the stage (R486, R493, R494) -/

theorem mem_stageInsert {e y : StageEnt} {xs : List StageEnt} : y ∈ stageInsert e xs ↔ y = e ∨ y ∈ xs := by
  simp only [stageInsert, List.mem_append, List.mem_cons, List.mem_filter, Bool.not_eq_true']
  cases (decide (y.at_ = e.at_) && decide (e.part < y.part)) <;> simp [or_comm]

section
variable (s : State) (p : Nat)

/-- The stage holds a DECISION entry of partition p with the number n in its stream. -/
def State.Recorded (n : Nat) : Prop := ∃ e ∈ s.ldg.stage, e.part = p ∧ e.decision = true ∧ e.seq = n

theorem State.recorded_stageRaw (body : Bytes) : (s.stageRaw p 2 body).Recorded p (s.part p).stream.nextSeq :=
  ⟨_, mem_stageInsert.2 (.inl rfl), rfl, rfl, rfl⟩

variable {s p}

theorem State.Recorded.stageSignature {n : Nat} (h : s.Recorded p n) : (s.stageSignature p).Recorded p n := by
  obtain ⟨e, he, hfields⟩ := h
  exact ⟨e, mem_stageInsert.2 (.inr he), hfields⟩

theorem State.Recorded.of_ldg {t : State} {n : Nat} (h : s.Recorded p n) (hl : t.ldg = s.ldg) : t.Recorded p n := by
  rwa [State.Recorded, hl]

end

section
variable (s : State) (p : Nat) (body : Bytes)

/-- A task's entry joins the stage, unless it is discarded, and may end its bundle (R490, R502). -/
def State.stageTask : State :=
  if s.discards p then s.dropEntry
  else if ((s.stageRaw p 2 body).part p).stream.decisions = 256 then (s.stageRaw p 2 body).stageSignature p else s.stageRaw p 2 body

theorem State.stageTask_staged : s.Staged (s.stageTask p body) p := by
  unfold State.stageTask
  split
  · exact State.dropEntry_staged _ p
  · split
    · exact (State.stageRaw_staged _ p 2 _).trans (State.stageSignature_staged _ p)
    · exact State.stageRaw_staged _ p 2 _

/-- A given back reservation is part of the ledger. -/
theorem State.unreserve_staged : s.Staged s.unreserve p := .modLdg s p rfl

theorem State.recorded_stageTask (h : s.discards p = false) : (s.stageTask p body).Recorded p (s.part p).stream.nextSeq := by
  rw [State.stageTask, if_neg (by rw [h]; exact Bool.false_ne_true)]
  split
  · exact (State.recorded_stageRaw s p body).stageSignature
  · exact State.recorded_stageRaw s p body

end

/-! ### The completion of a task (R676, R677) -/

/-- Completion c of task t on partition p, for an end with the given status, detail and RESULT1. -/
structure Compl.OfTask (c : Compl) (t : Task) (p outcome status detail r1 : Nat) : Prop where
  id : c.id = t.id
  part : c.part = p
  status : status ≠ 0 → c.status = status
  detail : c.detail = detail
  r1 : outcome ≠ 0 → c.r1 = BitVec.ofNat 64 r1
  ends : c.ends = (outcome != 0)

/-- A task's end stages its record, and then posts its completion. -/
theorem State.endTask_cases (s : State) (p : Nat) (t : Task) (outcome status detail r1 : Nat) :
    ∃ body c, s.endTask p t outcome status detail r1 true = (s.unreserve.stageTask p body).post c ∧ c.OfTask t p outcome status detail r1 := by
  refine ⟨_, _, rfl, rfl, rfl, fun h => ?_, rfl, fun h => ?_, rfl⟩
  · simp only [h, if_false, decide_false, Bool.false_and, Bool.false_eq_true]
  · simp only [h, if_false]

/-- A posted completion of a function that has not been reset is in its window. -/
theorem State.hears.mem_post {s : State} {c : Compl} (h : s.hears c.id) : c ∈ ((s.post c).fn c.id.f).compl := by
  obtain ⟨hf, he⟩ := h
  rw [State.post, State.fn_modFn _ _ _ hf, if_pos he]
  exact List.mem_append_right _ (List.mem_singleton.2 rfl)

theorem State.AnswersMore.foldl {α : Type} {f : State → α → State} (h : ∀ (s : State) (a : α), s.AnswersMore (f s a)) (xs : List α)
    (s : State) : s.AnswersMore (xs.foldl f s) := by
  induction xs generalizing s with
  | nil => exact .refl s
  | cons x xs ih => exact (h s x).trans (ih _)

/-! ### Quiet engines (R397) -/

/-- No queue of the bench has a command in work. -/
def Bench.Still (x : Bench) : Prop := ∀ c q, ((x.core c).queue q).inflight = []

theorem Bench.core_default (c : Nat) : ({} : Bench).core c = {} := by
  rw [Bench.core, List.getD, List.getElem?_replicate]
  split <;> rfl

theorem Bench.still_default : ({} : Bench).Still := fun c q => by
  rw [Bench.core_default]
  exact (Core.atStart_default q).2

theorem Core.inflight_quiet (k : Core) (q : Nat) : (k.quiet.queue q).inflight = [] :=
  getD_map_of_forall (P := fun y : Queue => y.inflight = []) (fun _ => rfl) rfl _ q

theorem Bench.still_quiet (x : Bench) : x.quiet.Still := fun c =>
  getD_map_of_forall (P := fun k : Core => ∀ q, (k.queue q).inflight = []) Core.inflight_quiet (fun q => (Core.atStart_default q).2) _ c

section
variable {s t : State} {p b : Nat}

theorem State.modArc_view {β : Type} {view : State → β} (h : ∀ s b f, view (State.modBench s b f) = view s) (s : State) (p : Nat)
    (f : Bench → Bench) : view (s.modArc p f) = view s := foldl_keeps (fun _ _ => h ..) _ s

theorem State.still_modArc_quiet (hb : b ∈ s.arcBenches p) : ((s.modArc p Bench.quiet).bench b).Still := by
  by_cases hl : b < s.benches.length
  · exact of_eq_true (State.shown_foldl_modBench_of_mem (f := Bench.Still) (h := fun _ => True) (fun x => eq_true x.still_quiet)
      (fun _ => rfl) hb s hl)
  · have hlen : (s.modArc p Bench.quiet).benches.length = s.benches.length :=
      foldl_keeps (view := fun s : State => s.benches.length) (fun _ _ => List.length_modify ..) _ s
    rw [State.bench, List.getD_eq_default _ _ (by omega)]
    exact Bench.still_default

theorem State.modArc_quiet_stores (s : State) (p : Nat) : (s.modArc p Bench.quiet).shows Bench.stores = s.shows Bench.stores :=
  foldl_keeps (view := State.shows Bench.stores) (fun s b => s.modBench_shows b (g := Bench.quiet) fun _ => rfl) _ s

theorem State.Staged.fns (h : s.Staged t p) : t.fns = s.fns := by obtain ⟨⟨_, _, _, rfl, -, -⟩, -⟩ := h; rfl
theorem State.Staged.benches (h : s.Staged t p) : t.benches = s.benches := by obtain ⟨⟨_, _, _, rfl, -, -⟩, -⟩ := h; rfl
theorem State.Staged.hbm (h : s.Staged t p) : t.hbm = s.hbm := by obtain ⟨⟨_, _, _, rfl, -, -⟩, -⟩ := h; rfl
theorem State.Staged.length_parts (h : s.Staged t p) : t.parts.length = s.parts.length := by
  obtain ⟨⟨_, _, _, rfl, -, hl⟩, -⟩ := h; exact hl

/-- A staged entry moves no arc. -/
theorem State.Staged.arcBenches (h : s.Staged t p) : t.arcBenches p = s.arcBenches p := by
  obtain ⟨⟨_, _, _, rfl, -, -⟩, ⟨_, hz, -, -⟩, -⟩ := h
  simp only [State.arcBenches, State.arcSeats, hz]
  rfl

theorem State.AnswersMore.arcBenches (h : s.AnswersMore t) : t.arcBenches p = s.arcBenches p := by
  obtain ⟨⟨_, _, _, rfl⟩, -⟩ := h
  rfl

end

/-! ### The partition's task has ended -/

/-- State w is s with the record and the completion of task t of partition p, and answers to packets. -/
structure State.Booked (s : State) (p outcome status detail r1 : Nat) (t : Task) (w : State) : Prop where
  part : ∃ z, w.part p = { s.part p with stream := z }
  length_parts : w.parts.length = s.parts.length
  arc : w.arcBenches p = s.arcBenches p
  benches : w.benches = s.benches
  hbm : w.hbm = s.hbm
  answer : s.hears t.id → ∃ c ∈ (w.fn t.id.f).compl, c.OfTask t p outcome status detail r1
  record : s.discards p = false → w.Recorded p (s.part p).stream.nextSeq

/-- What the end of task t of partition p leaves. -/
structure State.Closed (s : State) (p outcome status detail r1 : Nat) (t : Task) (final : PState) (u : State) : Prop where
  task : (u.part p).task = none
  stop : (u.part p).stop = .none
  state : (u.part p).state = final
  ckp : (u.part p).ckp = (s.part p).ckp
  answer : s.hears t.id → ∃ c ∈ (u.fn t.id.f).compl, c.OfTask t p outcome status detail r1
  record : s.discards p = false → u.Recorded p (s.part p).stream.nextSeq
  still : ∀ b ∈ s.arcBenches p, (u.bench b).Still
  bytes : sameBytes s u

/-- Partition p with a task on it that has ended (R397, R403). -/
def Part.ended (t : Task) (final : PState) (x : Part) : Part :=
  { x with task := none, stop := .none, state := final, preempts := [], classBT := t.classBT, mask := t.mask
           shiftGates := min (t.shift / 16) 0xFFFF }

theorem State.length_parts_quietRun (s : State) (p : Nat) : (s.quietRun p).parts.length = s.parts.length :=
  (List.length_modify ..).trans (congrArg List.length (State.modArc_view (view := State.parts) (fun _ _ _ => rfl) s p _))

section
variable {s u v w : State} {p outcome status detail r1 : Nat} {t : Task} {final : PState}

theorem State.part_quietRun (hp : p < s.parts.length) :
    (s.quietRun p).part p = { s.part p with legs := [], nextLeg := 0, circle := [], ringStop := false, after := .none } := by
  have hparts : (s.modArc p Bench.quiet).parts = s.parts := State.modArc_view (view := State.parts) (fun _ _ _ => rfl) s p _
  rw [State.quietRun, State.part_modPart _ _ _ (hparts ▸ hp), State.part_eq_of_parts hparts]

theorem State.Closed.of_answersMore (h : s.Closed p outcome status detail r1 t final u) (k : u.AnswersMore v) :
    s.Closed p outcome status detail r1 t final v := by
  obtain ⟨⟨_, _, _, rfl⟩, hc⟩ := k
  refine { h with answer := fun hid => ?_ }
  obtain ⟨c, hm, ht⟩ := h.answer hid
  exact ⟨c, hc _ c hm, ht⟩

theorem State.booked_of_answersMore {body : Bytes} {c : Compl} (hc : c.OfTask t p outcome status detail r1)
    (hw : ((s.unreserve.stageTask p body).post c).AnswersMore w) : s.Booked p outcome status detail r1 t w := by
  have hk : s.Staged _ p := (State.unreserve_staged s p).trans (State.stageTask_staged s.unreserve p body)
  have hparts : w.parts = (s.unreserve.stageTask p body).parts := hw.parts
  have harc : w.arcBenches p = _ := hw.arcBenches.trans (hk.arcBenches (p := p))
  exact {
    part := by
      obtain ⟨-, ⟨z, hz, -, -⟩, -⟩ := hk
      exact ⟨z, (State.part_eq_of_parts hparts p).trans hz⟩
    length_parts := (congrArg List.length hparts).trans hk.length_parts
    arc := harc
    benches := hw.benches.trans hk.benches
    hbm := hw.hbm.trans hk.hbm
    answer := fun hid => by
      have hm := State.hears.mem_post (s := s.unreserve.stageTask p body) (c := c) (hc.id ▸ hid.of_fns hk.fns)
      exact ⟨c, hw.2 _ c (hc.id ▸ hm), hc⟩
    record := fun hr => (State.recorded_stageTask s.unreserve p body hr).of_ldg hw.ldg }

theorem State.Booked.of_gpio {d : Gpio} (h : ({ s with gpio := d } : State).Booked p outcome status detail r1 t w) :
    s.Booked p outcome status detail r1 t w := { h with }

/-- Record and completion come first, then the answers of PART_PREEMPT; then the engines are quiet and the task is gone. -/
theorem State.closeTask_cases (outcome status detail r1 : Nat) (final : PState) (ht : (s.part p).task = some t)
    (hd : (s.part p).dropProg = false) : ∃ w t', s.Booked p outcome status detail r1 t w ∧
      s.closeTask p outcome status detail r1 true final = (w.quietRun p).modPart p (Part.ended t' final) := by
  have hp : p < s.parts.length := State.part_lt_of_task ht
  unfold State.closeTask
  split
  next h => cases h.symm.trans ht
  next t₀ h =>
    obtain rfl := Option.some.inj (h.symm.trans ht)
    extract_lets t' s₁ s₂ w u
    obtain ⟨d, hs₁⟩ : ∃ d, s₁ = { s with gpio := d } := by
      simp only [s₁]
      split <;> exact ⟨_, rfl⟩
    obtain ⟨body, c, he, hc⟩ := State.endTask_cases s₁ p t' outcome status detail r1
    have hw : s₂.AnswersMore w := .foldl (fun _ _ => .post ..) _ _
    rw [show s₂ = _ from he, hs₁] at hw
    have hbooked : s.Booked p outcome status detail r1 t₀ w := (State.booked_of_answersMore (t := t₀) { hc with } hw).of_gpio
    refine ⟨w, t', hbooked, if_neg ?_⟩
    have hlen : p < w.parts.length := hbooked.length_parts ▸ hp
    obtain ⟨z, hz⟩ := hbooked.part
    rw [show u.part p = _ from State.part_modPart _ _ _ (by rwa [State.length_parts_quietRun]), State.part_quietRun hlen, hz]
    exact ne_true_of_eq_false hd

theorem State.closeTask_closed (outcome status detail r1 : Nat) (final : PState) (ht : (s.part p).task = some t)
    (hd : (s.part p).dropProg = false) :
    s.Closed p outcome status detail r1 t final (s.closeTask p outcome status detail r1 true final) := by
  have hp : p < s.parts.length := State.part_lt_of_task ht
  obtain ⟨w, t', hw, hclose⟩ := State.closeTask_cases outcome status detail r1 final ht hd
  obtain ⟨z, hz⟩ := hw.part
  have hlen : p < w.parts.length := hw.length_parts ▸ hp
  have hpart : ((w.quietRun p).modPart p (Part.ended t' final)).part p = _ :=
    (State.part_modPart _ _ _ (by rwa [State.length_parts_quietRun])).trans (congrArg _ (State.part_quietRun hlen))
  rw [hclose]
  exact {
    task := congrArg Part.task hpart
    stop := congrArg Part.stop hpart
    state := congrArg Part.state hpart
    ckp := (congrArg Part.ckp hpart).trans (congrArg Part.ckp hz :)
    answer := fun hid => by
      have hfns : ((w.quietRun p).modPart p (Part.ended t' final)).fns = w.fns :=
        State.modArc_view (view := State.fns) (fun _ _ _ => rfl) w p _
      rw [State.fn, hfns]
      exact hw.answer hid
    record := fun hr => (hw.record hr).of_ldg (State.modArc_view (view := State.ldg) (fun _ _ _ => rfl) w p _)
    still := fun b hb => State.still_modArc_quiet (hw.arc ▸ hb)
    bytes := .of_stores ((State.modArc_view (view := State.hbm) (fun _ _ _ => rfl) w p _).trans hw.hbm)
      ((w.modArc_quiet_stores p).trans (congrArg (List.map Bench.stores) hw.benches)) }

end

end Sys2Proof.Machine
end

section
/-! R230, R397, R403, R608: the commit of a step, the end of a run at its last commit, and of an aborted task (O28). -/

namespace Sys2Proof.Machine

theorem exec_stepCommit (p : Nat) (hostOut : List Bytes) (s : State) :
    exec (.stepCommit p hostOut) s = .next (settle s (stepCommitEffect p hostOut s)) := rfl
theorem exec_taskAbortComplete (p : Nat) (s : State) :
    exec (.taskAbortComplete p) s = .next (settle s (taskAbortCompleteEffect p s)) := rfl

/-! ### The shadow counts (R230) -/

/-- The saturation counters of a core once a commit has added its shadow counts of the steps up to k. -/
def Core.satAfter (x : Core) (k : Nat) : List W32 := List.zipWith satAdd32 x.sat ((List.range 4).map (x.shadowed k))

/-- Counts of a missing core are zero, and stay so. -/
theorem Core.satAfter_default (k : Nat) : ({} : Core).sat = ({} : Core).satAfter k := rfl

theorem sat_getD_map_commitCounts (xs : List Core) (c k now : Nat) :
    ((xs.map fun y : Core => y.commitCounts k now).getD c {}).sat = (xs.getD c {}).satAfter k := by
  simp only [List.getD, List.getElem?_map]
  cases xs[c]? with
  | none => exact Core.satAfter_default k
  | some x => rfl

/-! ### The benches of a commit -/

/-- Every bench of a list without repeats is updated once. -/
theorem State.bench_foldl_modBench_of_mem {g : Bench → Bench} {b : Nat} {bs : List Nat} (hn : bs.Nodup) (hb : b ∈ bs) (s : State)
    (hl : b < s.benches.length) : (bs.foldl (fun s b => s.modBench b g) s).bench b = g (s.bench b) := by
  induction bs generalizing s with
  | nil => cases hb
  | cons c bs ih =>
    obtain ⟨hc, hn⟩ := List.nodup_cons.1 hn
    rw [List.foldl_cons]
    rcases List.mem_cons.1 hb with rfl | hb
    · rw [State.bench_foldl_modBench_of_not_mem hc, State.bench_modBench _ _ _ hl]
    · rw [ih hn hb _ (by simpa using hl), State.bench_modBench_ne _ _ _ _ (by rintro rfl; exact hc hb)]

section
variable {s : State} {p b k : Nat}

theorem State.bench_lt_of_active (h : b ∈ s.activeBenches p) : b < s.benches.length :=
  State.bench_lt_of (f := Bench.state) (by rw [of_decide_eq_true (List.mem_filter.1 h).2]; decide)

/-- A lease phase is seen by its bench's scratchpad only. -/
theorem State.setPhases_view {β : Type} {view : State → β}
    (h : ∀ (s : State) (b n : Nat), view (s.modBench b fun x => { x with spd := { x.spd with phase := n } }) = view s) (s : State) (p step : Nat) :
    view (s.setPhases p step) = view s :=
  foldl_keeps (fun t b => by split; exacts [h .., rfl]) _ s

/-- A bench whose cores' shadow counts are added. -/
def Bench.commitCounts (x : Bench) (k now : Nat) : Bench := { x with cores := x.cores.map fun y => y.commitCounts k now }

/-- The shadow counts of the partition's benches are added. -/
def State.countStep (s : State) (p k : Nat) : State :=
  (s.activeBenches p).foldl (fun u b => u.modBench b fun x => x.commitCounts k s.now) s

theorem State.countStep_stores (s : State) (p k : Nat) : (s.countStep p k).shows Bench.stores = s.shows Bench.stores :=
  foldl_keeps (view := State.shows Bench.stores) (fun u b => u.modBench_shows b (g := fun x => x.commitCounts k s.now) fun _ => rfl) _ s

theorem State.countStep_view {β : Type} {view : State → β} (h : ∀ s b f, view (State.modBench s b f) = view s) (s : State) (p k : Nat) :
    view (s.countStep p k) = view s := foldl_keeps (fun _ _ => h ..) _ s

theorem State.sat_countStep (hn : (s.activeBenches p).Nodup) (hb : b ∈ s.activeBenches p) (c : Nat) :
    ((s.countStep p k).core b c).sat = (s.core b c).satAfter k := by
  rw [State.countStep, State.core, State.bench_foldl_modBench_of_mem hn hb s (State.bench_lt_of_active hb)]
  exact sat_getD_map_commitCounts ..

end

/-! ### The commit cycle, before the clamp or the end of the run (R608) -/

/-- Partition y is x between two steps: its task is that of packet id, with n steps committed. -/
def Part.AtStep (x : Part) (id : PktId) (n : Nat) (y : Part) : Prop :=
  (y.task.map fun v => (v.id, v.step)) = some (id, n) ∧ ∃ hs z v, y = { x with hurdles := hs, stop := z, task := v }

/-- Stores and saturation counters of a bench. -/
def Bench.tally (x : Bench) : (Mem × Mem) × (Nat → List W32) := (x.stores, fun c => (x.core c).sat)

/-- State u has the benches' stores and counters, the windows and the ledger of v, and as many partitions. -/
structure State.Between (v u : State) : Prop where
  length_parts : u.parts.length = v.parts.length
  tally : u.shows Bench.tally = v.shows Bench.tally
  fns : u.fns = v.fns
  ldg : u.ldg = v.ldg

theorem State.Between.trans {s t u : State} (h : s.Between t) (k : t.Between u) : s.Between u :=
  ⟨k.length_parts.trans h.length_parts, k.tally.trans h.tally, k.fns.trans h.fns, k.ldg.trans h.ldg⟩

theorem State.Between.modPart (s : State) (p : Nat) (f : Part → Part) : s.Between (s.modPart p f) :=
  ⟨List.length_modify .., rfl, rfl, rfl⟩

theorem State.setPhases_between (s : State) (p step : Nat) : s.Between (s.setPhases p step) where
  length_parts := State.setPhases_view (view := fun s => s.parts.length) (fun _ _ _ => rfl) s p step
  tally := State.setPhases_view (fun s b _ => s.modBench_shows b fun _ => rfl) s p step
  fns := State.setPhases_view (fun _ _ _ => rfl) s p step
  ldg := State.setPhases_view (fun _ _ _ => rfl) s p step

section
variable {s : State} {p n : Nat} {id : PktId} {x : Part}

theorem State.recordStep_eq (s : State) (p k : Nat) : ∃ g : Part → Part,
    s.recordStep p k = ((s.countStep p k).modPart p g).setPhases p (k + 1) ∧ ∀ (x : Part) t, x.task = some t → x.AtStep t.id (k + 1) (g x) :=
  ⟨_, rfl, fun x t ht => ⟨by simp only [ht, Option.map_some], _, _, _, rfl⟩⟩

theorem State.recordStep_atStep (k : Nat) {t : Task} (ht : (s.part p).task = some t) :
    (s.part p).AtStep t.id (k + 1) ((s.recordStep p k).part p) := by
  have hp : p < s.parts.length := State.part_lt_of_task ht
  have hparts : (s.countStep p k).parts = s.parts := State.countStep_view (fun _ _ _ => rfl) s p k
  obtain ⟨g, hg, hstep⟩ := s.recordStep_eq p k
  rw [hg, State.part_eq_of_parts (State.setPhases_view (fun _ _ _ => rfl) _ p (k + 1)), State.part_modPart _ _ _ (hparts ▸ hp),
    State.part_eq_of_parts hparts]
  exact hstep _ t ht

theorem State.recordStep_between (s : State) (p k : Nat) : (s.countStep p k).Between (s.recordStep p k) :=
  (State.Between.modPart _ p _).trans (State.setPhases_between _ p (k + 1))

theorem State.splitRecord_between (s : State) (p : Nat) (y : Layer) : s.Between (s.splitRecord p y) := by
  unfold State.splitRecord
  split
  · exact ⟨rfl, rfl, rfl, rfl⟩
  · extract_lets d count rec at_ u
    have hu : s.Between u := by
      simp only [u]
      split <;> exact ⟨rfl, rfl, rfl, rfl⟩
    exact hu.trans (.modPart u p _)

theorem Part.AtStep.setTask {y : Part} (h : x.AtStep id n y) {v w : Task} (hv : y.task = some v) (hw : w.id = v.id ∧ w.step = v.step) :
    x.AtStep id n { y with task := some w } := by
  obtain ⟨ht, hs, z, _, rfl⟩ := h
  rw [hv] at ht
  exact ⟨by simpa [hw.1, hw.2] using ht, hs, z, _, rfl⟩

theorem State.splitRecord_atStep (y : Layer) (h : x.AtStep id n (s.part p)) : x.AtStep id n ((s.splitRecord p y).part p) := by
  unfold State.splitRecord
  split
  · exact h
  next v hv =>
    have hp : p < s.parts.length := State.part_lt_of_task hv
    extract_lets d count rec at_ u
    have hu : u.parts = s.parts := by
      simp only [u]
      split <;> rfl
    rw [State.part_modPart _ _ _ (hu ▸ hp), State.part_eq_of_parts hu]
    exact h.setTask hv ⟨rfl, rfl⟩

theorem State.foldl_splitRecord (ys : List Layer) (s : State) (h : x.AtStep id n (s.part p)) :
    let u := ys.foldl (fun s y => s.splitRecord p y) s
    x.AtStep id n (u.part p) ∧ s.Between u := by
  induction ys generalizing s with
  | nil => exact ⟨h, rfl, rfl, rfl, rfl⟩
  | cons y ys ih =>
    obtain ⟨hx, hb⟩ := ih (s.splitRecord p y) (s.splitRecord_atStep y h)
    exact ⟨hx, (s.splitRecord_between p y).trans hb⟩

/-- The counts, the step's start state, the split records and the digest of the output ranges (R608 items 4 and 5). -/
def State.committed (s : State) (p : Nat) (t : Task) (hostOut : List Bytes) : State :=
  let s := s.recordStep p t.step
  let s := ((s.splitTable p).filter fun x => x.step = t.step).foldl (fun s x => s.splitRecord p x) s
  s.modPart p fun x => { x with stop := .none, task := x.task.map fun u =>
    { u with outDigest := sha256 (s.rangeBytes p 1 u.ranges hostOut) } }

theorem Part.AtStep.stopped {y : Part} (h : x.AtStep id n y) (g : Task → Task) (hg : ∀ v, (g v).id = v.id ∧ (g v).step = v.step) :
    x.AtStep id n { y with stop := .none, task := y.task.map g } := by
  obtain ⟨ht, hs, z, w, rfl⟩ := h
  refine ⟨?_, hs, .none, _, rfl⟩
  simpa [Function.comp_def, hg] using ht

theorem State.committed_atStep {t : Task} (hostOut : List Bytes) (ht : (s.part p).task = some t) :
    let u := s.committed p t hostOut
    (s.part p).AtStep t.id (t.step + 1) (u.part p) ∧ (u.part p).stop = .none ∧ (s.countStep p t.step).Between u := by
  have hp : p < s.parts.length := State.part_lt_of_task ht
  obtain ⟨hx, hb⟩ := State.foldl_splitRecord (((s.recordStep p t.step).splitTable p).filter fun x => x.step = t.step) _
    (s.recordStep_atStep t.step ht)
  have hbetween := (s.recordStep_between p t.step).trans hb
  have hcount : (s.countStep p t.step).parts.length = s.parts.length :=
    congrArg List.length (State.countStep_view (view := State.parts) (fun _ _ _ => rfl) s p t.step)
  have hlen := hp
  rw [← hcount, ← hbetween.length_parts] at hlen
  have hpart : (s.committed p t hostOut).part p = _ := State.part_modPart _ _ _ hlen
  dsimp only
  rw [hpart]
  exact ⟨hx.stopped _ fun _ => ⟨rfl, rfl⟩, rfl, hbetween.trans (.modPart _ p _)⟩

end

/-! ### The commit of a step (R608, R230) -/

theorem State.clampStep_of_not_armed {s : State} {p : Nat} (h : (s.part p).ckp.armed = false) (k : Nat) (t : Task) :
    s.clampStep p k t = s := by
  unfold State.clampStep
  extract_lets c
  exact if_pos (by simp only [c, h, Bool.not_false, Bool.true_or])

theorem State.modPart_eq_self {s : State} {p : Nat} {f : Part → Part} (h : f (s.part p) = s.part p) : s.modPart p f = s := by
  have hparts : s.parts.modify p f = s.parts := by
    refine List.ext_getElem (by simp) fun i hi hi' => ?_
    rw [List.getElem_modify]
    split
    next hpi =>
      subst hpi
      rwa [State.part, List.getD_eq_getElem _ _ hi'] at h
    next => rfl
  rw [State.modPart, hparts]

/-- Partition x goes on after a commit, unless it stops for a clamp. -/
def Part.goOn (x : Part) : Part := match x.stop with
  | .none => x.proceed
  | _ => x

theorem Part.goOn_of_none {x : Part} (h : x.stop = .none) : x.goOn = x.proceed := by rw [Part.goOn, h]

theorem State.commitNow_goes_on {s : State} {p : Nat} {t : Task} {hostOut : List Bytes} (hp : t.preempt = false)
    (ha : ((s.committed p t hostOut).part p).ckp.armed = false) :
    s.commitNow p t false hostOut = (s.committed p t hostOut).modPart p Part.goOn := by
  have h : s.commitNow p t false hostOut =
      (if t.preempt then ((s.committed p t hostOut).clampStep p t.step t).abort p preempted
        else (s.committed p t hostOut).clampStep p t.step t).modPart p Part.goOn := rfl
  rw [h, hp, if_neg Bool.false_ne_true, State.clampStep_of_not_armed ha]

/-- Without a clamp the last commit is the end of the task. -/
theorem State.commitNow_last {s : State} {p : Nat} {t : Task} {hostOut : List Bytes}
    (hs : (((s.committed p t hostOut).closeTask p 0 0 0 0 true .loaded).part p).stop = .none)
    (ha : (((s.committed p t hostOut).closeTask p 0 0 0 0 true .loaded).part p).ckp.armed = false) :
    s.commitNow p t true hostOut = (s.committed p t hostOut).closeTask p 0 0 0 0 true .loaded := by
  have h : s.commitNow p t true hostOut =
      let u := (s.committed p t hostOut).closeTask p 0 0 0 0 true .loaded
      (if (u.part p).prog.isSome then u.clampStep p t.step t else u).modPart p fun x =>
        if x.clamping then { x with state := .running } else x := rfl
  rw [h]
  dsimp only
  rw [State.clampStep_of_not_armed ha, ite_self]
  exact State.modPart_eq_self (if_neg (by rw [Part.clamping, hs]; exact Bool.false_ne_true))

/-- A step of partition p whose queues have completed its commands, which nothing stops, and at whose end no copies are due. -/
structure State.StepReady (s : State) (p : Nat) (t : Task) : Prop where
  task : (s.part p).task = some t
  startAt : t.startAt ≤ s.now
  resumeAt : t.resumeAt ≤ s.now
  stop : (s.part p).stop = .none
  after : (s.part p).after = .none
  queues : s.allQueues p (s.queueDone p t.step) = true
  buddy : (s.part p).ckp.buddyOn = false
  clamp : (s.part p).ckp.armed = false

section
variable {s : State} {p : Nat} {t : Task}

theorem State.StepReady.commitReady (h : s.StepReady p t) : s.commitReady p = true := by
  simp only [State.commitReady, h.task, h.startAt, h.resumeAt, h.stop, h.queues, decide_true, Bool.and_self]

theorem State.StepReady.effect (h : s.StepReady p t) (hostOut : List Bytes)
    (ho : s.allQueues p (s.queueLast p t.step) = true → s.persistentSlots p = []) :
    stepCommitEffect p hostOut s = s.commitNow p t (s.allQueues p (s.queueLast p t.step)) hostOut := by
  have hopen : (s.allQueues p (s.queueLast p t.step) && !(s.persistentSlots p).isEmpty) = false := by
    cases hl : s.allQueues p (s.queueLast p t.step) with
    | false => rfl
    | true => rw [ho hl]; rfl
  simp only [stepCommitEffect, h.task, h.commitReady, hopen, h.buddy, Bool.not_true, Bool.false_and, Bool.false_eq_true, if_false]

/-- What the commit cycle leaves of the partition before a clamp or the end of the run. -/
theorem State.StepReady.part_committed (h : s.StepReady p t) (hostOut : List Bytes) :
    let x := (s.committed p t hostOut).part p
    (x.task.map fun v => (v.id, v.step)) = some (t.id, t.step + 1) ∧ x.stop = .none ∧ x.after = .none ∧ x.ckp.armed = false ∧
      x.dropProg = (s.part p).dropProg ∧ x.stream = (s.part p).stream ∧ x.audit = (s.part p).audit := by
  obtain ⟨⟨htask, hs, z, w, hpart⟩, hstop, -⟩ := State.committed_atStep hostOut h.task
  refine ⟨htask, hstop, ?_⟩
  rw [hpart]
  exact ⟨h.after, h.clamp, rfl, rfl, rfl⟩

theorem State.core_sat_of_tally {u v : State} (h : u.shows Bench.tally = v.shows Bench.tally) (b c : Nat) :
    (u.core b c).sat = (v.core b c).sat := congrFun (congrArg Prod.snd (State.shown_of_shows h b)) c

theorem State.stores_of_tally {u v : State} (h : u.shows Bench.tally = v.shows Bench.tally) (b : Nat) :
    (u.bench b).stores = (v.bench b).stores := congrArg Prod.fst (State.shown_of_shows h b)

/-- The next step is the one after it, and every bench holds its stores with the shadow counts added. -/
theorem State.StepReady.goes_on (h : s.StepReady p t) (hostOut : List Bytes) (hp : t.preempt = false) :
    let u := s.commitNow p t false hostOut
    (u.part p).task.map (·.step) = some (t.step + 1) ∧ (u.part p).stop = .none ∧
      u.shows Bench.tally = (s.countStep p t.step).shows Bench.tally := by
  obtain ⟨htask, hstop, hafter, harmed, -⟩ := h.part_committed hostOut
  obtain ⟨-, -, hb⟩ := State.committed_atStep hostOut h.task
  dsimp only
  rw [State.commitNow_goes_on hp harmed]
  generalize s.committed p t hostOut = w at *
  have hlen : p < w.parts.length := State.part_lt_of (f := Part.task) fun hn => by rw [hn] at htask; cases htask
  rw [State.part_modPart _ _ _ hlen, Part.goOn_of_none hstop]
  have hstep := congrArg (Option.map Prod.snd) htask
  rw [Option.map_map] at hstep
  exact ⟨hstep, hafter, hb.tally⟩

/-- The last commit is the end of the task. -/
theorem State.StepReady.ends (h : s.StepReady p t) (hostOut : List Bytes) (hd : (s.part p).dropProg = false) (hid : s.hears t.id)
    (hr : s.discards p = false) :
    let u := s.commitNow p t true hostOut
    (u.part p).task = none ∧ (u.part p).state = .loaded ∧
      (∃ c ∈ (u.fn t.id.f).compl, c.id = t.id ∧ c.part = p ∧ c.ends = false) ∧ u.Recorded p (s.part p).stream.nextSeq := by
  obtain ⟨htask, -, -, harmed, hdrop, hstream, haudit⟩ := h.part_committed hostOut
  obtain ⟨-, -, hb⟩ := State.committed_atStep hostOut h.task
  obtain ⟨v, hv, hvt⟩ := Option.map_eq_some_iff.1 htask
  obtain ⟨hvid, -⟩ := Prod.mk.inj hvt
  have hfns := hb.fns.trans (State.countStep_view (view := State.fns) (fun _ _ _ => rfl) s p t.step)
  have hldg := hb.ldg.trans (State.countStep_view (view := State.ldg) (fun _ _ _ => rfl) s p t.step)
  have hclosed := State.closeTask_closed 0 0 0 0 .loaded hv (hdrop.trans hd)
  dsimp only
  rw [State.commitNow_last hclosed.stop (by rw [hclosed.ckp]; exact harmed), ← hvid]
  obtain ⟨c, hc, hof⟩ := hclosed.answer (hvid ▸ hid.of_fns hfns)
  refine ⟨hclosed.task, hclosed.state, ⟨c, hc, hof.id, hof.part, hof.ends⟩, ?_⟩
  rw [← hstream]
  exact hclosed.record (by rw [State.discards, hldg, haudit]; exact hr)

end

/-! ### The end of an aborted task (R397, R403) -/

theorem taskAbortCompleteEffect_of_idle {s : State} {p : Nat} {e : Ending} (h : (s.part p).stop = .abort e) (hi : s.partIdle p = true) :
    taskAbortCompleteEffect p s = s.closeTask p (if e.torn then 2 else 1) e.status e.detail e.r1.toNat true .loaded := by
  simp only [taskAbortCompleteEffect, h, hi, if_true]

/-- Settles O28: a commit that goes on, one that ends the run, and the end of an aborted task, the last two through closeTask_closed. -/
theorem stepsCommitAndTasksEnd : Obligations.StepsCommitAndTasksEnd := by
  refine ⟨fun s p t hostOut ht hstart hresume hstop hafter hdone hbuddy harmed =>
    ⟨fun hlast hpre => ?_, fun hlast hopen hdrop hf he hdisc => ?_⟩, fun s p t e hstop ht hidle hdrop hst hf he => ?_⟩
  · have h : s.StepReady p t := ⟨ht, hstart, hresume, hstop, hafter, hdone, hbuddy, harmed⟩
    obtain ⟨hstep, hnone, htally⟩ := h.goes_on hostOut hpre
    refine ⟨_, exec_stepCommit p hostOut s, ?_⟩
    rw [h.effect hostOut (fun hl => by rw [hlast] at hl; cases hl), hlast]
    have hk := State.AnswersMore.settle s (s.commitNow p t false hostOut)
    rw [State.part_eq_of_parts hk.parts]
    refine ⟨hstep, hnone, fun hn b hb c => ?_, fun b => ?_⟩
    · rw [State.core, State.bench_eq_of_benches hk.benches, State.core_sat_of_tally htally, State.sat_countStep hn hb]
      rfl
    · rw [State.bench_eq_of_benches hk.benches]
      exact Prod.mk.inj ((State.stores_of_tally htally b).trans (State.shown_of_shows (s.countStep_stores p t.step) b))
  · have h : s.StepReady p t := ⟨ht, hstart, hresume, hstop, hafter, hdone, hbuddy, harmed⟩
    refine ⟨_, exec_stepCommit p hostOut s, ?_⟩
    rw [h.effect hostOut (fun _ => hopen), hlast]
    have hk := State.AnswersMore.settle s (s.commitNow p t true hostOut)
    obtain ⟨htask, hstate, ⟨c, hc, hof⟩, hrec⟩ := h.ends hostOut hdrop ⟨hf, he⟩ hdisc
    rw [State.part_eq_of_parts hk.parts]
    exact ⟨htask, hstate, ⟨c, hk.2 _ c hc, hof⟩, hrec.of_ldg hk.ldg⟩
  · refine ⟨_, exec_taskAbortComplete p s, ?_⟩
    rw [taskAbortCompleteEffect_of_idle hstop hidle]
    have h := (State.closeTask_closed (if e.torn then 2 else 1) e.status e.detail e.r1.toNat .loaded ht hdrop).of_answersMore (.settle s _)
    obtain ⟨c, hc, hof⟩ := h.answer ⟨hf, he⟩
    have hout : (if e.torn then 2 else 1) ≠ 0 := by split <;> decide
    refine ⟨h.task, h.state, h.stop, ⟨c, hc, hof.id, hof.part, hof.status hst, hof.detail, ?_, ?_⟩, h.still, h.bytes⟩
    · rw [hof.r1 hout, BitVec.ofNat_toNat, BitVec.setWidth_eq]
    · rw [hof.ends]; exact bne_iff_ne.2 hout

end Sys2Proof.Machine
end

section
/-! SUPPORT. Strings of LX16 mantissas, row by row, and the write requests of a byte string (O19, O20). -/

namespace Sys2Proof.Machine

/-! ### LX16 mantissas (R215, R216) -/

theorem signedOf_sixteen (v : Nat) : signedOf v 16 = (BitVec.ofNat 16 v).toInt := by
  rw [BitVec.toInt_eq_toNat_cond, BitVec.toNat_ofNat]
  simp only [signedOf]
  split <;> split <;> omega

/-- A mantissa is kept by the word that holds it. -/
theorem toInt_ofInt_signedOf (v : Nat) : (BitVec.ofInt 16 (signedOf v 16)).toInt = signedOf v 16 := by
  rw [signedOf_sixteen, BitVec.ofInt_toInt]

theorem Bytes.nat_cons_cons (a b : Byte) (bs : Bytes) (off n : Nat) : Bytes.nat (a :: b :: bs) (off + 2) n = Bytes.nat bs off n := rfl

/-- What lx16 leaves out: a string of less than two bytes. -/
theorem length_le_one_of_not_cons_cons {bs : Bytes} (h : ∀ a b cs, bs = a :: b :: cs → False) : bs.length ≤ 1 :=
  match bs, h with
  | [], _ => Nat.zero_le 1
  | [_], _ => Nat.le_refl 1
  | a :: b :: cs, h => (h a b cs rfl).elim

theorem lx16_of_length_le_one {bs : Bytes} (h : bs.length ≤ 1) : lx16 bs = [] :=
  match bs, h with
  | [], _ => rfl
  | [_], _ => rfl

theorem lx16_append (xs ys : Bytes) (h : xs.length % 2 = 0) : lx16 (xs ++ ys) = lx16 xs ++ lx16 ys := by
  induction xs using lx16.induct with
  | case1 a b bs ih =>
    rw [List.length_cons, List.length_cons] at h
    simp only [List.cons_append, lx16, ih (by omega)]
  | case2 xs hx =>
    have hl := length_le_one_of_not_cons_cons hx
    obtain rfl : xs = [] := List.length_eq_zero_iff.1 (by omega)
    rfl

theorem lx16_length (bs : Bytes) : (lx16 bs).length = bs.length / 2 := by
  induction bs using lx16.induct with
  | case1 a b bs ih => simp only [lx16, List.length_cons, ih]; omega
  | case2 bs hx =>
    have hl := length_le_one_of_not_cons_cons hx
    rw [lx16_of_length_le_one hl, List.length_nil]
    omega

theorem lx16_getD (bs : Bytes) {i : Nat} (h : 2 * i + 1 < bs.length) : (lx16 bs).getD i 0 = signedOf (Bytes.nat bs (2 * i) 2) 16 := by
  induction bs using lx16.induct generalizing i with
  | case1 a b bs ih =>
    cases i with
    | zero => simp [lx16, Bytes.nat, Bytes.sub, leNat]
    | succ i =>
      rw [List.length_cons, List.length_cons] at h
      rw [lx16, List.getD_cons_succ, ih (by omega), Nat.mul_succ, Bytes.nat_cons_cons]
  | case2 bs hx =>
    have hl := length_le_one_of_not_cons_cons hx
    omega

/-- The mantissas of 256-byte rows, row behind row. -/
theorem lx16_flatten_getD {rows : List Bytes} (h : ∀ r ∈ rows, r.length = 256) {k n : Nat} (hk : k < rows.length) (hn : n < 128) :
    (lx16 rows.flatten).getD (128 * k + n) 0 = signedOf (Bytes.nat (rows.getD k []) (2 * n) 2) 16 := by
  induction rows generalizing k with
  | nil => cases hk
  | cons r rows ih =>
    obtain ⟨hr, hrows⟩ := List.forall_mem_cons.1 h
    have hl : (lx16 r).length = 128 := by rw [lx16_length, hr]
    rw [List.flatten_cons, lx16_append _ _ (by rw [hr])]
    cases k with
    | zero =>
      rw [List.getD_append _ _ _ _ (by omega), Nat.mul_zero, Nat.zero_add]
      exact lx16_getD r (by omega)
    | succ k =>
      rw [List.getD_append_right _ _ _ _ (by omega), hl, show 128 * (k + 1) + n - 128 = 128 * k + n by omega]
      exact ih hrows (Nat.lt_of_succ_lt_succ hk)

theorem lx16Bytes_length (vs : List Int) : (lx16Bytes vs).length = 2 * vs.length := by
  simp [lx16Bytes, List.length_flatMap, Nat.mul_comm]

theorem la64Bytes_length (vs : List Int) : (la64Bytes vs).length = 8 * vs.length := by
  simp [la64Bytes, List.length_flatMap, Nat.mul_comm]

/-! ### The write requests of a byte string (R293) -/

/-- The write requests of the first k rows leave the part of the string that lies in them. -/
theorem get_writesOf_rows (r : MemReq) (a : Nat) (bs : Bytes) (m : Mem) (x k : Nat) :
    Memory.get (writesOf ((List.range k).map fun i =>
        let lo := max a (4096 * (a / 4096 + i))
        { r with row := a / 4096 + i, write := true
                 data := [(lo, (bs.drop (lo - a)).take (min (a + bs.length) (4096 * (a / 4096 + i) + 4096) - lo))] }) m) x =
      if a ≤ x ∧ x < min (a + bs.length) (4096 * (a / 4096 + k)) then bs.getD (x - a) 0 else Memory.get m x := by
  induction k with
  | zero => rw [if_neg (by omega)]; rfl
  | succ k ih =>
    rw [List.range_succ, List.map_append, writesOf, List.foldl_append]
    simp only [List.map_cons, List.map_nil, List.foldl_cons, List.foldl_nil, Memory.get_write, List.length_take, List.length_drop]
    rw [← writesOf, ih]
    generalize hlo : max a (4096 * (a / 4096 + k)) = lo
    by_cases hx : lo ≤ x ∧ x < min (a + bs.length) (4096 * (a / 4096 + k) + 4096)
    · rw [if_pos (by omega), if_pos (by omega), List.getD, List.getElem?_take_of_lt (by omega), List.getElem?_drop,
        show lo - a + (x - lo) = x - a by omega, ← List.getD]
    · rw [if_neg (by omega)]
      congr 1
      exact propext (by omega)

/-- The write requests of a byte string write its bytes, and no other byte of their store. -/
theorem MemReq.writesAt_writes (r : MemReq) (a : Nat) (bs : Bytes) : writesAt r.rack (r.writes a bs) a bs := by
  refine ⟨fun x hx => ?_, fun m x => ?_⟩
  · obtain ⟨_, -, rfl⟩ := List.mem_map.1 hx
    exact ⟨rfl, rfl⟩
  · rw [MemReq.writes, rowParts]
    split
    next h => rw [if_neg (by omega)]; rfl
    next h =>
      rw [List.map_map]
      refine (get_writesOf_rows r a bs m x _).trans ?_
      congr 1
      exact propext (by omega)

end Sys2Proof.Machine
end

section
/-! SUPPORT. What the issue of a command leaves to the matrix engine, and the arrays of a core after an update (O19, O20). -/

namespace Sys2Proof.Machine

/-! ### What an issue leaves besides: the arrays, and the places of the contexts' work -/

/-- The logical slots of a partition, on which the places of a context's work depend (R599). -/
def Part.slotMap (x : Part) : Nat × Nat × List Nat × List (Nat × Nat) := (x.first, x.seats, x.slotSeats, x.adopted)

theorem Core.issued_mx (k : Core) (now q : Nat) (t : Task) (cmd : Cmd) : (k.issued now q t cmd).mx = k.mx := by
  unfold Core.issued
  exact view_ite (view := Core.mx) _ rfl rfl

section
variable {β : Type} {view : State → β} (hp : ∀ s p f, (∀ x, Part.slotMap (f x) = x.slotMap) → view (State.modPart s p f) = view s)
  (hc : ∀ s b c f, (∀ k, Core.mx (f k) = k.mx) → view (State.modCore s b c f) = view s)
include hp hc

theorem State.acknowledge_keeps (s : State) (p b c q h : Nat) : view (s.acknowledge p b c q h) = view s := by
  have hh (s : State) (f : Hurdle → Hurdle) : view (s.modHurdle p h f) = view s := hp _ _ _ fun _ => rfl
  have hq (s : State) (f : Queue → Queue) : view (s.modQueue b c q f) = view s := hc _ _ _ _ fun _ => rfl
  unfold State.acknowledge
  extract_lets a step t
  have ht : view t = view s := (hh ..).trans (hq ..)
  exact view_ite _ ((hh ..).trans ht) ht

theorem State.issue_keeps (s : State) (p : Nat) (t : Task) (b c q : Nat) (cmd : Cmd) (doneAt : Nat) (on : Until) :
    view (s.issue p t b c q cmd doneAt on) = view s := by
  have hq (s : State) (f : Queue → Queue) : view (s.modQueue b c q f) = view s := hc _ _ _ _ fun _ => rfl
  have hm (s : State) : view (s.mark p 7) = view s := hp _ _ _ fun x => by cases x.task <;> rfl
  unfold State.issue
  extract_lets late noted marked i charged freed
  have h1 : view noted = view s := hp _ _ _ fun _ => rfl
  have h2 : view marked = view s := view_ite _ ((hm _).trans h1) h1
  have h3 : view charged = view s := (hc _ _ _ _ fun k => by
    rw [Core.issued_mx]
    exact view_ite (view := Core.mx) _ rfl rfl).trans h2
  have h4 : view freed = view s := view_ite _ ((State.acknowledge_keeps hp hc ..).trans h3) h3
  exact (hq ..).trans h4

end

/-- The stores of a bench and the matrix engines of its cores. -/
def Bench.matrix (x : Bench) : (Mem × Mem) × List Mx := (x.stores, x.cores.map Core.mx)

theorem Bench.matrix_modCore (x : Bench) (c : Nat) {f : Core → Core} (h : ∀ k, (f k).mx = k.mx) : (x.modCore c f).matrix = x.matrix := by
  refine congrArg (Prod.mk x.stores) (List.ext_getElem (by simp) fun i _ _ => ?_)
  simp only [List.getElem_map, Bench.modCore_cores, List.getElem_modify]
  split
  · exact h _
  · rfl

/-- The jobs of a bench and the requests that wait for its banks. -/
def Bench.work (x : Bench) : List Job × Nat × List MemReq := (x.jobs, x.nextJob, x.reqs)

/-- All that the slot of a context depends on. -/
def State.slotMaps (s : State) : List (Nat × Nat × List Nat × List (Nat × Nat)) × List BState × Ring × Fuses :=
  (s.parts.map Part.slotMap, s.shows Bench.state, s.ring, s.fuses)

section
variable (s : State) (p : Nat) (t : Task) (b c q : Nat) (cmd : Cmd) (doneAt : Nat) (on : Until)

theorem State.issue_matrix : (s.issue p t b c q cmd doneAt on).shows Bench.matrix = s.shows Bench.matrix :=
  State.issue_keeps (view := State.shows Bench.matrix) (fun _ _ _ _ => rfl)
    (fun s b c _ h => s.modBench_shows b fun x => x.matrix_modCore c h) ..

theorem State.issue_work : ((s.issue p t b c q cmd doneAt on).bench b).work = (s.bench b).work :=
  State.shown_of_shows (s.issue_shows p t b c q cmd doneAt on fun _ _ _ => rfl) b

theorem State.modCore_slotMaps (f : Core → Core) : (s.modCore b c f).slotMaps = s.slotMaps := by
  have h : (s.modCore b c f).shows Bench.state = s.shows Bench.state := State.modCore_shows (fun _ _ _ => rfl) s b c f
  rw [State.slotMaps, h]
  rfl

theorem State.ask_slotMaps (rs : List MemReq) : (s.ask b rs).slotMaps = s.slotMaps := by
  have h : (s.ask b rs).shows Bench.state = s.shows Bench.state := s.modBench_shows b fun _ => rfl
  rw [State.slotMaps, h]
  rfl

theorem State.issue_slotMaps : (s.issue p t b c q cmd doneAt on).slotMaps = s.slotMaps := by
  refine State.issue_keeps (view := State.slotMaps) (fun s p f h => ?_) (fun s b c f _ => s.modCore_slotMaps b c f) ..
  refine congrArg (·, _) (List.ext_getElem (by simp) fun i _ _ => ?_)
  simp only [List.getElem_map, State.modPart_parts, List.getElem_modify]
  split
  · exact h _
  · rfl

end

section
variable {s t : State}

/-- Places of a context's work depend on the slots only. -/
theorem State.reloc_of_slotMaps (h : t.slotMaps = s.slotMaps) (p b ctx own add : Nat) : t.reloc p b ctx own add = s.reloc p b ctx own add := by
  obtain ⟨hparts, hstate, hring, hfuses⟩ : _ ∧ _ ∧ _ ∧ _ := by simpa only [State.slotMaps, Prod.mk.injEq] using h
  have hp : (t.part p).slotMap = (s.part p).slotMap :=
    calc (t.part p).slotMap = (t.parts.map Part.slotMap).getD p (Part.slotMap {}) := (List.getD_map ..).symm
      _ = (s.parts.map Part.slotMap).getD p (Part.slotMap {}) := by rw [hparts]
      _ = (s.part p).slotMap := List.getD_map ..
  obtain ⟨hfirst, hseats, hslots, hadopted⟩ : _ ∧ _ ∧ _ ∧ _ := by simpa only [Part.slotMap, Prod.mk.injEq] using hp
  have hb (k : Nat) : (t.bench k).state = (s.bench k).state := State.shown_of_shows hstate k
  have ha : t.adoptedCtx p b ctx = s.adoptedCtx p b ctx := by
    simp only [State.adoptedCtx, State.ownSlot, State.slotSeatsOf, State.arcSeats, State.nSeats, State.isC, State.benchSeat, State.seatBench,
      hring, hfuses, hfirst, hseats, hslots, hadopted, hb]
    rfl
  rw [State.reloc, ha, State.reloc]

theorem State.unit_of_slotMaps (h : t.slotMaps = s.slotMaps) (p b ctx u : Nat) : t.unit p b ctx u = s.unit p b ctx u :=
  State.reloc_of_slotMaps h ..

theorem State.genIdx_of_slotMaps (h : t.slotMaps = s.slotMaps) (p b ctx i : Nat) : t.genIdx p b ctx i = s.genIdx p b ctx i :=
  State.reloc_of_slotMaps h ..

end

/-- No byte of a store and no matrix engine has changed. -/
structure State.KeepsMatrix (s t : State) : Prop where
  hbm : t.hbm = s.hbm
  matrix : t.shows Bench.matrix = s.shows Bench.matrix

theorem State.KeepsMatrix.refl (s : State) : s.KeepsMatrix s := ⟨rfl, rfl⟩

theorem State.KeepsMatrix.issue (s : State) (p : Nat) (t : Task) (b c q : Nat) (cmd : Cmd) (doneAt : Nat) (on : Until) :
    s.KeepsMatrix (s.issue p t b c q cmd doneAt on) := ⟨s.issue_hbm .., s.issue_matrix ..⟩

theorem sameBytes.settle {s t : State} (h : sameBytes s t) (a : State) : sameBytes s (settle a t) := by
  rw [sameBytes, settle_hbm]
  simp only [State.bench, settle_benches]
  exact h

section
variable {s t : State} (h : s.KeepsMatrix t)
include h

theorem State.KeepsMatrix.modBench (b : Nat) {g : Bench → Bench} (hg : ∀ x, (g x).matrix = x.matrix) : s.KeepsMatrix (t.modBench b g) :=
  ⟨h.hbm, (t.modBench_shows b hg).trans h.matrix⟩

theorem State.KeepsMatrix.addJob (b : Nat) (j : Job) : s.KeepsMatrix (t.addJob b j) := by
  refine h.modBench b fun x => ?_
  rfl

theorem State.KeepsMatrix.ask (b : Nat) (rs : List MemReq) : s.KeepsMatrix (t.ask b rs) := by
  refine h.modBench b fun x => ?_
  rfl

theorem State.KeepsMatrix.stores : t.shows Bench.stores = s.shows Bench.stores := by
  have hm (u : State) : u.shows Bench.stores = (u.shows Bench.matrix).map Prod.fst := by
    rw [State.shows, State.shows, List.map_map]
    rfl
  rw [hm, hm, h.matrix]

theorem State.KeepsMatrix.mx (b c : Nat) : (t.core b c).mx = (s.core b c).mx := by
  have hb : (t.bench b).cores.map Core.mx = (s.bench b).cores.map Core.mx := congrArg Prod.snd (State.shown_of_shows h.matrix b)
  calc (t.core b c).mx = ((t.bench b).cores.map Core.mx).getD c (Core.mx {}) := (List.getD_map ..).symm
    _ = ((s.bench b).cores.map Core.mx).getD c (Core.mx {}) := by rw [hb]
    _ = (s.core b c).mx := List.getD_map ..

theorem State.KeepsMatrix.length_benches : t.benches.length = s.benches.length := State.length_of_shows h.matrix

theorem State.KeepsMatrix.length_cores (b : Nat) : (t.bench b).cores.length = (s.bench b).cores.length := by
  simpa [Bench.matrix] using congrArg (fun y => y.2.length) (State.shown_of_shows h.matrix b)

/-- A command ends with the update of a core: no byte changes. -/
theorem State.KeepsMatrix.bytes (a : State) (b c : Nat) (f : Core → Core) : sameBytes s (settle a (t.modCore b c f)) := by
  have hs : (t.modCore b c f).shows Bench.stores = t.shows Bench.stores := State.modCore_shows (fun _ _ _ => rfl) t b c f
  exact (sameBytes.of_stores (t := t.modCore b c f) h.hbm (hs.trans h.stores)).settle a

/-- A command ends with the update of a core: it is made on the core's matrix engine as it was. -/
theorem State.KeepsMatrix.core {b c : Nat} (hb : b < s.benches.length) (hc : c < (s.bench b).cores.length) (a : State) (f : Core → Core) :
    ∃ k : Core, (settle a (t.modCore b c f)).core b c = f k ∧ k.mx = (s.core b c).mx := by
  refine ⟨t.core b c, ?_, h.mx b c⟩
  rw [State.core, State.bench_eq_of_benches (settle_benches _ _)]
  exact t.core_modCore b c f (h.length_benches ▸ hb) (h.length_cores b ▸ hc)

end

/-- A command ends with the update of a core: the jobs and the requests stay. -/
theorem State.work_settle_modCore (a s : State) (b c : Nat) (f : Core → Core) (x : Nat) :
    ((settle a (s.modCore b c f)).bench x).work = (s.bench x).work := by
  rw [State.bench_eq_of_benches (settle_benches _ _)]
  exact State.shown_of_shows (State.modCore_shows (fun _ _ _ => rfl) s b c f) x

/-- A command that becomes a job: the bench's list ends with it, under the next number. -/
theorem State.work_addJob_issue {s : State} {b : Nat} (hb : b < s.benches.length) (p : Nat) (t : Task) (c q : Nat) (cmd : Cmd) (doneAt : Nat)
    (on : Until) (j : Job) : (((s.issue p t b c q cmd doneAt on).addJob b j).bench b).work =
      ((s.bench b).jobs ++ [{ j with id := (s.bench b).nextJob }], (s.bench b).nextJob + 1, (s.bench b).reqs) := by
  obtain ⟨hjobs, hnext, hreqs⟩ : _ ∧ _ ∧ _ := by
    simpa only [Bench.work, Prod.mk.injEq] using s.issue_work p t b c q cmd doneAt on
  rw [State.addJob, State.bench_modBench _ _ _ ((State.KeepsMatrix.issue s p t b c q cmd doneAt on).length_benches ▸ hb), Bench.work,
    hjobs, hnext, hreqs]

/-! ### The engine command that may issue -/

section
variable {s : State} {b c q p op : Nat} {t : Task} {cmd : Cmd}

theorem State.opcode_of_mayIssue (h : s.mayIssue b c q op = some (p, t, cmd)) : cmd.opcode = op := by
  unfold State.mayIssue at h
  split at h
  · split at h
    next hop =>
      cases h
      simp only [Bool.and_eq_true, decide_eq_true_eq] at hop
      exact hop.1
    · cases h
  · cases h

theorem Core.queue_default (q : Nat) : ({} : Core).queue q = {} := by
  rw [Core.queue, List.getD, List.getElem?_replicate]
  split <;> rfl

/-- Only a core that the bench has holds a head command. -/
theorem State.core_lt_of_headCmd {x : Nat × Cmd} (h : s.headCmd b c q = some x) : c < (s.bench b).cores.length := by
  by_contra hc
  have hq : s.queue b c q = {} := by
    rw [State.queue, State.core, Bench.core, List.getD_eq_default _ _ (Nat.not_lt.1 hc), Core.queue_default]
  unfold State.headCmd at h
  rw [hq] at h
  split at h
  · exact absurd (show (none : Option (Nat × Cmd)) = some x from h) (by simp)
  · cases h

theorem State.headCmd_of_preReady (h : s.preReady b c q = some (p, t, cmd)) : ∃ x, s.headCmd b c q = some x := by
  unfold State.preReady at h
  split at h
  · cases h
  next hx => exact ⟨_, hx⟩

theorem State.core_lt_of_mayIssue (h : s.mayIssue b c q op = some (p, t, cmd)) : c < (s.bench b).cores.length := by
  obtain ⟨x, hx⟩ := State.headCmd_of_preReady (State.preReady_of_ready (State.ready_of_mayIssue h))
  exact State.core_lt_of_headCmd hx

theorem State.bench_lt_of_mayIssue (h : s.mayIssue b c q op = some (p, t, cmd)) : b < s.benches.length :=
  State.bench_lt_of_computes (State.computes_of_mayIssue h)

end

/-! ### The arrays of a core -/

section
variable (k : Core) (a : Nat) (f : ArraySt → ArraySt)

theorem Core.array_of_mx {k l : Core} (h : k.mx = l.mx) (a : Nat) : k.array a = l.array a := by rw [Core.array, h]

@[simp] theorem Core.modArray_arrays_length : (k.modArray a f).mx.arrays.length = k.mx.arrays.length := List.length_modify ..

theorem Core.array_modArray {k : Core} {a : Nat} (f : ArraySt → ArraySt) (h : a < k.mx.arrays.length) :
    (k.modArray a f).array a = f (k.array a) := getD_modify_same _ _ _ _ h

theorem Core.array_modArray_ne {a i : Nat} (h : a ≠ i) : (k.modArray a f).array i = k.array i := getD_modify_ne _ _ _ _ _ h

end

section
variable {f : ArraySt → ArraySt} {i : Nat}

theorem Core.array_modArrays_of_not_mem {as : List Nat} (h : i ∉ as) (k : Core) : (k.modArrays as f).array i = k.array i := by
  induction as generalizing k with
  | nil => rfl
  | cons a as ih =>
    obtain ⟨ha, has⟩ := not_or.1 (mt List.mem_cons.2 h)
    exact (ih has _).trans (k.array_modArray_ne f (Ne.symm ha))

theorem Core.array_modArrays_of_mem {as : List Nat} (hn : as.Nodup) (h : i ∈ as) (k : Core) (hi : i < k.mx.arrays.length) :
    (k.modArrays as f).array i = f (k.array i) := by
  induction as generalizing k with
  | nil => cases h
  | cons a as ih =>
    obtain ⟨ha, has⟩ := List.nodup_cons.1 hn
    change ((k.modArray a f).modArrays as f).array i = _
    rcases List.mem_cons.1 h with rfl | h
    · rw [Core.array_modArrays_of_not_mem ha, Core.array_modArray f hi]
    · rw [ih has h _ (by simpa using hi), Core.array_modArray_ne _ _ (ne_of_mem_of_not_mem h ha).symm]

end

/-- An array that a command wakes (R262). -/
def ArraySt.awake (x : ArraySt) : ArraySt := { x with gated := false, jogRun := if x.gated then 0 else x.jogRun }

theorem ArraySt.awake_of_not_gated {x : ArraySt} (h : x.gated = false) : x.awake = x := by
  cases x
  cases h
  rfl

/-- The wake of one array, counted where the array is gated. -/
def Core.wakeArray (k : Core) (a : Nat) : Core :=
  if (k.array a).gated then
    (k.modMx fun m => { m with wakeCount := satAdd32 m.wakeCount 1 }).modArray a fun x => { x with gated := false, jogRun := 0 }
  else k

theorem Core.wake_cons (k : Core) (a : Nat) (as : List Nat) : k.wake (a :: as) = (k.wakeArray a).wake as := rfl

theorem Core.wakeArray_arrays_length (k : Core) (a : Nat) : (k.wakeArray a).mx.arrays.length = k.mx.arrays.length :=
  view_ite (view := fun k : Core => k.mx.arrays.length) _ (Core.modArray_arrays_length ..) rfl

theorem Core.array_wakeArray_ne (k : Core) {a i : Nat} (h : a ≠ i) : (k.wakeArray a).array i = k.array i :=
  view_ite (view := fun k : Core => k.array i) _ (Core.array_modArray_ne _ _ h) rfl

theorem Core.array_wakeArray {k : Core} {a : Nat} (h : a < k.mx.arrays.length) : (k.wakeArray a).array a = (k.array a).awake := by
  unfold Core.wakeArray
  split
  next hg =>
    rw [Core.array_modArray _ (by exact h), ArraySt.awake, if_pos hg]
    rfl
  next hg => exact (ArraySt.awake_of_not_gated (Bool.eq_false_iff.2 hg)).symm

section
variable {as : List Nat} {i : Nat}

@[simp] theorem Core.wake_arrays_length (k : Core) (as : List Nat) : (k.wake as).mx.arrays.length = k.mx.arrays.length :=
  foldl_keeps (view := fun k : Core => k.mx.arrays.length) Core.wakeArray_arrays_length as k

theorem Core.array_wake_of_not_mem (h : i ∉ as) (k : Core) : (k.wake as).array i = k.array i := by
  induction as generalizing k with
  | nil => rfl
  | cons a as ih =>
    obtain ⟨ha, has⟩ := not_or.1 (mt List.mem_cons.2 h)
    rw [Core.wake_cons, ih has, Core.array_wakeArray_ne _ (Ne.symm ha)]

theorem Core.array_wake_of_mem (hn : as.Nodup) (h : i ∈ as) (k : Core) (hi : i < k.mx.arrays.length) :
    (k.wake as).array i = (k.array i).awake := by
  induction as generalizing k with
  | nil => cases h
  | cons a as ih =>
    obtain ⟨ha, has⟩ := List.nodup_cons.1 hn
    rw [Core.wake_cons]
    rcases List.mem_cons.1 h with rfl | h
    · rw [Core.array_wake_of_not_mem ha, Core.array_wakeArray hi]
    · rw [ih has h _ (k.wakeArray_arrays_length a ▸ hi), Core.array_wakeArray_ne _ (ne_of_mem_of_not_mem h ha).symm]

end

/-! ### Arrays that the device has -/

section
variable {α : Type} {f : ArraySt → α}

theorem Core.lt_of_array {k : Core} {a : Nat} (h : f (k.array a) ≠ f {}) : a < k.mx.arrays.length := by
  by_contra ha
  exact h (congrArg f (List.getD_eq_default _ _ (Nat.not_lt.1 ha)))

theorem Core.array_default (a : Nat) : ({} : Core).array a = {} := by
  rw [Core.array, List.getD, List.getElem?_replicate]
  split <;> rfl

theorem State.bench_lt_of_array {s : State} {b c a : Nat} (h : f ((s.core b c).array a) ≠ f {}) : b < s.benches.length :=
  State.bench_lt_of (f := fun x => f ((x.core c).array a)) (by rwa [Bench.core_default, Core.array_default])

theorem State.core_lt_of_array {s : State} {b c a : Nat} (h : f ((s.core b c).array a) ≠ f {}) : c < (s.bench b).cores.length := by
  by_contra hc
  refine h ?_
  rw [State.core, Bench.core, List.getD_eq_default _ _ (Nat.not_lt.1 hc), Core.array_default]

end

end Sys2Proof.Machine
end

section
/-! R256, R259, R262 to R264, R270, R272, R277 to R280, R285 to R287, R308: MLOAD and its tile, MGEN, gating, feeder queues and corrected
words (O19). -/

namespace Sys2Proof.Machine

theorem exec_mload (b c q : Nat) (s : State) : exec (.mload b c q []) s = .next (settle s (mloadEffect b c q [] s)) := rfl
theorem exec_mgen (b c q : Nat) (s : State) : exec (.mgen b c q []) s = .next (settle s (mgenEffect b c q [] s)) := rfl
theorem exec_arrayGate (b c a : Nat) (s : State) : exec (.arrayGate b c a) s = .next (settle s (arrayGateEffect b c a s)) := rfl
theorem exec_feederPush (b c a : Nat) (s : State) : exec (.feederPush b c a) s = .next (settle s (s.feederPush b c a)) := rfl
theorem exec_rackWriteback (b bank : Nat) (s : State) :
    exec (.rackWriteback b bank) s = .next (settle s (rackWritebackEffect b bank s)) := rfl

/-! ### MLOAD (R262, R263, R277 to R279, R285 to R287) -/

theorem Cmd.array_lt (cmd : Cmd) : cmd.array < 4 := Nat.mod_lt _ (by decide)

section
variable {s : State} {b c q p : Nat} {t : Task} {cmd : Cmd}

theorem mloadEffect_of_issues (h : s.mayIssue b c q 0x10 = some (p, t, cmd)) (hf : s.mloadFault p b q cmd = none) {from_ : Nat}
    (hw : from_ = s.now + if ((s.core b c).array cmd.array).gated then 16 else 0) :
    mloadEffect b c q [] s =
      ((s.issue p t b c q cmd 0 (.job (s.bench b).nextJob)).addJob b (s.newJob p t b c q b c .load cmd from_)).loadOn b c q cmd from_ := by
  have hg : from_ = s.now + wakeCycles [(s.core b c).array cmd.array] := by simp [hw, wakeCycles]
  subst hg
  simp only [mloadEffect, State.strike, List.foldl_nil, h, hf]
  rfl

/-- What an MLOAD of queue q leaves of its array (R262, R263, R287). -/
theorem Core.array_loadOn {k : Core} {a : Nat} (ha : a < k.mx.arrays.length) (f : ArraySt → ArraySt) :
    ((k.wake [a]).modArray a f).array a = f (k.array a).awake := by
  rw [Core.array_modArray _ (by simpa using ha), Core.array_wake_of_mem (List.nodup_singleton a) (List.mem_singleton_self a) k ha]

theorem Core.array_loadOn_ne (k : Core) {a i : Nat} (hi : i ≠ a) (f : ArraySt → ArraySt) :
    ((k.wake [a]).modArray a f).array i = k.array i := by
  rw [Core.array_modArray_ne _ _ hi.symm, Core.array_wake_of_not_mem (mt List.mem_singleton.1 hi)]

/-- The array of an MLOAD after its last row (R277 to R279, R285, R286). -/
def ArraySt.takesTile (x : ArraySt) (cmd : Cmd) (rows : List Bytes) (bias : List Int) (next : Bus) : ArraySt :=
  { x with tile := tileOf rows.flatten cmd.transpose cmd.kValid, eW := cmd.eW, kValid := cmd.kValid, nValid := cmd.nValid
           eB := if cmd.biasLoad then cmd.eB else x.eB, bias := if cmd.biasLoad then bias.map (BitVec.ofInt 16) else x.bias
           bus := next }

end

/-- With the last row the MLOAD takes effect on its array; of its bench only the jobs change. -/
theorem State.loadStep_last (s : State) (b : Nat) {j : Job} (h : j.row = 127) : ∃ next : Bus, ∃ g : Bench → Bench,
    (∀ y, (g y).cores = y.cores ∧ (g y).stores = y.stores) ∧
    s.loadStep b j = (s.modCore j.eb j.ec fun k => (k.carry [j.cmd.array]).modArray j.cmd.array fun x =>
      x.takesTile j.cmd (j.read 0 (s.tileAt b j) 256 :: j.window).reverse j.acc next).modBench b g := by
  unfold State.loadStep
  extract_lets cmd rows bias last now next u
  have hl : last = true := decide_eq_true (by omega)
  have hb : bias = j.acc := if_neg (by simp [h])
  have hu : u = s.modCore j.eb j.ec fun k => (k.carry [j.cmd.array]).modArray j.cmd.array fun x =>
      x.takesTile j.cmd rows.reverse j.acc next := by
    simp only [u, hl, hb]
    rfl
  rw [hu]
  refine ⟨next, _, ?_, rfl⟩
  exact fun y => ⟨rfl, rfl⟩

/-! ### The words of a tile (R277 to R279, R285) -/

/-- The word at row k and column n of the tile: the mantissa there, or at column k and row n, and zero from K_VALID on. -/
theorem tileOf_getD (raw : Bytes) (transpose : Bool) (kValid : Nat) {k n : Nat} (hk : k < 128) (hn : n < 128) :
    (tileOf raw transpose kValid).getD (128 * k + n) 0 =
      if k < kValid then BitVec.ofInt 16 ((lx16 raw).getD (if transpose then 128 * n + k else 128 * k + n) 0) else 0 := by
  unfold tileOf
  extract_lets vs ws us
  have hv (i : Nat) : vs.getD i 0 = BitVec.ofInt 16 ((lx16 raw).getD i 0) :=
    List.getD_map (d := 0) (f := fun v => BitVec.ofInt 16 v) ..
  have hw : ws.getD (128 * k + n) 0 = BitVec.ofInt 16 ((lx16 raw).getD (if transpose then 128 * n + k else 128 * k + n) 0) := by
    cases transpose with
    | false => exact hv _
    | true =>
      have hi : (128 * k + n) % 128 * 128 + (128 * k + n) / 128 = 128 * n + k := by omega
      calc ws.getD (128 * k + n) 0 = vs.getD ((128 * k + n) % 128 * 128 + (128 * k + n) / 128) 0 := by
            rw [show ws = (List.range 16384).map fun i => vs.getD (i % 128 * 128 + i / 128) 0 from rfl, List.getD,
              List.getElem?_map, List.getElem?_range (by omega)]
            rfl
        _ = _ := by rw [hi, hv]; rfl
  have hu : us.getD (128 * k + n) 0 = if k < kValid then ws.getD (128 * k + n) 0 else 0 := by
    rw [List.getD, List.getElem?_take]
    by_cases hkv : k < kValid
    · rw [if_pos (by omega), if_pos hkv, List.getD]
    · rw [if_neg (by omega), if_neg hkv]
      rfl
  rw [← hw, ← hu]
  split
  next hz =>
    rw [List.getD, List.getD]
    cases hx : us[128 * k + n]? with
    | none => rfl
    | some x => exact (of_decide_eq_true (List.all_eq_true.1 hz x (List.mem_of_getElem? hx))).symm
  next =>
    by_cases hi : 128 * k + n < us.length
    · rw [List.getD_append _ _ _ _ hi]
    · rw [List.getD_append_right _ _ _ _ (by omega), List.getD_eq_default _ _ (Nat.not_lt.1 hi), List.getD, List.getElem?_replicate]
      split <;> rfl

/-- The tile of 128 rack rows, as numbers. -/
theorem toInt_tileOf_getD {rows : List Bytes} (hl : rows.length = 128) (hr : ∀ r ∈ rows, r.length = 256) (transpose : Bool) (kValid : Nat)
    {k n : Nat} (hk : k < 128) (hn : n < 128) :
    ((tileOf rows.flatten transpose kValid).getD (128 * k + n) 0).toInt =
      if k < kValid then
        (if transpose then signedOf (Bytes.nat (rows.getD n []) (2 * k) 2) 16 else signedOf (Bytes.nat (rows.getD k []) (2 * n) 2) 16)
      else 0 := by
  rw [tileOf_getD _ _ _ hk hn]
  split
  · cases transpose with
    | false => exact (congrArg (fun v => (BitVec.ofInt 16 v).toInt) (lx16_flatten_getD hr (hl ▸ hk) hn)).trans (toInt_ofInt_signedOf _)
    | true => exact (congrArg (fun v => (BitVec.ofInt 16 v).toInt) (lx16_flatten_getD hr (hl ▸ hn) hk)).trans (toInt_ofInt_signedOf _)
  · rfl

/-! ### The statement -/

section
variable {s : State} {b c q p : Nat} {t : Task} {cmd : Cmd}

/-- An MLOAD without a fault (R262, R263, R287). -/
theorem mload_takes_array (h : s.mayIssue b c q 0x10 = some (p, t, cmd)) (hf : s.mloadFault p b q cmd = none)
    (hl : (s.core b c).mx.arrays.length = 4) :
    let x := (s.core b c).array cmd.array
    let from_ := s.now + if x.gated then 16 else 0
    ∃ u, exec (.mload b c q []) s = .next u ∧
      (u.core b c).array cmd.array = { x with
        gated := false, jogRun := if x.gated then 0 else x.jogRun, bus := .load from_, held := some q
        holdBias := cmd.biasLoad || (decide (x.held = some q) && x.holdBias) } ∧
      (∀ a, a ≠ cmd.array → (u.core b c).array a = (s.core b c).array a) ∧
      (u.bench b).jobs = (s.bench b).jobs ++ [s.newJob p t b c q b c .load cmd from_] ∧ sameBytes s u := by
  intro x from_
  have hb := State.bench_lt_of_mayIssue h
  have hk := (State.KeepsMatrix.issue s p t b c q cmd 0 (.job (s.bench b).nextJob)).addJob b (s.newJob p t b c q b c .load cmd from_)
  refine ⟨_, exec_mload b c q s, ?_⟩
  rw [mloadEffect_of_issues h hf (from_ := from_) rfl, State.loadOn]
  refine ⟨?_, fun a hne => ?_, ?_, hk.bytes ..⟩
  · obtain ⟨k, hu, hmx⟩ := hk.core hb (State.core_lt_of_mayIssue h) s _
    rw [hu, Core.array_loadOn (by rw [hmx, hl]; exact cmd.array_lt), Core.array_of_mx hmx]
    rfl
  · obtain ⟨k, hu, hmx⟩ := hk.core hb (State.core_lt_of_mayIssue h) s _
    rw [hu, Core.array_loadOn_ne _ hne, Core.array_of_mx hmx]
  · exact congrArg Prod.fst ((State.work_settle_modCore ..).trans (State.work_addJob_issue hb p t c q cmd 0 _ _))

/-- The last row of an MLOAD's tile (R277 to R279, R285, R286). -/
theorem loadStep_takes_tile {j : Job} (hrow : j.row = 127) (hwin : j.window.length = 127) (hw : ∀ w ∈ j.window, w.length = 256)
    (hb : j.eb < s.benches.length) (hc : j.ec < (s.bench j.eb).cores.length) (hl : (s.core j.eb j.ec).mx.arrays.length = 4) :
    let x := (s.core j.eb j.ec).array j.cmd.array
    let y := ((s.loadStep b j).core j.eb j.ec).array j.cmd.array
    let rows := (j.read 0 (s.tileAt b j) 256 :: j.window).reverse
    (∀ k n, k < 128 → n < 128 → (y.tile.getD (128 * k + n) 0).toInt =
      if k < j.cmd.kValid then
        (if j.cmd.transpose then signedOf (Bytes.nat (rows.getD n []) (2 * k) 2) 16
          else signedOf (Bytes.nat (rows.getD k []) (2 * n) 2) 16)
      else 0) ∧
    y.eW = j.cmd.eW ∧ y.kValid = j.cmd.kValid ∧ y.nValid = j.cmd.nValid ∧ y.acc = x.acc ∧
    (j.cmd.biasLoad = true → y.eB = j.cmd.eB ∧ y.bias = j.acc.map (BitVec.ofInt 16)) ∧
    (j.cmd.biasLoad = false → y.eB = x.eB ∧ y.bias = x.bias) ∧ sameBytes s (s.loadStep b j) := by
  intro x y rows
  obtain ⟨next, g, hg, hs⟩ := s.loadStep_last b hrow
  have hy : y = ({ x with carried := true } : ArraySt).takesTile j.cmd rows j.acc next := by
    have ha : j.cmd.array < (s.core j.eb j.ec).mx.arrays.length := by rw [hl]; exact j.cmd.array_lt
    have hcores := State.shown_of_shows (State.modBench_shows (f := Bench.cores) (s.modCore j.eb j.ec fun k =>
      (k.carry [j.cmd.array]).modArray j.cmd.array fun x => x.takesTile j.cmd rows j.acc next) b fun y => (hg y).1) j.eb
    simp only [y, hs, State.core, Bench.core]
    rw [hcores, ← Bench.core, ← State.core, State.core_modCore _ _ _ _ hb hc, Core.array_modArray _ (by simpa [Core.carry] using ha)]
    exact congrArg (ArraySt.takesTile · _ _ _ _) (Core.array_modArray _ ha)
  have hrows : ∀ r ∈ rows, r.length = 256 := fun r hr => by
    rcases List.mem_cons.1 (List.mem_reverse.1 hr) with rfl | hr
    · simp [Job.read, Memory.read]
    · exact hw r hr
  rw [hy]
  refine ⟨fun k n hk hn => toInt_tileOf_getD (by simp [rows, hwin]) hrows _ _ hk hn, rfl, rfl, rfl, rfl, fun hbias => ?_,
    fun hbias => ?_, ?_⟩
  · exact ⟨if_pos hbias, if_pos hbias⟩
  · exact ⟨if_neg (by simp [hbias]), if_neg (by simp [hbias])⟩
  · rw [hs]
    exact .of_stores rfl ((State.modBench_shows _ b fun y => (hg y).2).trans (State.modCore_shows (fun _ _ _ => rfl) ..))

/-- An MGEN without a fault (R264, R280). -/
theorem mgenEffect_of_issues (h : s.mayIssue b c q 0x13 = some (p, t, cmd)) (hf : s.mgenFault p b q cmd = none) : ∃ rs,
    mgenEffect b c q [] s = ((s.issue p t b c q cmd (s.now + 7) .time).ask b rs).modCore b c fun k => k.modMx fun m => { m with
      gens := m.gens.modify (s.genIdx p b (ctxOf q) cmd.genSlot) fun _ =>
        { valid := true, readyAt := s.now + 7, desc := s.actRead b (256 * s.unit p b (ctxOf q) cmd.desc) 32 } } := by
  refine ⟨MemReq.reads { due := s.now, port := 2 + c } (256 * s.unit p b (ctxOf q) cmd.desc) 256, ?_⟩
  have hg (rs : List MemReq) := State.genIdx_of_slotMaps ((State.ask_slotMaps _ b rs).trans (s.issue_slotMaps p t b c q cmd (s.now + 7) .time))
  simp only [mgenEffect, State.strike, List.foldl_nil, h, hf, hg]

theorem mgen_fills_slot (h : s.mayIssue b c q 0x13 = some (p, t, cmd)) (hf : s.mgenFault p b q cmd = none)
    (hi : s.genIdx p b (ctxOf q) cmd.genSlot < (s.core b c).mx.gens.length) :
    ∃ u, exec (.mgen b c q []) s = .next u ∧
      (u.core b c).mx.gens.getD (s.genIdx p b (ctxOf q) cmd.genSlot) {} =
        { valid := true, readyAt := s.now + 7, desc := s.actRead b (256 * s.unit p b (ctxOf q) cmd.desc) 32 } ∧ sameBytes s u := by
  obtain ⟨rs, hu⟩ := mgenEffect_of_issues h hf
  have hk := (State.KeepsMatrix.issue s p t b c q cmd (s.now + 7) .time).ask b rs
  refine ⟨_, exec_mgen b c q s, ?_⟩
  rw [hu]
  refine ⟨?_, hk.bytes ..⟩
  obtain ⟨k, hcore, hmx⟩ := hk.core (State.bench_lt_of_mayIssue h) (State.core_lt_of_mayIssue h) s _
  rw [hcore]
  exact getD_modify_same _ _ _ _ (by rw [hmx]; exact hi)

theorem ArraySt.mayGate_of_idle {x : ArraySt} (hg : x.gated = false) (hc : x.carried = false) (hj : 63 ≤ x.jogRun) (hb : x.bus = .free)
    (now : Nat) : x.mayGate now = true := by
  simp [ArraySt.mayGate, hg, hc, hj, hb]

/-- The 64th jog row of an array (R270, R272). -/
theorem arrayGate_gates {a : Nat} (hg : ((s.core b c).array a).gated = false) (hcar : ((s.core b c).array a).carried = false)
    (hj : 63 ≤ ((s.core b c).array a).jogRun) (hbus : ((s.core b c).array a).bus = .free) (he : (s.core b c).mx.jogCmdEnd ≤ s.now) :
    ∃ u, exec (.arrayGate b c a) s = .next u ∧ (u.core b c).array a = { (s.core b c).array a with gated := true, jogRun := 0 } ∧
      (u.core b c).mx.jogCount = satAdd32 (s.core b c).mx.jogCount 1 ∧ sameBytes s u := by
  have hne : ArraySt.gated ((s.core b c).array a) ≠ ArraySt.gated {} := by rw [hg]; decide
  have hk := State.KeepsMatrix.refl s
  have hu : arrayGateEffect b c a s = s.modCore b c fun k => (k.modMx fun m => { m with jogCount := satAdd32 m.jogCount 1 }).modArray a
      fun y => { y with gated := true, jogRun := 0 } :=
    if_pos (Bool.and_eq_true_iff.2 ⟨ArraySt.mayGate_of_idle hg hcar hj hbus s.now, decide_eq_true he⟩)
  refine ⟨_, exec_arrayGate b c a s, ?_⟩
  rw [hu]
  obtain ⟨k, hcore, hmx⟩ := hk.core (State.bench_lt_of_array hne) (State.core_lt_of_array hne) s _
  refine ⟨?_, ?_, hk.bytes ..⟩
  · rw [hcore, ← Core.array_of_mx hmx]
    exact Core.array_modArray _ (by rw [Core.modMx_mx, hmx]; exact Core.lt_of_array hne)
  · rw [hcore, ← hmx]
    rfl

/-- The oldest row that waits enters the feeder queue (R256, R259). -/
theorem feederPush_enters {a : Nat} {r : Nat × Nat × Bytes} {rest : List (Nat × Nat × Bytes)}
    (hp : ((s.core b c).array a).pushes = r :: rest) (hf : ((s.core b c).array a).feeder.length < 64)
    (hv : ((s.core b c).array a).conv = false) :
    ∃ u, exec (.feederPush b c a) s = .next u ∧
      (u.core b c).array a =
        { (s.core b c).array a with pushes := rest, feeder := ((s.core b c).array a).feeder ++ [(false, r.2.2)] } ∧ sameBytes s u := by
  have hne : ArraySt.pushes ((s.core b c).array a) ≠ ArraySt.pushes {} := by rw [hp]; exact List.cons_ne_nil r rest
  have hk := State.KeepsMatrix.refl s
  have hu : s.feederPush b c a = s.modCore b c fun k =>
      (k.modArray a fun y => { y with pushes := rest, feeder := y.feeder ++ [(false, r.2.2)] }).modSlot r.1 fun y =>
        { y with tiles := y.tiles.map fun t => if t.num = r.2.1 then { t with fed := t.fed + 1 } else t } := by
    simp only [State.feederPush, hp, hf, hv, decide_true, Bool.not_false, Bool.and_self, if_true]
  refine ⟨_, exec_feederPush b c a s, ?_⟩
  rw [hu]
  refine ⟨?_, hk.bytes ..⟩
  obtain ⟨k, hcore, hmx⟩ := hk.core (State.bench_lt_of_array hne) (State.core_lt_of_array hne) s _
  rw [hcore, ← Core.array_of_mx hmx]
  exact Core.array_modArray _ (by rw [hmx]; exact Core.lt_of_array hne)

/-- A corrected word of the bank asks for a write slot (R308). -/
theorem rackWriteback_asks {bank : Nat} {w : Nat × Nat × Nat} (h : ((s.bench b).toWriteBack.find? fun x => x.1 = bank) = some w) :
    ∃ t, exec (.rackWriteback b bank) s = .next t ∧ t.bench b = { s.bench b with
        toWriteBack := (s.bench b).toWriteBack.erase w
        reqs := (s.bench b).reqs ++ [{ due := s.now, port := 7, rack := true, row := 2048 * bank + w.2.1, write := true
                                       who := .writeBack bank w.2.1 w.2.2 }] } ∧
      (∀ b', b' ≠ b → t.bench b' = s.bench b') ∧ t.hbm = s.hbm := by
  obtain rfl : w.1 = bank := of_decide_eq_true (List.find?_some h :)
  have hb : b < s.benches.length := State.bench_lt_of (f := Bench.toWriteBack) fun hn => by
    rw [hn] at h
    cases h
  refine ⟨_, exec_rackWriteback b w.1 s, ?_⟩
  have hu : rackWritebackEffect b w.1 s = s.askWriteBack b w := by simp only [rackWritebackEffect, h]
  rw [hu]
  refine ⟨?_, fun b' hne => ?_, settle_hbm ..⟩
  · rw [State.bench_eq_of_benches (settle_benches _ _), State.askWriteBack, State.ask, State.bench_modBench _ _ _ (by simpa using hb),
      State.bench_modBench _ _ _ hb]
  · rw [State.bench_eq_of_benches (settle_benches _ _), State.askWriteBack, State.ask, State.bench_modBench_ne _ _ _ _ hne.symm,
      State.bench_modBench_ne _ _ _ _ hne.symm]

end

/-- Settles O19, command by command. -/
theorem arraysLoadGateAndFeed : Obligations.ArraysLoadGateAndFeed := by
  refine ⟨fun s b c q p t cmd h hf hl => mload_takes_array h hf hl, fun s b j hrow hwin hw hb hc hl =>
    loadStep_takes_tile hrow hwin hw hb hc hl, fun s b c q p t cmd => ⟨mgen_fills_slot, fun a => arrayGate_gates⟩,
    fun s b c a r rest => feederPush_enters, fun s b bank w h => rackWriteback_asks h⟩

end Sys2Proof.Machine
end

section
/-! R245 to R252, R262, R264, R291: streaming commands become jobs, and an input row sends its output row to its unit (O20). -/

namespace Sys2Proof.Machine

theorem exec_mstream (b c q : Nat) (s : State) : exec (.mstream b c q []) s = .next (settle s (mstreamEffect b c q [] s)) := rfl
theorem exec_mconv (b c q : Nat) (s : State) : exec (.mconv b c q []) s = .next (settle s (mconvEffect b c q [] s)) := rfl

/-! ### The arrays that a streaming command names (R245) -/

section
variable {cmd : Cmd}

theorem Cmd.arrays_of_streams (h : cmd.opcode = 0x11 ∨ cmd.opcode = 0x12) :
    cmd.arrays = (List.range 4).filter fun i => bitOf (cmd.a 19 16) i := by
  rcases h with h | h <;> simp [Cmd.arrays, h]

theorem Cmd.arrays_nodup (h : cmd.opcode = 0x11 ∨ cmd.opcode = 0x12) : cmd.arrays.Nodup := by
  rw [Cmd.arrays_of_streams h]
  exact List.nodup_range.filter _

theorem Cmd.lt_of_mem_arrays (h : cmd.opcode = 0x11 ∨ cmd.opcode = 0x12) {a : Nat} (ha : a ∈ cmd.arrays) : a < 4 := by
  rw [Cmd.arrays_of_streams h] at ha
  exact List.mem_range.1 (List.mem_filter.1 ha).1

end

/-! ### The issue of a streaming command (R262, R264, R291) -/

/-- What a streaming command of opcode op is fed from. -/
def Cmd.streamKind (cmd : Cmd) (op : Nat) : JobKind := if op = 0x12 then .conv else if cmd.queueFed then .queue else .preskew

theorem wakeCycles_map (as : List Nat) (f : Nat → ArraySt) : wakeCycles (as.map f) = if as.any fun i => (f i).gated then 16 else 0 := by
  rw [wakeCycles, List.any_map]
  rfl

/-- The cycle from which a streaming command's rows may enter: its arrays wake first (R262). -/
def State.streamFrom (s : State) (b c : Nat) (cmd : Cmd) : Nat :=
  s.now + if cmd.arrays.any fun i => ((s.core b c).array i).gated then 16 else 0

/-- What a streaming command leaves of one of its arrays. -/
def ArraySt.streams (x : ArraySt) (cmd : Cmd) (from_ : Nat) : ArraySt := { x.opened cmd with bus := .stream from_, conv := cmd.conv }

section
variable {s : State} {b c q p op : Nat} {t : Task} {cmd : Cmd}

theorem mstreamEffect_of_issues (h : s.mayIssue b c q 0x11 = some (p, t, cmd))
    (hf : s.streamFault p b q cmd (cmd.arrays.map (s.core b c).array) none = none) :
    mstreamEffect b c q [] s = s.streamIssue p t b c q cmd (if cmd.queueFed then .queue else .preskew) [] := by
  simp only [mstreamEffect, State.strike, List.foldl_nil, h, hf]

theorem mconvEffect_of_issues (h : s.mayIssue b c q 0x12 = some (p, t, cmd))
    (hf : s.streamFault p b q cmd (cmd.arrays.map (s.core b c).array) (s.genAt p b c q cmd) = none) :
    ∃ gens, mconvEffect b c q [] s = s.streamIssue p t b c q cmd .conv gens := by
  simp only [mconvEffect, State.strike, List.foldl_nil, h, hf]
  exact ⟨_, rfl⟩

/-- A streaming command without a fault issues. -/
theorem exec_streams (hop : op = 0x11 ∨ op = 0x12) (h : s.mayIssue b c q op = some (p, t, cmd)) (hf : s.issueFaults p b c q t cmd = false) :
    ∃ gens, exec (if op = 0x11 then .mstream b c q [] else .mconv b c q []) s =
      .next (settle s (s.streamIssue p t b c q cmd (cmd.streamKind op) gens)) := by
  have hopcode := State.opcode_of_mayIssue h
  rcases hop with rfl | rfl
  · have hn : s.streamFault p b q cmd (cmd.arrays.map (s.core b c).array) none = none := by
      simpa [State.issueFaults, hopcode, vectorOps] using hf
    refine ⟨[], (exec_mstream b c q s).trans ?_⟩
    rw [mstreamEffect_of_issues h hn]
    rfl
  · have hn : s.streamFault p b q cmd (cmd.arrays.map (s.core b c).array) (s.genAt p b c q cmd) = none := by
      simpa [State.issueFaults, hopcode, vectorOps] using hf
    obtain ⟨gens, hu⟩ := mconvEffect_of_issues h hn
    refine ⟨gens, (exec_mconv b c q s).trans ?_⟩
    rw [hu]
    rfl

/-- What a job of a bench is known by. -/
def Job.label (j : Job) : Nat × JobKind × Cmd × Nat × Nat := (j.id, j.kind, j.cmd, j.row, j.q)

/-- No rows: the command does no more than end its queue's holds (R287, R291). -/
theorem streamIssue_without_rows (hop : op = 0x11 ∨ op = 0x12) (h : s.mayIssue b c q op = some (p, t, cmd))
    (hl : (s.core b c).mx.arrays.length = 4) (hr : cmd.rowsM = 0) (kind : JobKind) (gens : List (Option Nat)) :
    let u := settle s (s.streamIssue p t b c q cmd kind gens)
    sameBytes s u ∧ (u.bench b).work = (s.bench b).work ∧ ∀ a ∈ cmd.arrays, (u.core b c).array a = ((s.core b c).array a).release q := by
  intro u
  have hk := State.KeepsMatrix.issue s p t b c q cmd s.now .time
  have hu : u = settle s ((s.issue p t b c q cmd s.now .time).rowsNone b c q cmd) := congrArg (settle s) (if_pos hr)
  rw [hu, State.rowsNone]
  refine ⟨hk.bytes .., (State.work_settle_modCore ..).trans (s.issue_work ..), fun a ha => ?_⟩
  have hcmd : cmd.opcode = 0x11 ∨ cmd.opcode = 0x12 := by rwa [State.opcode_of_mayIssue h]
  obtain ⟨k, hcore, hmx⟩ := hk.core (State.bench_lt_of_mayIssue h) (State.core_lt_of_mayIssue h) s _
  rw [hcore, Core.array_modArrays_of_mem (Cmd.arrays_nodup hcmd) ha k (by rw [hmx, hl]; exact Cmd.lt_of_mem_arrays hcmd ha),
    Core.array_of_mx hmx]

/-- With rows, the command becomes a job of its bench and takes its arrays (R248, R249, R262, R264). -/
theorem streamIssue_with_rows (hop : op = 0x11 ∨ op = 0x12) (h : s.mayIssue b c q op = some (p, t, cmd))
    (hl : (s.core b c).mx.arrays.length = 4) (hr : cmd.rowsM ≠ 0) (kind : JobKind) (gens : List (Option Nat)) :
    let u := settle s (s.streamIssue p t b c q cmd kind gens)
    sameBytes s u ∧ (u.bench b).reqs = (s.bench b).reqs ∧
    (u.bench b).jobs.map Job.label = (s.bench b).jobs.map Job.label ++ [((s.bench b).nextJob, kind, cmd, 0, q)] ∧
    ∀ a ∈ cmd.arrays, (u.core b c).array a = ((s.core b c).array a).awake.streams cmd (s.streamFrom b c cmd) := by
  intro u
  have hfrom : s.now + wakeCycles (cmd.arrays.map (s.core b c).array) = s.streamFrom b c cmd := by rw [wakeCycles_map]; rfl
  have hb := State.bench_lt_of_mayIssue h
  have hu : u = settle s (((s.issue p t b c q cmd 0 (.job (s.bench b).nextJob)).addJob b
      (s.newStream p t b c q b c kind cmd (s.streamFrom b c cmd) gens)).streamOn b c cmd (s.streamFrom b c cmd)) := by
    simp only [u, State.streamIssue, if_neg hr, hfrom]
    rfl
  have hk := (State.KeepsMatrix.issue s p t b c q cmd 0 (.job (s.bench b).nextJob)).addJob b
    (s.newStream p t b c q b c kind cmd (s.streamFrom b c cmd) gens)
  have hw := State.work_addJob_issue hb p t c q cmd 0 (.job (s.bench b).nextJob)
    (s.newStream p t b c q b c kind cmd (s.streamFrom b c cmd) gens)
  rw [hu, State.streamOn]
  refine ⟨hk.bytes .., ?_, ?_, fun a ha => ?_⟩
  · exact congrArg (·.2.2) ((State.work_settle_modCore ..).trans hw)
  · refine (congrArg (fun w : List Job × Nat × List MemReq => w.1.map Job.label) ((State.work_settle_modCore ..).trans hw)).trans ?_
    exact List.map_append
  · have hcmd : cmd.opcode = 0x11 ∨ cmd.opcode = 0x12 := by rwa [State.opcode_of_mayIssue h]
    have hn := Cmd.arrays_nodup hcmd
    obtain ⟨k, hcore, hmx⟩ := hk.core hb (State.core_lt_of_mayIssue h) s _
    have hlt : a < k.mx.arrays.length := by rw [hmx, hl]; exact Cmd.lt_of_mem_arrays hcmd ha
    rw [hcore, Core.array_modArrays_of_mem hn ha _ (by rwa [Core.wake_arrays_length]), Core.array_wake_of_mem hn ha k hlt, Core.array_of_mx hmx]
    rfl

/-- ACC_OPEN and ACC_EXP at the issue of a command with rows (R248, R249). -/
theorem ArraySt.opened_of_rows (x : ArraySt) (hr : cmd.rowsM ≠ 0) : x.opened cmd =
    { x with accOpen := if cmd.accMode = 1 then true else if cmd.accMode = 3 then false else x.accOpen
             accExp := if cmd.accMode = 1 then cmd.eX + x.eW else x.accExp } := by
  rw [ArraySt.opened, if_neg hr]
  by_cases h1 : cmd.accMode = 1
  · simp only [if_pos h1]
  · simp only [if_neg h1]
    split <;> rfl

/-- What an issued streaming command leaves of an array. -/
theorem ArraySt.streams_awake (x : ArraySt) (from_ : Nat) (hr : cmd.rowsM ≠ 0) :
    let y := x.awake.streams cmd from_
    y.gated = false ∧ y.held = x.held ∧ y.tile = x.tile ∧ y.acc = x.acc ∧ y.bus = .stream from_ ∧
    y.accOpen = (if cmd.accMode = 1 then true else if cmd.accMode = 3 then false else x.accOpen) ∧
    y.accExp = if cmd.accMode = 1 then cmd.eX + x.eW else x.accExp := by
  rw [ArraySt.streams, ArraySt.opened_of_rows _ hr]
  exact ⟨rfl, rfl, rfl, rfl, rfl, rfl, rfl⟩

end

/-! ### Rows of an accumulator and of the output (R246 to R253) -/

theorem tileRow_length (ws : List (BitVec 16)) (xs acc : List Int) (hacc : acc.length = 128) (hws : ws.length % 128 = 0) :
    (tileRow ws xs acc).length = 128 := by
  induction xs generalizing ws acc with
  | nil => cases ws <;> exact hacc
  | cons x xs ih =>
    cases ws with
    | nil => exact hacc
    | cons w ws =>
      change (tileRow ((w :: ws).drop 128) xs _).length = 128
      have hlen : 128 ≤ (w :: ws).length := by rw [List.length_cons] at hws ⊢; omega
      refine ih _ _ ?_ (by rw [List.length_drop]; omega)
      rw [List.length_zipWith, List.length_take, hacc]
      omega

section
variable {x : ArraySt} (h : x.wf = true)
include h

theorem ArraySt.tile_rows_of_wf : x.tile.length % 128 = 0 := by
  obtain ⟨ht, -⟩ := Bool.and_eq_true_iff.1 h
  rcases (Bool.or_eq_true_iff.1 ht).imp of_decide_eq_true of_decide_eq_true with ht | ht
  · rw [ht, List.length_nil]
  · rw [ht]

theorem ArraySt.accRow_length (i : Nat) : (x.accRow i).length = 128 := by
  obtain ⟨-, ha⟩ := Bool.and_eq_true_iff.1 h
  unfold ArraySt.accRow
  split
  next ws hws =>
    obtain ⟨l₁, l₂, hacc, -⟩ := List.lookup_eq_some_iff.1 hws
    rw [List.length_map]
    exact of_decide_eq_true (List.all_eq_true.1 ha (i, ws) (by rw [hacc]; simp))
  next => exact List.length_replicate

theorem ArraySt.startRow_length (cmd : Cmd) (i : Nat) : (x.startRow cmd i).length = 128 := by
  unfold ArraySt.startRow
  split
  · exact ArraySt.accRow_length h i
  · split
    · rw [List.length_map, List.length_range]
    · exact List.length_replicate

theorem ArraySt.rowSum_length (cmd : Cmd) (j : Nat) (row : List Int) : (x.rowSum cmd j row).length = 128 := by
  rw [ArraySt.rowSum, List.length_map]
  exact tileRow_length _ _ _ (ArraySt.startRow_length h ..) (ArraySt.tile_rows_of_wf h)

/-- An output row is a unit of LX16 mantissas, or four of accumulator words (R251, R252). -/
theorem ArraySt.outRow_length (cmd : Cmd) (e : Int) (j : Nat) (row : List Int) :
    (x.outRow cmd e (x.rowSum cmd j row)).1.length = 256 * if cmd.outLa64 then 4 else 1 := by
  have hs := ArraySt.rowSum_length h cmd j row
  unfold ArraySt.outRow
  split
  · rw [la64Bytes_length, List.length_append, List.length_replicate, List.length_take]
    omega
  · simp only [requantAll, lx16Bytes_length, List.length_append, List.length_replicate, List.length_map, List.length_take]
    omega

end

/-! ### An input row on an array (R245 to R252) -/

section
variable (s : State) (b j due a g : Nat) (e : Int) (row : List Int) (job : Job)

theorem State.saturate_view {β : Type} {view : State → β} (h : ∀ s b c f, view (State.modCore s b c f) = view s) (s : State)
    (b c step kind n : Nat) : view (s.saturate b c step kind n) = view s := by
  unfold State.saturate
  exact view_ite _ rfl (h ..)

/-- The row stays in the accumulators, with no output. -/
theorem State.rowOn_silent (h : job.cmd.accMode ≠ 0 ∧ job.cmd.accMode ≠ 3) : s.rowOn b job j due row (a, g, e) =
    s.modCore job.eb job.ec fun k => k.modArray a fun y =>
      y.setAcc (job.cmd.accBase + j) (((s.core job.eb job.ec).array a).rowSum job.cmd j row) := by
  simp [State.rowOn, h]

/-- The write requests of an output row. -/
def State.rowWrites (s : State) (b j due a g : Nat) (e : Int) (row : List Int) (job : Job) : List MemReq :=
  let x := (s.core job.eb job.ec).array a
  let units := if job.cmd.outLa64 then 4 else 1
  MemReq.writes { due := due, port := job.port, unit := a, who := .job job.id 0 }
    (256 * (s.unit job.p b (ctxOf job.q) job.cmd.dstM + units * (g * job.cmd.rowsM + j)))
    (x.outRow job.cmd e (x.rowSum job.cmd j row)).1

theorem State.rowOn_writes (h : job.cmd.accMode = 0 ∨ job.cmd.accMode = 3) : ∃ f n, s.rowOn b job j due row (a, g, e) =
    ((s.modCore job.eb job.ec f).ask b (s.rowWrites b j due a g e row job)).saturate b job.c job.step 0 n := by
  refine ⟨fun k => k.modArray a fun y => y.setAcc (job.cmd.accBase + j) (((s.core job.eb job.ec).array a).rowSum job.cmd j row),
    (((s.core job.eb job.ec).array a).outRow job.cmd e (((s.core job.eb job.ec).array a).rowSum job.cmd j row)).2, ?_⟩
  unfold State.rowOn
  dsimp -zeta only
  extract_lets cmd x sum u o at_
  have hu : at_ = s.unit job.p b (ctxOf job.q) job.cmd.dstM + (if job.cmd.outLa64 then 4 else 1) * (g * job.cmd.rowsM + j) := by
    rw [Nat.mul_comm _ (g * job.cmd.rowsM + j)]
    exact congrArg (· + _) (State.unit_of_slotMaps (State.modCore_slotMaps ..) ..)
  have hw : ((job.writes due (256 * at_) o.1).map fun r => { r with unit := a }) = s.rowWrites b j due a g e row job := by
    rw [hu, Job.writes, MemReq.writes, List.map_map]
    rfl
  rw [if_pos (by simpa using h), hw]

/-- What neither the cores nor the requests show. -/
theorem State.rowOn_shows {α : Type} {f : Bench → α} (hf : Bench.Coreless f) (hr : ∀ x rs, f { x with reqs := rs } = f x) :
    (s.rowOn b job j due row (a, g, e)).shows f = s.shows f ∧ (s.rowOn b job j due row (a, g, e)).hbm = s.hbm := by
  by_cases h : job.cmd.accMode = 0 ∨ job.cmd.accMode = 3
  · obtain ⟨k, n, hu⟩ := s.rowOn_writes b j due a g e row job h
    rw [hu]
    constructor
    · exact (State.saturate_view (State.modCore_shows hf) ..).trans
        ((State.modBench_shows _ b fun x => hr x _).trans (State.modCore_shows hf ..))
    · exact State.saturate_view (view := State.hbm) (fun _ _ _ _ => rfl) ..
  · rw [s.rowOn_silent b j due a g e row job (not_or.1 h)]
    exact ⟨State.modCore_shows hf .., rfl⟩

theorem State.rowOn_bytes : sameBytes s (s.rowOn b job j due row (a, g, e)) := by
  obtain ⟨hs, hm⟩ := s.rowOn_shows b j due a g e row job (f := Bench.stores) (fun _ _ _ => rfl) fun _ _ => rfl
  exact .of_stores hm hs

/-- Where the accumulation mode writes results, the output row is on its way to its unit. -/
theorem State.rowOn_reqs (h : job.cmd.accMode = 0 ∨ job.cmd.accMode = 3) (hb : b < s.benches.length) :
    ((s.rowOn b job j due row (a, g, e)).bench b).reqs = (s.bench b).reqs ++ s.rowWrites b j due a g e row job := by
  obtain ⟨k, n, hu⟩ := s.rowOn_writes b j due a g e row job h
  have hc : (s.modCore job.eb job.ec k).shows Bench.reqs = s.shows Bench.reqs := State.modCore_shows (fun _ _ _ => rfl) ..
  rw [hu, State.shown_of_shows (State.saturate_view (view := State.shows Bench.reqs) (State.modCore_shows fun _ _ _ => rfl) ..) b,
    State.ask, State.bench_modBench _ _ _ (State.length_of_shows hc ▸ hb), State.shown_of_shows hc b]

end

/-- Settles O20: a streaming command with rows and one without, and an input row of a mode that writes and of one that does not. -/
theorem streamedRowsAtTheirUnits : Obligations.StreamedRowsAtTheirUnits := by
  constructor
  · intro s op b c q p t cmd hop h hf hl
    obtain ⟨gens, hu⟩ := exec_streams hop h hf
    by_cases hr : cmd.rowsM = 0
    · obtain ⟨hbytes, hwork, harrays⟩ := streamIssue_without_rows hop h hl hr (cmd.streamKind op) gens
      obtain ⟨hjobs, -, hreqs⟩ : _ ∧ _ ∧ _ := by simpa only [Bench.work, Prod.mk.injEq] using hwork
      exact ⟨_, hu, hbytes, hreqs, fun _ => ⟨hjobs, harrays⟩, fun hn => absurd hr hn⟩
    · obtain ⟨hbytes, hreqs, hjobs, harrays⟩ := streamIssue_with_rows hop h hl hr (cmd.streamKind op) gens
      refine ⟨_, hu, hbytes, hreqs, fun hz => absurd hz hr, fun _ => ⟨hjobs, fun a ha => ?_⟩⟩
      rw [harrays a ha]
      exact ArraySt.streams_awake _ _ hr
  · intro s b j due a g e row job hb
    refine ⟨s.rowOn_bytes b j due a g e row job, fun hwf hmode => ?_, fun hmode => ?_⟩
    · refine ⟨_, s.rowOn_reqs b j due a g e row job hmode hb, fun r hr => ?_, ArraySt.outRow_length hwf .., MemReq.writesAt_writes _ _ _⟩
      obtain ⟨_, -, rfl⟩ := List.mem_map.1 hr
      exact ⟨rfl, rfl⟩
    · rw [s.rowOn_silent b j due a g e row job (by omega)]
      exact State.shown_of_shows (State.modCore_shows (fun _ _ _ => rfl) ..) b

end Sys2Proof.Machine
end

section
/-! SUPPORT. A partition's way back to its step's start: what it touches, and what its cores hold after it (O29, O60). -/

namespace Sys2Proof.Machine

/-! ### What a partition's run cannot reach -/

/-- HBM, the stores of every bench, and every partition but p. -/
def State.aside (p : Nat) (s : State) : Mem × List (Mem × Mem) × List Part :=
  (s.hbm, s.shows Bench.stores, s.parts.modify p fun _ => {})

section
variable {s t : State} {p : Nat}

theorem State.modPart_aside (s : State) (p : Nat) (f : Part → Part) : (s.modPart p f).aside p = s.aside p := by
  have h : (s.parts.modify p f).modify p (fun _ => {}) = s.parts.modify p fun _ => {} := List.modify_modify_eq ..
  rw [State.aside, State.modPart_parts, h]
  rfl

theorem State.modBench_aside (s : State) (p b : Nat) {g : Bench → Bench} (h : ∀ x, (g x).stores = x.stores) :
    (s.modBench b g).aside p = s.aside p := by
  rw [State.aside, s.modBench_shows b h]
  rfl

theorem State.sameBytes_of_aside (h : t.aside p = s.aside p) : sameBytes s t := by
  obtain ⟨hm, hs, -⟩ : _ ∧ _ ∧ _ := by simpa only [State.aside, Prod.mk.injEq] using h
  exact .of_stores hm hs

theorem State.length_parts_of_aside (h : t.aside p = s.aside p) : t.parts.length = s.parts.length := by
  simpa [State.aside] using congrArg (fun x => x.2.2.length) h

theorem State.part_of_aside (h : t.aside p = s.aside p) {r : Nat} (hr : r ≠ p) : t.part r = s.part r := by
  have hu (u : State) : (u.aside p).2.2.getD r {} = u.part r := getD_modify_ne _ _ _ _ _ (Ne.symm hr)
  rw [← hu, h, hu]

end

/-! ### Where a partition stands: its ring, its shift and its class do not show -/

/-- The counts of a task that a fresh start of its step leaves or moves by one. -/
structure TaskCounts where
  step : Nat
  attempt : Nat
  reruns : Nat
  takeovers : Nat

def Task.counts (t : Task) : TaskCounts := ⟨t.step, t.attempt, t.reruns, t.takeovers⟩

/-- The queues, tallies and credits of a core. -/
abbrev CoreCounts := List Queue × List (Nat × Nat) × List Nat

def Core.counts (k : Core) : CoreCounts := (k.queues, k.tallies, k.credits)

/-- The scratchpad's registers and the counts of the cores. -/
def Bench.counts (x : Bench) : Spd × List CoreCounts := (x.spd, x.cores.map Core.counts)

/-- Where a partition stands: why it stops, its hurdles, its program, its checkpoint and its task's counts. -/
structure Standing where
  stop : Stop
  after : Stop
  hurdles : List Hurdle
  prog : Option Prog
  ckp : Ckp
  counts : Option TaskCounts

def Part.standing (x : Part) : Standing := ⟨x.stop, x.after, x.hurdles, x.prog, x.ckp, x.task.map Task.counts⟩

/-- What p's run cannot reach, the benches' counts, and where p stands. -/
def State.standing (p : Nat) (s : State) : (Mem × List (Mem × Mem) × List Part) × List (Spd × List CoreCounts) × Standing :=
  (s.aside p, s.shows Bench.counts, (s.part p).standing)

/-- An update of the partition that its standing shows as g, on a state that stands as s does but for the benches' counts and x. -/
theorem State.standing_modPart {s u : State} {p : Nat} {f : Part → Part} {g : Standing → Standing}
    {c : List (Spd × List CoreCounts)} {x : Standing} (hu : u.standing p = (s.aside p, c, x))
    (hp : p < s.parts.length) (h : ∀ y, (f y).standing = g y.standing) : (u.modPart p f).standing p = (s.aside p, c, g x) := by
  obtain ⟨ha, hc, hx⟩ : _ ∧ _ ∧ _ := by simpa only [State.standing, Prod.mk.injEq] using hu
  rw [State.standing, u.modPart_aside, State.part_modPart _ _ _ (State.length_parts_of_aside ha ▸ hp), h, ha, hx, ← hc]
  rfl

section
variable (s : State) (p : Nat)

theorem State.modPart_standing {f : Part → Part} (h : ∀ x, (f x).standing = x.standing) : (s.modPart p f).standing p = s.standing p := by
  have hpart : ((s.modPart p f).part p).standing = (s.part p).standing := by
    by_cases hp : p < s.parts.length
    · rw [State.part_modPart _ _ _ hp, h]
    · rw [State.modPart, List.modify_eq_self (Nat.not_lt.1 hp)]
  rw [State.standing, s.modPart_aside, hpart]
  rfl

theorem State.modBench_standing (b : Nat) {g : Bench → Bench} (hs : ∀ x, (g x).stores = x.stores) (hc : ∀ x, (g x).counts = x.counts) :
    (s.modBench b g).standing p = s.standing p := by
  rw [State.standing, s.modBench_aside p b hs, s.modBench_shows b hc]
  rfl

/-- Some benches are updated, which neither their stores nor their counts show. -/
theorem State.foldl_modBench_standing {α : Type} {b : α → Nat} {g : α → Bench → Bench} (hs : ∀ a x, (g a x).stores = x.stores)
    (hc : ∀ a x, (g a x).counts = x.counts) (xs : List α) : (xs.foldl (fun s a => s.modBench (b a) (g a)) s).standing p = s.standing p :=
  foldl_keeps (fun s a => s.modBench_standing p _ (hs a) (hc a)) xs s

theorem State.undoLaps_standing (ns : List CoreSnap) : (s.undoLaps p ns).standing p = s.standing p := by
  refine (State.modPart_standing _ p fun _ => ?_).trans
    ((State.foldl_modBench_standing _ p (fun _ _ => ?_) (fun _ _ => ?_) _).trans
      (State.foldl_modBench_standing s p (fun _ _ => ?_) (fun _ _ => ?_) _)) <;> rfl

theorem State.emptyRing_standing : (s.emptyRing p).standing p = s.standing p := by
  unfold State.emptyRing
  split
  · rfl
  · refine (State.modPart_standing _ p fun _ => ?_).trans (State.foldl_modBench_standing s p (fun _ _ => ?_) (fun _ _ => ?_) _) <;> rfl

theorem State.mark_standing (bit : Nat) : (s.mark p bit).standing p = s.standing p :=
  State.modPart_standing s p fun x => by
    split
    next t ht => rw [Part.standing, Part.standing, ht]; rfl
    next => rfl

theorem Bench.counts_map_cores (x : Bench) {g : Core → Core} (h : ∀ k, (g k).counts = k.counts) :
    { x with cores := x.cores.map g }.counts = x.counts := by
  simp only [Bench.counts, List.map_map, Function.comp_def, h]

theorem State.shiftRun_standing (d : Nat) : (s.shiftRun p d).standing p = s.standing p := by
  refine (State.modPart_standing _ p fun x => ?_).trans
    (State.foldl_modBench_standing s p (fun _ _ => ?_) (fun _ x => x.counts_map_cores fun _ => ?_) _)
  · simp only [Part.standing, Option.map_map]
    rfl
  all_goals rfl

end

/-! ### The cores back at the step's start (R317) -/

/-- One core back at the start of step k: its bench's work is dropped. -/
def State.restartCore (s : State) (k : Nat) (n : CoreSnap) : State :=
  (s.modBench n.bench Bench.dropWork).modCore n.bench n.core fun x => x.restart n k

/-- The cores of a step's snapshots back at its start. -/
def State.restartCores (s : State) (k : Nat) (ns : List CoreSnap) : State := ns.foldl (fun s n => s.restartCore k n) s

/-- What restarted cores leave alone of a bench besides its stores: its scratchpad and the number of its cores. -/
def Bench.shell (x : Bench) : Spd × Nat := (x.spd, x.cores.length)

section
variable (s : State) (k : Nat)

theorem State.restartCore_shell (n : CoreSnap) : (s.restartCore k n).shows Bench.shell = s.shows Bench.shell :=
  (State.modBench_shows _ _ fun x => by simp [Bench.shell]).trans (s.modBench_shows _ fun _ => rfl)

theorem State.restartCores_shell (ns : List CoreSnap) : (s.restartCores k ns).shows Bench.shell = s.shows Bench.shell :=
  foldl_keeps (fun s n => s.restartCore_shell k n) ns s

theorem State.restartCores_parts (ns : List CoreSnap) : (s.restartCores k ns).parts = s.parts :=
  foldl_keeps (f := fun s n => State.restartCore s k n) (fun _ _ => rfl) ns s

theorem State.restartCores_aside (p : Nat) (ns : List CoreSnap) : (s.restartCores k ns).aside p = s.aside p :=
  foldl_keeps (f := fun s n => State.restartCore s k n)
    (fun _ _ => (State.modBench_aside _ p _ fun _ => by rfl).trans (State.modBench_aside _ p _ fun _ => by rfl)) ns s

theorem State.restartCores_standing (p : Nat) (ns : List CoreSnap) : (s.restartCores k ns).standing p =
    (s.aside p, (s.restartCores k ns).shows Bench.counts, (s.part p).standing) := by
  rw [State.standing, s.restartCores_aside, State.part_eq_of_parts (s.restartCores_parts ..)]

variable {s}

theorem State.core_restartCore (n : CoreSnap) (hb : n.bench < s.benches.length) (hc : n.core < (s.bench n.bench).cores.length) :
    (s.restartCore k n).core n.bench n.core = (s.core n.bench n.core).restart n k := by
  have hw : (s.modBench n.bench Bench.dropWork).bench n.bench = (s.bench n.bench).dropWork := s.bench_modBench _ _ hb
  rw [State.restartCore, State.core_modCore _ _ _ _ (by simpa using hb) (by rw [hw]; exact hc), State.core, hw]
  rfl

theorem State.core_restartCore_ne {n : CoreSnap} {b c : Nat} (h : (n.bench, n.core) ≠ (b, c)) :
    (s.restartCore k n).core b c = s.core b c := by
  have hw (r : Nat) : ((s.modBench n.bench Bench.dropWork).bench r).cores = (s.bench r).cores :=
    State.shown_of_shows (f := Bench.cores) (s.modBench_shows n.bench fun _ => by rfl) r
  have hc : ((s.restartCore k n).bench b).core c = ((s.modBench n.bench Bench.dropWork).bench b).core c := by
    by_cases hb : n.bench = b
    · subst hb
      obtain ⟨-, hu⟩ | ⟨-, hu⟩ := (s.modBench n.bench Bench.dropWork).bench_modBench_cases n.bench
          (fun x => x.modCore n.core fun x => x.restart n k) n.bench
      · rw [State.restartCore, State.modCore, hu]
        exact getD_modify_ne _ _ _ _ _ fun hn => h (Prod.ext rfl hn)
      · rw [State.restartCore, State.modCore, hu]
    · rw [State.restartCore, State.modCore, State.bench_modBench_ne _ _ _ _ hb]
  rw [State.core, hc, Bench.core, hw]

theorem State.core_restartCores_of_not_mem {b c : Nat} {ns : List CoreSnap} (h : (b, c) ∉ ns.map fun n => (n.bench, n.core)) (s : State) :
    (s.restartCores k ns).core b c = s.core b c := by
  induction ns generalizing s with
  | nil => rfl
  | cons n ns ih =>
    obtain ⟨hn, hns⟩ := not_or.1 (mt List.mem_cons.2 h)
    change ((s.restartCore k n).restartCores k ns).core b c = _
    rw [ih hns, State.core_restartCore_ne k (Ne.symm hn)]

/-- A core of which the step's start holds one snapshot restarts from it. -/
theorem State.core_restartCores_of_mem {ns : List CoreSnap} (hd : (ns.map fun n => (n.bench, n.core)).Nodup) {n : CoreSnap} (h : n ∈ ns)
    (s : State) (hb : n.bench < s.benches.length) (hc : n.core < (s.bench n.bench).cores.length) :
    (s.restartCores k ns).core n.bench n.core = (s.core n.bench n.core).restart n k := by
  induction ns generalizing s with
  | nil => cases h
  | cons m ns ih =>
    obtain ⟨hm, hd⟩ := List.nodup_cons.1 hd
    change ((s.restartCore k m).restartCores k ns).core n.bench n.core = _
    rcases List.mem_cons.1 h with rfl | h
    · rw [State.core_restartCores_of_not_mem k hm, State.core_restartCore k n hb hc]
    · have hshell := s.restartCore_shell k m
      have hcores : ((s.restartCore k m).bench n.bench).cores.length = (s.bench n.bench).cores.length :=
        congrArg Prod.snd (State.shown_of_shows hshell n.bench)
      rw [ih hd h _ (State.length_of_shows hshell ▸ hb) (hcores ▸ hc),
        State.core_restartCore_ne k fun he => hm (List.mem_map.2 ⟨n, h, he.symm⟩)]

theorem Core.queue_restart (x : Core) (n : CoreSnap) {q : Nat} (h : q < x.queues.length) :
    (x.restart n k).queue q = (x.queue q).restart (n.heads.getD q 0) k (n.ended.getD q false) := by
  simp [Core.queue, Core.restart, h]

end

/-! ### The partition back at the step's start -/

/-- The counts of a task after a buddy load: that of a takeover is counted (R595). -/
def TaskCounts.loaded (kind : Nat) (c : TaskCounts) : TaskCounts :=
  { c with takeovers := if kind = 0 then c.takeovers + 1 else c.takeovers }

/-- The partition at its step's start, with an empty ring and the takeover counted. -/
def State.reloaded (s : State) (p : Nat) (t : Task) (kind : Nat) : State :=
  ((s.backToStep p t (s.now + 1)).emptyRing p).modPart p fun x =>
    { x with task := x.task.map fun u => { u with takeovers := if kind = 0 then u.takeovers + 1 else u.takeovers } }

section
variable {s : State} {p : Nat} (hp : p < s.parts.length)
include hp

/-- Nothing stops the step, its hurdles are the snapshot's, and its task counts as before (R317). -/
theorem State.backToStep_standing (t : Task) (r : Nat) : (s.backToStep p t r).standing p =
    (s.aside p, (s.restartCores t.step t.snaps).shows Bench.counts,
      { (s.part p).standing with stop := .none, after := .none, hurdles := t.hurdleSnap }) := by
  refine State.standing_modPart (g := fun x => { x with stop := .none, after := .none, hurdles := t.hurdleSnap })
    ((State.undoLaps_standing _ p t.snaps).trans (s.restartCores_standing t.step p t.snaps)) hp fun x => ?_
  simp only [Part.standing, Option.map_map]
  rfl

theorem State.reloaded_standing (t : Task) (kind : Nat) : (s.reloaded p t kind).standing p =
    (s.aside p, (s.restartCores t.step t.snaps).shows Bench.counts,
      { (s.part p).standing with
        stop := .none, after := .none, hurdles := t.hurdleSnap, counts := (s.part p).standing.counts.map (·.loaded kind) }) := by
  refine State.standing_modPart (g := fun x => { x with counts := x.counts.map (·.loaded kind) })
    ((State.emptyRing_standing _ p).trans (State.backToStep_standing hp t (s.now + 1))) hp fun x => ?_
  simp only [Part.standing, Option.map_map]
  rfl

end

/-! ### After a buddy load (R463, R595, R596, R600) -/

theorem Task.bitOf_mark (t : Task) (bit : Nat) : bitOf (t.mark bit).mask bit = true := by
  unfold Task.mark
  dsimp only
  split
  next h => exact h
  next h =>
    simp only [bitOf, decide_eq_true_eq] at h ⊢
    rw [Nat.add_div_right _ (Nat.two_pow_pos bit)]
    omega

section
variable (s : State) (p : Nat) (t : Task)

/-- In scheduled mode the run may also shift. -/
theorem State.resumeAfterLoad_cases (kind : Nat) :
    let u := if kind = 0 then (s.reloaded p t kind).mark p 6 else s.reloaded p t kind
    s.resumeAfterLoad p t kind = u ∨ ∃ d, s.resumeAfterLoad p t kind = u.shiftRun p d := by
  unfold State.resumeAfterLoad
  dsimp only
  split
  · split
    · exact .inl rfl
    · exact .inr ⟨_, rfl⟩
  · exact .inl rfl

theorem State.resumeAfterLoad_standing (kind : Nat) : (s.resumeAfterLoad p t kind).standing p = (s.reloaded p t kind).standing p := by
  have hm : (if kind = 0 then (s.reloaded p t kind).mark p 6 else s.reloaded p t kind).standing p = (s.reloaded p t kind).standing p :=
    view_ite _ (State.mark_standing ..) rfl
  obtain h | ⟨d, h⟩ := s.resumeAfterLoad_cases p t kind <;> rw [h]
  · exact hm
  · exact (State.shiftRun_standing ..).trans hm

variable {s p}

theorem State.task_shiftRun (hp : p < s.parts.length) (d : Nat) :
    ((s.shiftRun p d).part p).task = (s.part p).task.map fun t => { t with shift := t.shift + d } := by
  have hparts (f : Core → Core) : (s.modArcCores p f).parts = s.parts := State.modArc_view (view := State.parts) (fun _ _ _ => rfl) s p _
  rw [State.shiftRun, State.part_modPart _ _ _ (hparts _ ▸ hp), State.part_eq_of_parts (hparts _)]

/-- A takeover is a downgrade of the run in progress. -/
theorem State.mask_resumeAfterLoad {v : Task} (hv : (s.part p).task = some v) :
    ((s.resumeAfterLoad p t 0).part p).task.map (fun v => bitOf v.mask 6) = some true := by
  have hp := State.part_lt_of_task hv
  obtain ⟨ha, -, hx⟩ : _ ∧ _ ∧ _ := by simpa only [State.standing, Prod.mk.injEq] using State.reloaded_standing hp t 0
  have hlen := State.length_parts_of_aside ha
  obtain ⟨w, hw⟩ : ∃ w, ((s.reloaded p t 0).part p).task = some w := by
    have hc := congrArg Standing.counts hx
    simp only [Part.standing, hv, Option.map_some] at hc
    obtain ⟨w, hw, -⟩ := Option.map_eq_some_iff.1 hc
    exact ⟨w, hw⟩
  have hm : (((s.reloaded p t 0).mark p 6).part p).task = some (w.mark 6) := by
    rw [State.task_mark_same _ _ _ (hlen ▸ hp), hw, Option.map_some]
  obtain h | ⟨d, h⟩ := s.resumeAfterLoad_cases p t 0 <;> rw [h, if_pos rfl]
  · rw [hm, Option.map_some, Task.bitOf_mark]
  · rw [State.task_shiftRun (State.part_lt_of_task hm), hm, Option.map_some, Option.map_some, Task.bitOf_mark]

end

/-! ### A partition that stands as x -/

/-- State u is s in all that the run of partition p cannot reach, and p stands as x. -/
structure State.Stands (s : State) (p : Nat) (x : Standing) (u : State) : Prop where
  standing : (u.part p).standing = x
  bytes : sameBytes s u
  others : ∀ r, r ≠ p → u.part r = s.part r

section
variable {s u : State} {p : Nat} {x : Standing}

theorem State.stands_of_standing {c : List (Spd × List CoreCounts)} (h : u.standing p = (s.aside p, c, x)) :
    s.Stands p x u := by
  obtain ⟨ha, -, hx⟩ : _ ∧ _ ∧ _ := by simpa only [State.standing, Prod.mk.injEq] using h
  exact ⟨hx, State.sameBytes_of_aside ha, fun _ hr => State.part_of_aside ha hr⟩

theorem State.Stands.settle (h : s.Stands p x u) (a : State) : s.Stands p x (settle a u) := by
  have hp (r : Nat) : (Machine.settle a u).part r = u.part r := State.part_eq_of_parts (settle_parts a u) r
  exact ⟨by rw [hp, h.standing], h.bytes.settle a, fun r hr => by rw [hp, h.others r hr]⟩

theorem State.Stands.modBench (h : s.Stands p x u) (b : Nat) {g : Bench → Bench} (hg : ∀ y, (g y).stores = y.stores) :
    s.Stands p x (u.modBench b g) :=
  ⟨h.standing, h.bytes.trans (State.sameBytes_of_aside (u.modBench_aside p b hg)), h.others⟩

end

end Sys2Proof.Machine
end

section
/-! R317, R318, R463, R562 to R564, R588, R589, R595, R596, R600, R702: the ends of a buddy pause, a clamp and a buddy load, and the rerun
of a step (O29, O60). -/

namespace Sys2Proof.Machine

theorem exec_buddyPauseEnd (p : Nat) (s : State) : exec (.buddyPauseEnd p) s = .next (settle s (buddyPauseEndEffect p s)) := rfl
theorem exec_clampDone (p : Nat) (s : State) : exec (.clampDone p) s = .next (settle s (clampDoneEffect p s)) := rfl
theorem exec_buddyLoadDone (p : Nat) (s : State) : exec (.buddyLoadDone p) s = .next (settle s (buddyLoadDoneEffect p s)) := rfl
theorem exec_stepRerun (p : Nat) (s : State) : exec (.stepRerun p) s = .next (settle s (stepRerunEffect p s)) := rfl

/-! ### BUDDY_PAUSE_END (R588, R589) -/

section
variable {s : State} {p : Nat}

/-- The checkpoint once the dirty pages are in their buddy slots, which are then the current ones (R589). -/
def Ckp.copied (k : Ckp) : Ckp :=
  { k with
    buddySlot1 := k.buddyDirty.foldl (fun xs g => if xs.contains g then xs.erase g else insertSorted g xs) k.buddySlot1
    buddyDirty := [] }

/-- A row of writes to the partition's share of HBM. -/
theorem State.foldl_shareSplice_cases (p : Nat) (off : Nat → Nat) (page : State → Nat → Mem) (xs : List Nat) (s : State) :
    ∃ m, xs.foldl (fun s g => s.shareSplice p (off g) 65536 (page s g)) s = { s with hbm := m } := by
  induction xs generalizing s with
  | nil => exact ⟨s.hbm, rfl⟩
  | cons g xs ih => exact ih (s.shareSplice p (off g) 65536 (page s g))

theorem State.buddyCopy_cases (s : State) (p : Nat) :
    ∃ m, s.buddyCopy p = ({ s with hbm := m } : State).modPart p fun x => { x with ckp := (s.part p).ckp.copied } := by
  obtain ⟨m, hm⟩ := State.foldl_shareSplice_cases p
    (fun g => (s.part p).ckp.buddyAt g (if (s.part p).ckp.buddySlot1.contains g then 0 else 1))
    (fun s g => s.slotPage p (g / slotPages) (g % slotPages)) (s.part p).ckp.buddyDirty s
  refine ⟨m, ?_⟩
  rw [← hm]
  rfl

/-- The step may commit, with nothing dirty. -/
theorem buddyPauseEnd_of_run {e : Nat} {t : Task} (hstop : (s.part p).stop = .pause e) (he : e ≤ s.now) (ht : (s.part p).task = some t)
    (hn : t.paused = false) : ∃ u, exec (.buddyPauseEnd p) s = .next u ∧
      u.part p = { s.part p with task := some { t with paused := true }, ckp := (s.part p).ckp.copied } ∧
      u.benches = s.benches ∧ ∀ r, r ≠ p → u.part r = s.part r := by
  obtain ⟨m, hc⟩ := s.buddyCopy_cases p
  have hu : buddyPauseEndEffect p s = (s.buddyCopy p).modPart p fun x => { x with task := some { t with paused := true } } := by
    simp only [buddyPauseEndEffect, hstop, ht, hn, Nat.not_lt.2 he, if_false, Bool.false_eq_true]
  have hp : p < ({ s with hbm := m } : State).parts.length := State.part_lt_of_task ht
  refine ⟨_, exec_buddyPauseEnd p s, ?_⟩
  rw [hu, hc, State.part_eq_of_parts (settle_parts ..), settle_benches, State.part_modPart _ _ _ (by simpa using hp),
    State.part_modPart _ _ _ hp]
  refine ⟨rfl, rfl, fun r hr => ?_⟩
  rw [State.part_eq_of_parts (settle_parts ..)]
  exact (State.part_modPart_ne _ _ _ _ hr.symm).trans (State.part_modPart_ne _ _ _ _ hr.symm)

end

/-! ### CLAMP_DONE (R562, R564) -/

section
variable {s : State} {p : Nat}

theorem State.ckpEvent_eq (s : State) (p n : Nat) : ∃ r, s.ckpEvent p n =
    { s.modPart p fun x => { x with ckp := { x.ckp with event := setBit x.ckp.event n } } with raised := r } := State.raise_eq ..

theorem State.ckpEvent_aside (s : State) (p n : Nat) : (s.ckpEvent p n).aside p = s.aside p := by
  obtain ⟨_, h⟩ := s.ckpEvent_eq p n
  rw [h]
  exact State.modPart_aside s p _

theorem State.ckpEvent_benches (s : State) (p n : Nat) : (s.ckpEvent p n).benches = s.benches := by
  obtain ⟨_, h⟩ := s.ckpEvent_eq p n
  rw [h]
  rfl

theorem State.part_ckpEvent (hp : p < s.parts.length) (n : Nat) :
    (s.ckpEvent p n).part p = { s.part p with ckp := { (s.part p).ckp with event := setBit (s.part p).ckp.event n } } := by
  obtain ⟨_, h⟩ := s.ckpEvent_eq p n
  rw [h]
  exact State.part_modPart _ _ _ hp

/-- Only a partition that the device has is stopped. -/
theorem State.part_lt_of_stop {x : Stop} (h : (s.part p).stop = x) (hx : x ≠ .none) : p < s.parts.length :=
  State.part_lt_of (f := Part.stop) (h ▸ hx)

/-- The drain of the clamped generation starts at a gate's count, and the partition goes on. -/
def Part.unclamp (x : Part) (count : W64) : Part :=
  { x.proceed with
    state := if x.task.isSome then x.state else .loaded
    ckp := { x.ckp with clamped := none, drain := x.ckp.clamped.map fun d => { d with todo := x.ckp.pending, beat := count } } }

theorem clampDoneEffect_at_gate {e : Nat} (hstop : (s.part p).stop = .clamp (e + 1)) (hg : s.beat.gateOpen = true) (he : e + 1 ≤ s.now)
    (hn : ∀ t, (s.part p).task = some t → t.preempt = false) :
    clampDoneEffect p s = (s.modPart p fun x => x.unclamp s.beat.count).ckpEvent p 0 := by
  have hp := State.part_lt_of_stop hstop Stop.noConfusion
  have htask : (((s.modPart p fun x => x.unclamp s.beat.count).ckpEvent p 0).part p).task = (s.part p).task := by
    rw [State.part_ckpEvent (by simpa using hp), State.part_modPart _ _ _ hp]
    rfl
  unfold Part.unclamp at htask ⊢
  simp only [clampDoneEffect, hstop, hg, Nat.not_lt.2 he, Bool.not_true, decide_false, Bool.or_self, Bool.false_eq_true, if_false, htask]
  split
  next t ht => rw [hn t ht, if_neg Bool.false_ne_true]
  next => rfl

/-- The partition goes on, the clamp's end is raised, and the drain starts. -/
theorem clampDone_at_gate {e : Nat} (hstop : (s.part p).stop = .clamp (e + 1)) (hg : s.beat.gateOpen = true) (he : e + 1 ≤ s.now)
    (hn : ∀ t, (s.part p).task = some t → t.preempt = false) : ∃ u, exec (.clampDone p) s = .next u ∧
      (let x := (s.part p).unclamp s.beat.count
       u.part p = { x with ckp := { x.ckp with event := setBit x.ckp.event 0 } }) ∧
      u.benches = s.benches ∧ u.hbm = s.hbm ∧ ∀ r, r ≠ p → u.part r = s.part r := by
  have hp := State.part_lt_of_stop hstop Stop.noConfusion
  have ha := (State.ckpEvent_aside _ p 0).trans (s.modPart_aside p fun x => x.unclamp s.beat.count)
  refine ⟨_, exec_clampDone p s, ?_⟩
  rw [clampDoneEffect_at_gate hstop hg he hn, State.part_eq_of_parts (settle_parts ..), settle_benches, settle_hbm,
    State.part_ckpEvent (by simpa using hp), State.part_modPart _ _ _ hp]
  refine ⟨rfl, State.ckpEvent_benches .., congrArg Prod.fst ha, fun r hr => ?_⟩
  rw [State.part_eq_of_parts (settle_parts ..), State.part_of_aside ha hr]

end

/-! ### BUDDY_LOAD_DONE (R463, R595, R596, R600, R702) -/

/-- A checkpoint after a buddy load: a shrink's is raised (R600). -/
def Ckp.loaded (k : Ckp) (kind : Nat) : Ckp := if kind = 1 then { k with event := setBit k.event 5 } else k

/-- The load is over: its event is raised, and the partition goes on. -/
def State.loadOver (s : State) (p kind : Nat) : State := (if kind = 1 then s.ckpEvent p 5 else s).modPart p Part.proceed

/-- A partition that no run occupies: with a program it is LOADED. -/
def Part.unoccupied (x : Part) : Part := { x with state := if x.prog.isSome then .loaded else x.state }

section
variable {s : State} {p e kind : Nat}

theorem State.loadOver_aside (s : State) (p kind : Nat) : (s.loadOver p kind).aside p = s.aside p :=
  (State.modPart_aside ..).trans (view_ite _ (State.ckpEvent_aside ..) rfl)

theorem State.part_loadOver (hp : p < s.parts.length) (kind : Nat) :
    (s.loadOver p kind).part p = { (s.part p).proceed with ckp := (s.part p).ckp.loaded kind } := by
  unfold State.loadOver Ckp.loaded
  split
  · rw [State.part_modPart _ _ _ (State.length_parts_of_aside (s.ckpEvent_aside p 5) ▸ hp), State.part_ckpEvent hp]
    rfl
  · exact State.part_modPart _ _ _ hp

variable (hstop : (s.part p).stop = .load e kind) (hafter : (s.part p).after = .none) (he : e ≤ s.now)
include hstop hafter he

theorem buddyLoadDoneEffect_of_run {t : Task} (ht : (s.part p).task = some t) :
    buddyLoadDoneEffect p s = (s.loadOver p kind).resumeAfterLoad p t kind := by
  have hpart := State.part_loadOver (State.part_lt_of_task ht) kind
  have htask : ((s.loadOver p kind).part p).task = some t := by rw [hpart]; exact ht
  have hrec : ((s.loadOver p kind).part p).recovering = false := by rw [hpart, Part.recovering, Part.proceed, hafter]
  unfold State.loadOver at htask hrec ⊢
  simp only [buddyLoadDoneEffect, hstop, Nat.not_lt.2 he, if_false, htask, hrec, Bool.false_eq_true]

/-- A run goes on from its step's start. -/
theorem buddyLoadDone_of_run {t : Task} (ht : (s.part p).task = some t) : ∃ u, exec (.buddyLoadDone p) s = .next u ∧
    s.Stands p { (s.part p).standing with
      stop := .none, after := .none, hurdles := t.hurdleSnap, ckp := (s.part p).ckp.loaded kind, counts := some (t.counts.loaded kind) } u ∧
    (kind = 0 → (u.part p).task.map (fun v => bitOf v.mask 6) = some true) := by
  have hpart := State.part_loadOver (State.part_lt_of_task ht) kind
  have htask : ((s.loadOver p kind).part p).task = some t := by rw [hpart]; exact ht
  have hx := (State.resumeAfterLoad_standing (s.loadOver p kind) p t kind).trans
    (State.reloaded_standing (State.part_lt_of_task htask) t kind)
  rw [s.loadOver_aside, Part.standing, htask, hpart] at hx
  refine ⟨_, exec_buddyLoadDone p s, ?_⟩
  rw [buddyLoadDoneEffect_of_run hstop hafter he ht]
  refine ⟨(State.stands_of_standing hx).settle s, fun hk => ?_⟩
  subst hk
  rw [State.part_eq_of_parts (settle_parts ..), State.mask_resumeAfterLoad t htask]

/-- Without a run a partition with a program is LOADED again. -/
theorem buddyLoadDone_of_no_run (ht : (s.part p).task = none) : ∃ u, exec (.buddyLoadDone p) s = .next u ∧
    s.Stands p { (s.part p).standing with stop := .none, after := .none, ckp := (s.part p).ckp.loaded kind } u ∧
    ((s.part p).prog.isSome = true → (u.part p).state = .loaded) := by
  have hp := State.part_lt_of_stop hstop Stop.noConfusion
  have hpart := State.part_loadOver hp kind
  have hlen := State.length_parts_of_aside (s.loadOver_aside p kind)
  have htask : ((s.loadOver p kind).part p).task = none := by rw [hpart]; exact ht
  have hu : buddyLoadDoneEffect p s = (s.loadOver p kind).modPart p Part.unoccupied := by
    unfold State.loadOver at htask ⊢
    simp only [buddyLoadDoneEffect, hstop, Nat.not_lt.2 he, if_false, htask]
    rfl
  have ha := (State.modPart_aside _ p Part.unoccupied).trans (s.loadOver_aside p kind)
  have hx := State.part_modPart (s.loadOver p kind) p Part.unoccupied (hlen ▸ hp)
  rw [hpart] at hx
  refine ⟨_, exec_buddyLoadDone p s, ?_⟩
  rw [hu]
  refine ⟨State.Stands.settle ⟨?_, State.sameBytes_of_aside ha, fun r hr => State.part_of_aside ha hr⟩ s, fun hg => ?_⟩
  · rw [hx, Part.unoccupied, Part.standing, Part.standing, Part.proceed, hafter]
  · rw [State.part_eq_of_parts (settle_parts ..), hx]
    exact if_pos hg

end

/-! ### STEP_RERUN (R317, R318) -/

/-- The bench that showed the error counts the rerun. -/
def Bench.reran (x : Bench) : Bench := { x with spd := { x.spd with reruns := satAdd32 x.spd.reruns 1 } }

/-- The counts of a task whose step runs again. -/
def TaskCounts.rerun (c : TaskCounts) : TaskCounts := { c with attempt := c.attempt + 1, reruns := c.reruns + 1 }

theorem State.core_counts_of {s u : State} {b : Nat} (h : (u.bench b).counts.2 = (s.bench b).counts.2) (c : Nat) :
    (u.core b c).counts = (s.core b c).counts :=
  calc (u.core b c).counts = (u.bench b).counts.2.getD c (Core.counts {}) := (List.getD_map ..).symm
    _ = (s.bench b).counts.2.getD c (Core.counts {}) := by rw [h]
    _ = (s.core b c).counts := List.getD_map ..

section
variable {s : State} {p b : Nat} {t : Task} (hstop : (s.part p).stop = .rerun b) (ht : (s.part p).task = some t) (hi : s.partIdle p = true)
include hstop ht hi

theorem stepRerunEffect_of_idle : ∃ u : State, stepRerunEffect p s = u.modBench b Bench.reran ∧ u.standing p =
    (s.aside p, (s.restartCores t.step t.snaps).shows Bench.counts,
      { (s.part p).standing with stop := .none, after := .none, hurdles := t.hurdleSnap, counts := some t.counts.rerun }) := by
  have hp := State.part_lt_of_task ht
  unfold stepRerunEffect
  simp only [hstop, ht, hi, Bool.not_true, Bool.false_eq_true, if_false]
  refine ⟨_, rfl, ?_⟩
  have hb := State.backToStep_standing hp t (s.now + 1)
  have hs (d : Nat) := view_ite (view := State.standing p) (t.credit = true) hb ((State.shiftRun_standing _ p d).trans hb)
  have hm (d : Nat) := view_ite (view := State.standing p) (t.credit = true) (hs d) ((State.mark_standing _ p 5).trans (hs d))
  refine (State.standing_modPart (g := fun x => { x with counts := x.counts.map TaskCounts.rerun }) (hm _) hp fun x => ?_).trans ?_
  · simp only [Part.standing, Option.map_map]
    rfl
  · rw [Part.standing, ht]
    rfl

/-- The step is in work again, its cores as they were at its start. -/
theorem stepRerun_of_idle : ∃ u, exec (.stepRerun p) s = .next u ∧
    s.Stands p { (s.part p).standing with stop := .none, after := .none, hurdles := t.hurdleSnap, counts := some t.counts.rerun } u ∧
    (b < s.benches.length → (u.bench b).spd.reruns = satAdd32 (s.bench b).spd.reruns 1) ∧
    ∀ r c, (u.core r c).counts = ((s.restartCores t.step t.snaps).core r c).counts := by
  obtain ⟨w, hu, hw⟩ := stepRerunEffect_of_idle hstop ht hi
  obtain ⟨-, hcounts, -⟩ : _ ∧ _ ∧ _ := by simpa only [State.standing, Prod.mk.injEq] using hw
  have hshell := s.restartCores_shell t.step t.snaps
  refine ⟨_, exec_stepRerun p s, ?_⟩
  rw [hu]
  have hreran : (w.modBench b Bench.reran).shows (fun x => x.counts.2) = w.shows fun x => x.counts.2 := w.modBench_shows b fun _ => rfl
  have hstands := ((State.stands_of_standing hw).modBench b (g := Bench.reran) fun _ => rfl).settle s
  refine ⟨hstands, fun hb => ?_, fun r c => State.core_counts_of ?_ c⟩
  · have hspd : (w.bench b).spd = (s.bench b).spd :=
      (congrArg Prod.fst (State.shown_of_shows hcounts b)).trans (congrArg Prod.fst (State.shown_of_shows hshell b))
    have hlen := (State.length_of_shows hcounts).trans (State.length_of_shows hshell)
    rw [State.bench_eq_of_benches (settle_benches ..), State.bench_modBench _ _ _ (hlen ▸ hb), Bench.reran, hspd]
  · rw [State.bench_eq_of_benches (settle_benches ..)]
    exact (State.shown_of_shows hreran r).trans (congrArg Prod.snd (State.shown_of_shows hcounts r))

end

/-! ### The statements -/

/-- What the counts of a task say, where a statement names some of them. -/
theorem Part.task_of_standing {α : Type} {x : Part} {c : TaskCounts} (h : x.standing.counts = some c) {f : Task → α} {g : TaskCounts → α}
    (hf : ∀ v : Task, f v = g v.counts) : x.task.map f = some (g c) := by
  obtain ⟨v, hv, rfl⟩ := Option.map_eq_some_iff.1 h
  rw [hv, Option.map_some, hf]

/-- Settles O29: the end of each wait is the statement about its command, read off field by field. -/
theorem pausesClampsLoadsAndReruns : Obligations.PausesClampsLoadsAndReruns := by
  refine ⟨fun s p => ⟨fun e t hstop he ht hn => ?_, fun e hstop hafter hg he hpre => ?_⟩,
    fun s p e k hstop hafter he => ⟨fun t ht => ?_, fun ht hprog => ?_⟩, fun s p b t hstop ht hi => ?_⟩
  · obtain ⟨u, hu, hp, hb, -⟩ := buddyPauseEnd_of_run hstop he ht hn
    exact ⟨u, hu, by rw [hp]; rfl, by rw [hp], fun b => by rw [State.bench_eq_of_benches hb]; exact ⟨rfl, rfl⟩⟩
  · have hn (t : Task) (ht : (s.part p).task = some t) : t.preempt = false :=
      Bool.eq_false_iff.2 fun h => hpre (by rw [ht, Option.map_some, h])
    obtain ⟨u, hu, hp, hb, hm, -⟩ := clampDone_at_gate hstop hg he hn
    refine ⟨u, hu, ?_⟩
    rw [hp]
    exact ⟨hafter, getLsbD_setBit_self _ (by decide), rfl, rfl, .of_stores hm (by rw [State.shows, hb]; rfl)⟩
  · obtain ⟨u, hu, h, hmask⟩ := buddyLoadDone_of_run hstop hafter he ht
    have hcounts := congrArg Standing.counts h.standing
    refine ⟨u, hu, congrArg Standing.stop h.standing, Part.task_of_standing hcounts (g := fun c => (c.step, c.takeovers)) fun _ => rfl,
      hmask, fun hk => ?_, h.bytes⟩
    have hckp : (u.part p).ckp = (s.part p).ckp.loaded k := congrArg Standing.ckp h.standing
    rw [hckp, Ckp.loaded, if_pos hk]
    exact getLsbD_setBit_self _ (by decide)
  · obtain ⟨u, hu, h, hstate⟩ := buddyLoadDone_of_no_run hstop hafter he ht
    exact ⟨u, hu, congrArg Standing.stop h.standing, hstate hprog, h.bytes⟩
  · obtain ⟨u, hu, h, -, hcores⟩ := stepRerun_of_idle hstop ht hi
    have hcounts := congrArg Standing.counts h.standing
    refine ⟨u, hu, congrArg Standing.stop h.standing,
      Part.task_of_standing hcounts (g := fun c => (c.step, c.attempt, c.reruns)) fun _ => rfl,
      congrArg Standing.hurdles h.standing, fun hd n hn hb hc => ?_, h.bytes⟩
    have hcore := hcores n.bench n.core
    rw [State.core_restartCores_of_mem t.step hd hn s hb hc] at hcore
    obtain ⟨hqueues, htallies, hcredits⟩ : _ ∧ _ ∧ _ := by simpa only [Core.counts, Prod.mk.injEq] using hcore
    refine ⟨htallies, hcredits, fun q hq => ?_⟩
    have hqueue : u.queue n.bench n.core q = ((s.core n.bench n.core).restart n t.step).queue q := by
      rw [State.queue, Core.queue, hqueues, Core.queue]
    rw [hqueue, Core.queue_restart t.step _ n hq]
    rfl

/-- Settles O60: the same four ends, with the frame that each of them gives. -/
theorem waitsOfAPartitionEnd : Obligations.WaitsOfAPartitionEnd := by
  refine fun s p _ => ⟨fun e t hstop he ht hn => ?_, fun e hstop hafter hg he hn => ?_, fun e k hstop hafter he => ?_,
    fun b t hstop ht hi => ?_⟩
  · obtain ⟨u, hu, hp, hb, ho⟩ := buddyPauseEnd_of_run hstop he ht hn
    exact ⟨u, hu, by rw [hp]; exact hstop, by rw [hp], by rw [hp]; rfl, by rw [hp]; rfl, hb, ho⟩
  · obtain ⟨u, hu, hp, hb, hm, ho⟩ := clampDone_at_gate hstop hg he hn
    refine ⟨u, hu, ?_⟩
    rw [hp]
    exact ⟨hafter, rfl, rfl, rfl, rfl, hb, hm, ho⟩
  · cases ht : (s.part p).task with
    | none =>
      obtain ⟨u, hu, h, -⟩ := buddyLoadDone_of_no_run hstop hafter he ht
      have hcounts : (u.part p).task.map Task.counts = (s.part p).task.map Task.counts := congrArg Standing.counts h.standing
      rw [ht, Option.map_none, Option.map_eq_none_iff] at hcounts
      exact ⟨u, hu, congrArg Standing.stop h.standing, by rw [hcounts], congrArg Standing.prog h.standing, h.bytes, h.others⟩
    | some t =>
      obtain ⟨u, hu, h, -⟩ := buddyLoadDone_of_run hstop hafter he ht
      exact ⟨u, hu, congrArg Standing.stop h.standing,
        Part.task_of_standing (congrArg Standing.counts h.standing) (g := TaskCounts.step) fun _ => rfl,
        congrArg Standing.prog h.standing, h.bytes, h.others⟩
  · obtain ⟨u, hu, h, hreruns, -⟩ := stepRerun_of_idle hstop ht hi
    have hcounts := congrArg Standing.counts h.standing
    exact ⟨u, hu, congrArg Standing.stop h.standing, congrArg Standing.after h.standing,
      Part.task_of_standing hcounts (g := TaskCounts.step) fun _ => rfl,
      Part.task_of_standing hcounts (g := TaskCounts.attempt) fun _ => rfl, hreruns, h.bytes, h.others⟩

end Sys2Proof.Machine
end

section
/-! SUPPORT. What a function of a core shows of every core besides the stores, and what updates leave of it (O21 to O25). -/

namespace Sys2Proof.Machine

/-! ### Views of the cores -/

/-- The stores of a bench, and what v shows of its cores. -/
def Bench.coreView {α : Type} (v : Core → α) (x : Bench) : (Mem × Mem) × List α := (x.stores, x.cores.map v)

/-- HBM, the stores of every bench, and what v shows of every core. -/
def State.coreView {α : Type} (v : Core → α) (s : State) : Mem × List ((Mem × Mem) × List α) := (s.hbm, s.shows (Bench.coreView v))

section
variable {α β : Type} {v : Core → α} {s t : State}

theorem State.coreView_of (hm : t.hbm = s.hbm) (hb : t.benches = s.benches) : t.coreView v = s.coreView v := by
  rw [State.coreView, State.shows, hm, hb]
  rfl

theorem State.modBench_coreView (s : State) (b : Nat) {g : Bench → Bench} (h : ∀ x, (g x).coreView v = x.coreView v) :
    (s.modBench b g).coreView v = s.coreView v := congrArg (Prod.mk s.hbm) (s.modBench_shows b h)

/-- An update of a core that v does not see. -/
theorem State.modCore_coreView (s : State) (b c : Nat) {f : Core → Core} (h : ∀ k, v (f k) = v k) :
    (s.modCore b c f).coreView v = s.coreView v := by
  refine s.modBench_coreView b fun x => congrArg (Prod.mk x.stores) (List.ext_getElem (by simp) fun i _ _ => ?_)
  simp only [List.getElem_map, Bench.modCore_cores, List.getElem_modify]
  split
  · exact h _
  · rfl

section
variable (v)

@[simp] theorem State.raise_coreView (s : State) (key n : Nat) : (s.raise key n).coreView v = s.coreView v := State.coreView_of (by simp) (by simp)
@[simp] theorem State.abort_coreView (s : State) (p : Nat) (e : Ending) : (s.abort p e).coreView v = s.coreView v := rfl
@[simp] theorem State.ask_coreView (s : State) (b : Nat) (rs : List MemReq) : (s.ask b rs).coreView v = s.coreView v :=
  s.modBench_coreView b fun _ => rfl

end

/-- The device has the core. -/
structure State.HasCore (s : State) (b c : Nat) : Prop where
  bench : b < s.benches.length
  core : c < (s.bench b).cores.length

/-! ### What an unchanged view means -/

section
variable (h : t.coreView v = s.coreView v)
include h

theorem State.shows_of_coreView : t.shows (Bench.coreView v) = s.shows (Bench.coreView v) := congrArg Prod.snd h

theorem sameBytes.of_coreView : sameBytes s t := by
  have hs (u : State) : u.shows Bench.stores = (u.shows (Bench.coreView v)).map Prod.fst := by
    rw [State.shows, State.shows, List.map_map]
    rfl
  exact .of_stores (congrArg Prod.fst h) (by rw [hs, hs, State.shows_of_coreView h])

theorem State.core_of_coreView (b c : Nat) : v (t.core b c) = v (s.core b c) := by
  have hb : (t.bench b).cores.map v = (s.bench b).cores.map v := congrArg Prod.snd (State.shown_of_shows (State.shows_of_coreView h) b)
  calc v (t.core b c) = ((t.bench b).cores.map v).getD c (v {}) := (List.getD_map ..).symm
    _ = ((s.bench b).cores.map v).getD c (v {}) := by rw [hb]
    _ = v (s.core b c) := List.getD_map ..

theorem State.HasCore.of_coreView {b c : Nat} (hp : s.HasCore b c) : t.HasCore b c where
  bench := State.length_of_shows (State.shows_of_coreView h) ▸ hp.bench
  core := by
    have hl := congrArg (fun y => y.2.length) (State.shown_of_shows (State.shows_of_coreView h) b)
    simp only [Bench.coreView, List.length_map] at hl
    exact hl ▸ hp.core

end

theorem State.HasCore.core_modCore {b c : Nat} (hp : s.HasCore b c) (f : Core → Core) : (s.modCore b c f).core b c = f (s.core b c) :=
  State.core_modCore _ _ _ _ hp.bench hp.core

theorem State.HasCore.modCore {b c : Nat} (hp : s.HasCore b c) (x y : Nat) (f : Core → Core) : (s.modCore x y f).HasCore b c :=
  hp.of_coreView (v := fun _ => ()) (s.modCore_coreView x y fun _ => rfl)

theorem State.HasCore.modSlot {b c : Nat} (hp : s.HasCore b c) (x y i : Nat) (f : Slot → Slot) : (s.modSlot x y i f).HasCore b c := hp.modCore x y _

/-- Steps that v does not see follow the update of a core. -/
theorem State.core_of_coreView_modCore {b c : Nat} {f : Core → Core} (h : t.coreView v = (s.modCore b c f).coreView v)
    (hp : s.HasCore b c) : v (t.core b c) = v (f (s.core b c)) := by
  rw [State.core_of_coreView h, hp.core_modCore]

theorem sameBytes.modCore (s : State) (b c : Nat) (f : Core → Core) : sameBytes s (s.modCore b c f) :=
  .of_coreView (v := fun _ => ()) (s.modCore_coreView b c fun _ => rfl)

@[simp] theorem State.core_settle (a s : State) (b c : Nat) : (settle a s).core b c = s.core b c := by
  rw [State.core, State.bench_eq_of_benches (settle_benches ..)]

end

/-! ### Cores and slots that the device has -/

section
variable {α : Type} {s : State} {b c i : Nat}

/-- What only a core that the device has can hold. -/
theorem State.hasCore_of {f : Core → α} (h : f (s.core b c) ≠ f {}) : s.HasCore b c := by
  refine ⟨State.bench_lt_of (f := fun x => f (x.core c)) (by rwa [Bench.core_default]), ?_⟩
  by_contra hc
  exact h (congrArg f (List.getD_eq_default _ _ (Nat.not_lt.1 hc)))

theorem State.hasCore_of_mayIssue {q op p : Nat} {t : Task} {cmd : Cmd} (h : s.mayIssue b c q op = some (p, t, cmd)) : s.HasCore b c :=
  ⟨State.bench_lt_of_mayIssue h, State.core_lt_of_mayIssue h⟩

theorem Core.slot_default (i : Nat) : ({} : Core).slot i = {} := by
  rw [Core.slot, List.getD, List.getElem?_replicate]
  split <;> rfl

/-- What only a slot that the device has can hold. -/
theorem State.hasCore_of_slot {f : Slot → α} (h : f ((s.core b c).slot i) ≠ f {}) :
    s.HasCore b c ∧ i < (s.core b c).dma.slots.length := by
  refine ⟨State.hasCore_of (f := fun k => f (k.slot i)) (by rwa [Core.slot_default]), ?_⟩
  by_contra hi
  exact h (congrArg f (List.getD_eq_default _ _ (Nat.not_lt.1 hi)))

end

section
variable {k l : Core} {i : Nat}

theorem Core.slot_modSlot (f : Slot → Slot) (h : i < k.dma.slots.length) : (k.modSlot i f).slot i = f (k.slot i) := getD_modify_same _ _ _ _ h

theorem State.HasCore.slot_modSlot {s : State} {b c : Nat} (hp : s.HasCore b c) (f : Slot → Slot) (h : i < (s.core b c).dma.slots.length) :
    ((s.modSlot b c i f).core b c).slot i = f ((s.core b c).slot i) := by
  rw [State.modSlot, hp.core_modCore, Core.slot_modSlot f h]

theorem State.HasCore.slots_length_modSlot {s : State} {b c : Nat} (hp : s.HasCore b c) (f : Slot → Slot) :
    ((s.modSlot b c i f).core b c).dma.slots.length = (s.core b c).dma.slots.length := by
  rw [State.modSlot, hp.core_modCore]
  exact List.length_modify ..

theorem Core.slot_of_dma (h : k.dma = l.dma) (i : Nat) : k.slot i = l.slot i := by rw [Core.slot, h]

end

/-! ### What changes the benches only -/

/-- All of the state but the benches. -/
def State.offBenches (s : State) : State := { s with benches := [] }

section
variable {s t : State}

theorem State.parts_of_offBenches (h : t.offBenches = s.offBenches) : t.parts = s.parts := (congrArg State.parts h :)

theorem State.benchPart_of_offBenches (h : t.offBenches = s.offBenches) (b : Nat) : t.benchPart b = s.benchPart b :=
  (congrArg (·.benchPart b) h :)

end

/-! ### Aborts (R397) -/

/-- The partition runs a task that neither an abort nor a clamp has stopped yet. -/
structure Part.Abortable (x : Part) : Prop where
  task : x.task.isSome = true
  abort : ∀ e, x.stop ≠ .abort e
  clamp : ∀ n, x.stop ≠ .clamp n

theorem State.abortable_of_dmaRuns {s : State} {p : Nat} (h : s.dmaRuns p = true) (ht : (s.part p).task.isSome = true)
    (hc : (s.part p).clamping = false) : (s.part p).Abortable := by
  refine ⟨ht, fun e he => ?_, fun n hn => ?_⟩
  · simp only [State.dmaRuns, he, Bool.and_false, Bool.false_eq_true] at h
  · simp only [Part.clamping, hn, Bool.true_eq_false] at hc

theorem State.stop_abort {s : State} {p : Nat} (hp : p < s.parts.length) (h : (s.part p).Abortable) (e : Ending) :
    ((s.abort p e).part p).stop = .abort e := by
  obtain ⟨t, ht⟩ := Option.isSome_iff_exists.1 h.task
  rw [State.abort, State.part_modPart _ _ _ hp]
  cases hs : (s.part p).stop with
  | abort e' => exact absurd hs (h.abort e')
  | clamp n => exact absurd hs (h.clamp n)
  | _ => simp only [ht]

end Sys2Proof.Machine
end

section
/-! R359 to R367: SSTART, SREARM and SDRAIN change their slot, and a DOWEL joins the dowel queue (O21). -/

namespace Sys2Proof.Machine

theorem exec_sstart (b c q : Nat) (s : State) : exec (.sstart b c q) s = .next (settle s (sstartEffect b c q s)) := rfl
theorem exec_srearm (b c q : Nat) (s : State) : exec (.srearm b c q) s = .next (settle s (srearmEffect b c q s)) := rfl
theorem exec_sdrain (b c q : Nat) (s : State) : exec (.sdrain b c q) s = .next (settle s (sdrainEffect b c q s)) := rfl
theorem exec_dowel (b c q : Nat) (s : State) : exec (.dowel b c q []) s = .next (settle s (dowelEffect b c q [] s)) := rfl

/-! ### What an issue leaves of the DMA engines -/

theorem Core.issued_dma (k : Core) (now q : Nat) (t : Task) (cmd : Cmd) : (k.issued now q t cmd).dma = k.dma :=
  view_ite (view := Core.dma) _ rfl rfl

theorem State.modQueue_dma (s : State) (b c q : Nat) (f : Queue → Queue) : (s.modQueue b c q f).coreView Core.dma = s.coreView Core.dma :=
  s.modCore_coreView b c fun _ => rfl

theorem State.acknowledge_dma (s : State) (p b c q h : Nat) : (s.acknowledge p b c q h).coreView Core.dma = s.coreView Core.dma := by
  unfold State.acknowledge
  extract_lets a step t
  have ht : t.coreView Core.dma = s.coreView Core.dma := s.modQueue_dma b c q _
  exact view_ite _ ht ht

theorem State.issue_dma (s : State) (p : Nat) (t : Task) (b c q : Nat) (cmd : Cmd) (doneAt : Nat) (on : Until) :
    (s.issue p t b c q cmd doneAt on).coreView Core.dma = s.coreView Core.dma := by
  unfold State.issue
  extract_lets late noted marked i charged freed
  have h2 : marked.coreView Core.dma = s.coreView Core.dma := view_ite _ rfl rfl
  have h3 : charged.coreView Core.dma = s.coreView Core.dma := (State.modCore_coreView _ b c fun k => by
    rw [Core.issued_dma]
    exact view_ite (view := Core.dma) _ rfl rfl).trans h2
  have h4 : freed.coreView Core.dma = s.coreView Core.dma := view_ite _ ((State.acknowledge_dma ..).trans h3) h3
  exact (State.modQueue_dma ..).trans h4

/-! ### Slots at rest (R364) -/

/-- What the streams of a core hold, and the signals that wait. -/
def Core.streams (k : Core) : Dma × List Signal := (k.dma, k.signals)

/-- The slot drains or is not persistent, and all that it is to start has landed. -/
def Slot.done (x : Slot) : Bool :=
  x.busy && ((x.draining && x.started = x.landed) || (!x.persistent && x.armBase + x.count ≤ x.landed))

/-- The slot, idle once it is done. -/
def Slot.rested (x : Slot) : Slot := if x.done then x.quiet else x

section
variable {s : State} {b c i : Nat}

theorem State.settleOn_streams (s : State) (b c : Nat) (u : Until) (at_ : Nat) :
    (s.settleOn b c u at_).coreView Core.streams = s.coreView Core.streams := s.modCore_coreView b c fun _ => rfl

/-- Commands that wait for the slot complete, and the slot is idle. -/
theorem State.slotIdle_streams (s : State) (b c i : Nat) : ∃ t : State, t.coreView Core.streams = s.coreView Core.streams ∧
    s.slotIdle b c i = t.modSlot b c i Slot.quiet :=
  ⟨_, (State.settleOn_streams ..).trans ((State.settleOn_streams ..).trans (State.settleOn_streams ..)), rfl⟩

theorem State.slotRest_of_done (h : ((s.core b c).slot i).done = true) : s.slotRest b c i = s.slotIdle b c i := if_pos h
theorem State.slotRest_of_not_done (h : ((s.core b c).slot i).done = false) : s.slotRest b c i = s := if_neg (Bool.eq_false_iff.1 h)

theorem State.slot_slotRest (hp : s.HasCore b c) (hi : i < (s.core b c).dma.slots.length) :
    ((s.slotRest b c i).core b c).slot i = ((s.core b c).slot i).rested := by
  rw [Slot.rested]
  cases hd : ((s.core b c).slot i).done with
  | true =>
    obtain ⟨t, ht, hu⟩ := s.slotIdle_streams b c i
    have hdma : (t.core b c).dma = (s.core b c).dma := congrArg Prod.fst (State.core_of_coreView ht b c)
    rw [State.slotRest_of_done hd, hu, (hp.of_coreView ht).slot_modSlot _ (hdma ▸ hi), Core.slot_of_dma hdma]
    rfl
  | false =>
    rw [State.slotRest_of_not_done hd]
    rfl

theorem State.slotRest_bytes (s : State) (b c i : Nat) : sameBytes s (s.slotRest b c i) := by
  unfold State.slotRest
  extract_lets x
  split
  · obtain ⟨t, ht, hu⟩ := s.slotIdle_streams b c i
    rw [hu]
    exact (sameBytes.of_coreView ht).trans (.modCore ..)
  · exact .refl s

end

/-! ### SSTART, SREARM, SDRAIN (R359 to R364) -/

section
variable {s : State} {b c q p op : Nat} {t : Task} {cmd : Cmd}

section
variable (h : s.mayIssue b c q op = some (p, t, cmd)) (doneAt : Nat) (on : Until)
include h

theorem State.hasCore_issue : (s.issue p t b c q cmd doneAt on).HasCore b c := (State.hasCore_of_mayIssue h).of_coreView (s.issue_dma ..)

/-- A command issues and changes a slot. -/
theorem State.slot_modSlot_issue {i : Nat} (hi : i < (s.core b c).dma.slots.length) (f : Slot → Slot) :
    (((s.issue p t b c q cmd doneAt on).modSlot b c i f).core b c).slot i = f ((s.core b c).slot i) := by
  have hdma := State.core_of_coreView (s.issue_dma p t b c q cmd doneAt on) b c
  rw [(State.hasCore_issue h doneAt on).slot_modSlot _ (hdma ▸ hi), Core.slot_of_dma hdma]

end

theorem State.sameBytes_modCore_issue (s : State) (p : Nat) (t : Task) (b c q : Nat) (cmd : Cmd) (doneAt : Nat) (on : Until) (f : Core → Core) :
    sameBytes s ((s.issue p t b c q cmd doneAt on).modCore b c f) :=
  (sameBytes.of_coreView (s.issue_dma p t b c q cmd doneAt on)).trans (.modCore ..)

section
variable {i : Nat} (hn : s.slotIdx p b (ctxOf q) (cmd.a 5 0) = i) (hi : i < (s.core b c).dma.slots.length)
include hn hi

theorem arms_of_sstart (h : s.mayIssue b c q 0xA0 = some (p, t, cmd)) (hf : s.sstartCause p b c q t cmd = none) :
    let x := (s.core b c).slot i
    ∃ u, exec (.sstart b c q) s = .next u ∧ (u.core b c).slot i =
      { raw := x.raw, busy := true, starter := q, far := cmd.farOffset, count := x.tileCount, armAt := s.now } ∧ sameBytes s u := by
  intro x
  obtain ⟨on, hu⟩ : ∃ on, sstartEffect b c q s = (s.issue p t b c q cmd s.now on).modSlot b c i fun x =>
      { raw := x.raw, busy := true, starter := q, far := cmd.farOffset, count := x.tileCount, armAt := s.now } := by
    refine ⟨if x.persistent then .streamStarted i else .streamLanded i, ?_⟩
    subst hn
    simp only [State.sstartCause] at hf
    simp only [sstartEffect, h, hf]
    rfl
  refine ⟨_, exec_sstart b c q s, ?_⟩
  rw [hu, State.core_settle]
  exact ⟨State.slot_modSlot_issue h s.now on hi _, (State.sameBytes_modCore_issue ..).settle s⟩

theorem arms_of_srearm (h : s.mayIssue b c q 0xA2 = some (p, t, cmd)) (hf : s.srearmCause p b c q t cmd = none) :
    let x := (s.core b c).slot i
    ∃ u, exec (.srearm b c q) s = .next u ∧ (u.core b c).slot i =
      { x with far := cmd.farOffset, count := (if cmd.a 31 6 = 0 then x.tileCount else cmd.a 31 6), armBase := x.armBase + x.count
               armAt := s.now, issued := 0, old := (x.armBase, x.far, x.armAt, x.count) :: x.old.take 4 } ∧ sameBytes s u := by
  intro x
  have hu : srearmEffect b c q s = (s.issue p t b c q cmd s.now (.streamStarted i)).modSlot b c i fun y =>
      { y with far := cmd.farOffset, count := (if cmd.a 31 6 = 0 then x.tileCount else cmd.a 31 6), armBase := y.armBase + y.count
               armAt := s.now, issued := 0, old := (y.armBase, y.far, y.armAt, y.count) :: y.old.take 4 } := by
    subst hn
    simp only [State.srearmCause] at hf
    simp only [srearmEffect, h, hf]
    rfl
  refine ⟨_, exec_srearm b c q s, ?_⟩
  rw [hu, State.core_settle]
  exact ⟨State.slot_modSlot_issue h s.now _ hi _, (State.sameBytes_modCore_issue ..).settle s⟩

omit hn hi in
/-- A persistent slot rests once it drains and nothing of it is left to land. -/
theorem Slot.rested_of_drained {x : Slot} (hb : x.busy = true) (hp : x.persistent = true) :
    Slot.rested { x with draining := true } = if x.started = x.landed then x.quiet else { x with draining := true } := by
  have hd : Slot.done { x with draining := true } = decide (x.started = x.landed) := by
    change (x.busy && ((true && decide (x.started = x.landed)) || (!x.persistent && decide (x.armBase + x.count ≤ x.landed)))) = _
    rw [hb, hp, Bool.true_and, Bool.true_and, Bool.not_true, Bool.false_and, Bool.or_false]
  simp only [Slot.rested, hd, decide_eq_true_eq]
  rfl

theorem sdrain_drains (h : s.mayIssue b c q 0xA1 = some (p, t, cmd)) (hb : ((s.core b c).slot i).busy = true)
    (hp : ((s.core b c).slot i).persistent = true) :
    let x := (s.core b c).slot i
    ∃ u, exec (.sdrain b c q) s = .next u ∧ (u.core b c).slot i = (if x.started = x.landed then x.quiet else { x with draining := true }) ∧
      sameBytes s u := by
  intro x
  have hu : sdrainEffect b c q s = ((s.issue p t b c q cmd s.now (.slotIdle i)).modSlot b c i fun x => { x with draining := true }).slotRest
      b c i := by
    subst hn
    simp only [sdrainEffect, h, hb, hp]
    rfl
  have hdma := State.core_of_coreView (s.issue_dma p t b c q cmd s.now (.slotIdle i)) b c
  have hcore := State.hasCore_issue h s.now (.slotIdle i)
  refine ⟨_, exec_sdrain b c q s, ?_⟩
  rw [hu, State.core_settle]
  refine ⟨?_, .settle ((State.sameBytes_modCore_issue ..).trans (State.slotRest_bytes ..)) s⟩
  rw [State.slot_slotRest (hcore.modSlot b c i _) (by rwa [hcore.slots_length_modSlot, hdma]), State.slot_modSlot_issue h _ _ hi,
    Slot.rested_of_drained hb hp]

end

/-! ### DOWEL (R366, R367) -/

/-- The pieces of a transfer hold at most 512 bytes, and all bytes of it (R326). -/
theorem cutPiece_len_le (farSrc : Bool) (fuel : Nat) (x : Piece) : ∀ y ∈ cutPiece farSrc fuel x, y.len ≤ 512 := by
  induction fuel generalizing x with
  | zero => intro y hy; cases hy
  | succ fuel ih =>
    unfold cutPiece
    split
    · intro y hy; cases hy
    · refine List.forall_mem_cons.2 ⟨?_, ih _⟩
      exact (Nat.min_le_right ..).trans (Nat.sub_le ..)

/-- A piece of each round takes one byte at least, so a fuel of the piece's length is enough. -/
theorem cutPiece_len_sum (farSrc : Bool) (fuel : Nat) (x : Piece) (h : x.len ≤ fuel) : ((cutPiece farSrc fuel x).map (·.len)).sum = x.len := by
  induction fuel generalizing x with
  | zero => simpa [cutPiece] using (Nat.le_zero.1 h).symm
  | succ fuel ih =>
    unfold cutPiece
    split
    next hz => exact hz.symm
    next hz =>
      extract_lets far n
      have hn : n ≤ x.len ∧ 1 ≤ n := by omega
      rw [List.map_cons, List.sum_cons, ih _ (show x.len - n ≤ fuel by omega)]
      exact Nat.add_sub_cancel' hn.1

theorem Cmd.dowelLen_le (cmd : Cmd) : cmd.dowelLen ≤ 256 := by
  have h : cmd.a 4 0 < 32 := Nat.mod_lt _ (by decide)
  unfold Cmd.dowelLen
  omega

theorem State.dowelParts_len_le (s : State) (p b q id : Nat) (cmd : Cmd) : ∀ r ∈ s.dowelParts p b q id cmd, r.len ≤ 512 := by
  intro r hr
  obtain ⟨y, hy, rfl⟩ := List.mem_map.1 hr
  exact cutPiece_len_le _ _ _ y hy

theorem State.dowelParts_len_sum (s : State) (p b q id : Nat) (cmd : Cmd) : ((s.dowelParts p b q id cmd).map (·.len)).sum = cmd.dowelLen := by
  unfold State.dowelParts
  extract_lets near far x pasid gate
  have hx : x.len = cmd.dowelLen := by simp only [x]; split <;> rfl
  rw [List.map_map, ← hx]
  exact cutPiece_len_sum _ 256 x (hx ▸ cmd.dowelLen_le)

theorem dowel_joins_queue (h : s.mayIssue b c q 0xA3 = some (p, t, cmd)) (hf : s.dowelCause p b (ctxOf q) t cmd = none) :
    ∃ u, exec (.dowel b c q []) s = .next u ∧
      (let id := (s.core b c).dma.nextId
       let parts := s.dowelParts p b q id cmd
       (u.core b c).dma.dowels = (s.core b c).dma.dowels ++ [{ id := id, q := q, total := parts.length, parts := parts }] ∧
       (u.core b c).dma.nextId = id + 1 ∧ (∀ r ∈ parts, r.len ≤ 512) ∧ (parts.map (·.len)).sum = cmd.dowelLen) ∧ sameBytes s u := by
  have hdma := State.core_of_coreView (s.issue_dma p t b c q cmd s.now (.dowel (s.core b c).dma.nextId)) b c
  refine ⟨_, exec_dowel b c q s, ?_⟩
  simp only [dowelEffect, State.strike, List.foldl_nil, h, hf]
  refine ⟨?_, (State.sameBytes_modCore_issue ..).settle s⟩
  rw [State.core_settle, (State.hasCore_issue h ..).core_modCore, Core.modDma_dma, hdma]
  exact ⟨rfl, rfl, s.dowelParts_len_le p b q _ cmd, State.dowelParts_len_sum ..⟩

end

/-- Settles O21, command by command. -/
theorem streamAndDowelCommands : Obligations.StreamAndDowelCommands :=
  ⟨fun _ _ _ _ _ _ _ hi => ⟨arms_of_sstart rfl hi, arms_of_srearm rfl hi, sdrain_drains rfl hi⟩, fun _ _ _ _ _ _ _ => dowel_joins_queue⟩

end Sys2Proof.Machine
end

section
/-! SUPPORT. What the progress of requests and tiles leaves: views that show which of them a core has, not how far they have come (O22, O23). -/

namespace Sys2Proof.Machine

/-- The view does not show how far commands, tiles and requests have come, nor the credits and rows that they give. -/
structure Core.Coarse {α : Type} (v : Core → α) : Prop where
  queues : ∀ k qs, v { k with queues := qs } = v k
  returns : ∀ k rs, v { k with returns := rs } = v k
  array : ∀ k a f, v (Core.modArray k a f) = v k
  tile : ∀ k i num f, (∀ t, Tile.num (f t) = t.num) → v (Core.modSlot k i fun x => x.modTile num f) = v k
  req : ∀ k id f, (∀ r, Req.id (f r) = r.id) → v (Core.modDma k fun d => d.modReq id f) = v k

section
variable {α : Type} {v : Core → α} (hv : Core.Coarse v) (s : State) (b c : Nat)
include hv

theorem Core.Coarse.settleOn (u : Until) (at_ : Nat) : (s.settleOn b c u at_).coreView v = s.coreView v := s.modCore_coreView b c fun k => hv.queues k _

theorem Core.Coarse.creditReturn (ctx link n : Nat) : (s.creditReturn b c ctx link n).coreView v = s.coreView v :=
  view_ite _ rfl (s.modCore_coreView b c fun k => hv.returns k _)

theorem Core.Coarse.modTile (i num : Nat) {f : Tile → Tile} (hf : ∀ t, (f t).num = t.num) :
    (s.modTile b c i num f).coreView v = s.coreView v := s.modCore_coreView b c fun k => hv.tile k i num f hf

theorem Core.Coarse.modReq (id : Nat) {f : Req → Req} (hf : ∀ r, (f r).id = r.id) : (s.modReq b c id f).coreView v = s.coreView v :=
  s.modCore_coreView b c fun k => hv.req k id f hf

theorem Core.Coarse.writeLocal (p : Nat) (r : Req) : (s.writeLocal p b c r).coreView v = s.coreView v :=
  (State.ask_coreView ..).trans (hv.modReq s b c r.id fun _ => rfl)

theorem Core.Coarse.dowelRest (id : Nat) : (s.dowelRest b c id).coreView v = s.coreView v := view_ite _ (hv.settleOn ..) rfl

/-- Of what v shows, the end of a request changes only what the request's own leaving does. -/
theorem Core.Coarse.reqEnd (r : Req) : (s.reqEnd b c r).coreView v = (s.modCore b c fun k => k.modDma fun d => d.drop r.id).coreView v := by
  unfold State.reqEnd
  extract_lets dropped less
  have hl : less.coreView v = dropped.coreView v := hv.modTile _ b c _ _ fun _ => rfl
  refine view_ite _ (hv.dowelRest ..) ?_
  split
  · exact view_ite _ hl ((hv.writeLocal ..).trans hl)
  · exact hl

theorem Core.Coarse.noteCapture (i num : Nat) : (s.noteCapture b c i num).coreView v = s.coreView v := by
  unfold State.noteCapture
  split
  · refine view_ite _ (hv.modTile s b c i num ?_) rfl
    exact fun _ => rfl
  · rfl

theorem Core.Coarse.ringCredit (i num : Nat) : (s.ringCredit b c i num).coreView v = s.coreView v := view_ite _ (hv.creditReturn ..) rfl

theorem Core.Coarse.tileZeros (p i : Nat) (t : Tile) : (s.tileZeros p b c i t).coreView v = s.coreView v := by
  unfold State.tileZeros
  refine view_ite _ rfl ((hv.modTile _ b c i t.num ?_).trans (State.ask_coreView ..))
  exact fun _ => rfl

theorem Core.Coarse.feedRows (i n : Nat) : (s.feedRows b c i n).coreView v = s.coreView v := by
  induction n generalizing s with
  | zero => rfl
  | succ n ih =>
    unfold State.feedRows
    extract_lets x
    split
    · refine view_ite _ rfl ?_
      split
      · refine (ih _).trans ((hv.modTile _ b c i _ ?_).trans ?_)
        · exact fun _ => rfl
        · exact State.modCore_coreView _ b c fun k => hv.array k _ _
      · rfl
    · rfl

end

/-! ### DMA faults (R396) -/

/-- The fault registers after a fault: the first one is captured. -/
def Dma.faulted (d : Dma) (q cause slot addr : Nat) (pasid : Option Nat) : Dma :=
  if d.fault.getLsbD 0 then d
  else { d with fault := (d.fault &&& 2#32) ||| BitVec.ofNat 32 (1 + 16 * cause + 256 * slot + 65536 * q)
                faultAddr := BitVec.ofNat 64 addr, faultPasid := BitVec.ofNat 32 (pasid.getD 0) }

section
variable (s : State) (b c q cause slot addr : Nat) (pasid : Option Nat)

/-- Where a view does not show the contexts, a fault changes the fault registers only. -/
theorem State.dmaFault_coreView {α : Type} {v : Core → α} (hctx : ∀ k xs, v { k with ctxState := xs } = v k) :
    (s.dmaFault b c q cause slot addr pasid).coreView v =
      (s.modCore b c fun k => k.modDma fun d => d.faulted q cause slot addr pasid).coreView v := by
  unfold State.dmaFault State.faultAbort
  split
  · exact (State.abort_coreView ..).trans ((State.modCore_coreView _ b c fun k => hctx k _).trans (State.raise_coreView ..))
  · exact State.raise_coreView ..

end

/-! ### The outline of a core's streams -/

/-- How many tiles a slot has started, and the numbers of those that have not landed. -/
def Slot.line (x : Slot) : Nat × List Nat := (x.started, x.tiles.map Tile.num)

/-- The tiles of a core's slots, its requests, and its tallies. -/
structure Outline where
  slots : List (Nat × List Nat)
  reads : List Nat
  writes : List Nat
  tallies : List (Nat × Nat)

def Core.outline (k : Core) : Outline :=
  { slots := k.dma.slots.map Slot.line, reads := k.dma.reads.map Req.id, writes := k.dma.writes.map Req.id, tallies := k.tallies }

theorem Slot.line_modTile (x : Slot) (num : Nat) {f : Tile → Tile} (hf : ∀ t, (f t).num = t.num) : (x.modTile num f).line = x.line := by
  refine congrArg (Prod.mk x.started) ((List.map_map ..).trans (List.map_congr_left fun t _ => ?_))
  exact view_ite (view := Tile.num) _ (hf t) rfl

theorem map_id_modReq (rs : List Req) (id : Nat) {f : Req → Req} (hf : ∀ r, (f r).id = r.id) :
    (rs.map fun r => if r.id = id then f r else r).map Req.id = rs.map Req.id := by
  refine (List.map_map ..).trans (List.map_congr_left fun r _ => ?_)
  exact view_ite (view := Req.id) _ (hf r) rfl

/-- An update of a slot that its line does not show. -/
theorem Core.lines_modSlot (k : Core) (i : Nat) {f : Slot → Slot} (hf : ∀ x, (f x).line = x.line) :
    (k.modSlot i f).dma.slots.map Slot.line = k.dma.slots.map Slot.line := by
  refine List.ext_getElem (by simp [Core.modSlot]) fun j _ _ => ?_
  simp only [List.getElem_map, Core.modSlot, Core.modDma_dma, List.getElem_modify]
  split
  · exact hf _
  · rfl

theorem Core.outline_coarse : Core.Coarse Core.outline where
  queues _ _ := rfl
  returns _ _ := rfl
  array _ _ _ := rfl
  tile k i num f hf := by
    rw [Core.outline, k.lines_modSlot i fun x => x.line_modTile num hf]
    rfl
  req k id f hf := by
    simp only [Core.outline, Core.modDma_dma, Dma.modReq, map_id_modReq _ _ hf]
    rfl

theorem Core.line_of_outline {k l : Core} (h : k.outline = l.outline) (i : Nat) : (k.slot i).line = (l.slot i).line := by
  have hs : k.dma.slots.map Slot.line = l.dma.slots.map Slot.line := congrArg Outline.slots h
  calc (k.slot i).line = (k.dma.slots.map Slot.line).getD i (Slot.line {}) := (List.getD_map ..).symm
    _ = (l.dma.slots.map Slot.line).getD i (Slot.line {}) := by rw [hs]
    _ = (l.slot i).line := List.getD_map ..

theorem Dma.faulted_outline (k : Core) (q cause slot addr : Nat) (pasid : Option Nat) :
    (k.modDma fun d => d.faulted q cause slot addr pasid).outline = k.outline :=
  view_ite (view := fun d => Core.outline { k with dma := d }) _ rfl rfl

theorem State.dmaFault_outline (s : State) (b c q cause slot addr : Nat) (pasid : Option Nat) :
    (s.dmaFault b c q cause slot addr pasid).coreView Core.outline = s.coreView Core.outline :=
  (s.dmaFault_coreView b c q cause slot addr pasid fun _ _ => rfl).trans (s.modCore_coreView b c fun k => Dma.faulted_outline k ..)

end Sys2Proof.Machine
end

section
/-! R338, R339, R342, R349, R351, R371, R414: the start of a tile, the data of a dowel read, and the ends of requests (O22). -/

namespace Sys2Proof.Machine

theorem exec_streamTileStart (b c i : Nat) (s : State) :
    exec (.streamTileStart b c i []) s = .next (settle s (streamTileStartEffect b c i [] s)) := rfl
theorem exec_writeComplete (b c id : Nat) (s : State) : exec (.writeComplete b c id) s = .next (settle s (writeCompleteEffect b c id s)) := rfl
theorem exec_readDataReturn (b c id : Nat) (x : Xfer) (s : State) :
    exec (.readDataReturn b c id x []) s = .next (settle s (s.readReturn b c id x)) := rfl

/-! ### STREAM_TILE_START (R342, R349, R351, R371, R414) -/

section
variable {s : State} {p b c i : Nat} {t : Task}

theorem State.tileIndexed_outline (s : State) (p b c i num : Nat) (words : List Nat) :
    (s.tileIndexed p b c i num words).coreView Core.outline = s.coreView Core.outline := by
  have hv := Core.outline_coarse
  unfold State.tileIndexed
  extract_lets x y known zeroed noted
  split
  · exact State.dmaFault_outline ..
  · have h1 : known.coreView Core.outline = s.coreView Core.outline := hv.modTile s b c i num fun _ => rfl
    have h2 : zeroed.coreView Core.outline = s.coreView Core.outline := by
      simp only [zeroed]
      split
      · exact view_ite _ h1 ((hv.tileZeros ..).trans h1)
      · exact h1
    have h3 : noted.coreView Core.outline = s.coreView Core.outline :=
      (hv.noteCapture ..).trans (view_ite _ ((hv.ringCredit ..).trans h2) h2)
    exact view_ite _ ((hv.feedRows ..).trans h3) h3

/-- The slot as the arming of its next tile set it. -/
def State.armed (s : State) (b c i : Nat) : Slot := ((s.core b c).slot i).forTile ((s.core b c).slot i).started

/-- A core whose slot i starts its next tile: GATE_TALLY is taken, and the slot has one more tile. -/
def State.beginTile (s : State) (p b c i : Nat) (t : Task) (k : Core) : Core :=
  let x := s.armed b c i
  let k := if t.credit && x.gated x.started then k.take s.now (s.tallyOf p b (ctxOf x.starter) x.gateTally) 1 else k
  k.modSlot i fun y => { y with started := x.started + 1, tiles := y.tiles ++ [s.newTile p t x x.started] }

theorem State.startTile_outline (s : State) (p b c i : Nat) (t : Task) :
    (s.startTile p b c i t).coreView Core.outline = (s.modCore b c (s.beginTile p b c i t)).coreView Core.outline := by
  unfold State.startTile
  extract_lets x num now tally tile begun noted
  have h : noted.coreView Core.outline = begun.coreView Core.outline := view_ite _ (Core.outline_coarse.settleOn ..) rfl
  exact view_ite _ ((State.ask_coreView ..).trans h) ((State.tileIndexed_outline ..).trans h)

theorem Core.slot_ite_take (cond : Bool) (k : Core) (now j n i : Nat) : (if cond then k.take now j n else k).slot i = k.slot i :=
  view_ite (view := fun k : Core => k.slot i) _ rfl rfl

theorem Core.line_beginTile (s : State) (p b c : Nat) (t : Task) {k : Core} (hi : i < k.dma.slots.length) :
    ((s.beginTile p b c i t k).slot i).line =
      ((s.armed b c i).started + 1, (k.slot i).tiles.map Tile.num ++ [(s.armed b c i).started]) := by
  unfold State.beginTile
  extract_lets x l
  have hl : l.slot i = k.slot i := Core.slot_ite_take ..
  have hd : l.dma.slots.length = k.dma.slots.length := view_ite (view := fun k : Core => k.dma.slots.length) _ rfl rfl
  rw [Core.slot_modSlot _ (hd ▸ hi), hl, Slot.line, List.map_append]
  rfl

theorem Core.tallies_beginTile (s : State) (p b c i : Nat) (t : Task) (k : Core) : (s.beginTile p b c i t k).tallies =
    let x := s.armed b c i
    let tally := s.tallyOf p b (ctxOf x.starter) x.gateTally
    if t.credit && x.gated x.started then setNat tally (k.tally tally - 1) k.tallies else k.tallies := by
  unfold State.beginTile
  extract_lets x l
  exact apply_ite Core.tallies ..

/-- The conditions of a tile's start, as O22 names them. -/
theorem State.tileDue_of (hc : (s.bench b).computes = true) (hb : (s.armed b c i).busy = true) (hd : (s.armed b c i).draining = false)
    (he : (s.armed b c i).exhausted = false)
    (hg : let x := s.armed b c i
      let tally := s.tallyOf p b (ctxOf x.starter) x.gateTally
      if t.credit then x.gated x.started = false ∨ s.slotWaits p b c i tally < s.tallyLeft b c 40 tally
      else x.armAt + (x.started - x.armBase) * x.period ≤ s.now ∧ x.cls = s.classNow p) : s.tileDue p b c i t = true := by
  have hdue : s.tileDue p b c i t = ((s.armed b c i).busy && !(s.armed b c i).draining && !(s.armed b c i).exhausted && (s.bench b).computes &&
    if t.credit then !(s.armed b c i).gated (s.armed b c i).started || decide (s.slotWaits p b c i (s.tallyOf p b (ctxOf (s.armed b c i).starter)
        (s.armed b c i).gateTally) < s.tallyLeft b c 40 (s.tallyOf p b (ctxOf (s.armed b c i).starter) (s.armed b c i).gateTally))
      else decide ((s.armed b c i).armAt + ((s.armed b c i).started - (s.armed b c i).armBase) * (s.armed b c i).period ≤ s.now) &&
        (s.armed b c i).cls = s.classNow p) := rfl
  rw [hdue, hb, hd, he, hc]
  cases ht : t.credit <;> simpa [ht] using hg

theorem Slot.forTile_busy (x : Slot) (num : Nat) : (x.forTile num).busy = x.busy := by
  unfold Slot.forTile
  split
  · rfl
  · split <;> rfl

theorem streamTileStart_starts (hp : s.benchPart b = some p) (ht : s.issuing p = some t) (hbusy : (s.armed b c i).busy = true)
    (hdue : s.tileDue p b c i t = true) :
    let x := s.armed b c i
    let tally := s.tallyOf p b (ctxOf x.starter) x.gateTally
    ∃ u, exec (.streamTileStart b c i []) s = .next u ∧ ((u.core b c).slot i).started = x.started + 1 ∧
      ((u.core b c).slot i).tiles.map (·.num) = ((s.core b c).slot i).tiles.map (·.num) ++ [x.started] ∧
      (u.core b c).tallies = (if t.credit && x.gated x.started then setNat tally ((s.core b c).tally tally - 1) (s.core b c).tallies
        else (s.core b c).tallies) ∧ sameBytes s u := by
  intro x tally
  have hu : streamTileStartEffect b c i [] s = s.startTile p b c i t := by
    simp only [streamTileStartEffect, State.strike, List.foldl_nil, hp, ht, hdue, if_true]
  obtain ⟨hcore, hi⟩ : s.HasCore b c ∧ i < (s.core b c).dma.slots.length := by
    refine State.hasCore_of_slot (f := Slot.busy) ?_
    rw [← Slot.forTile_busy, ← State.armed, hbusy]
    decide
  have ho := State.startTile_outline s p b c i t
  have hk := State.core_of_coreView_modCore ho hcore
  have hl := (Core.line_of_outline hk i).trans (Core.line_beginTile s p b c t hi)
  refine ⟨_, exec_streamTileStart b c i s, ?_⟩
  rw [hu, State.core_settle]
  have hbytes : sameBytes s (s.startTile p b c i t) := (sameBytes.modCore ..).trans (.of_coreView ho)
  have htally := (congrArg Outline.tallies hk).trans (Core.tallies_beginTile ..)
  generalize s.startTile p b c i t = u at *
  exact ⟨congrArg Prod.fst hl, congrArg Prod.snd hl, htally, hbytes.settle s⟩

end

/-! ### The ends of requests (R338, R339) -/

section
variable {s : State} {b c id p : Nat} {r : Req}

theorem map_id_filter (rs : List Req) (id : Nat) : (rs.filter fun r => r.id != id).map Req.id = (rs.map Req.id).filter (· != id) := by
  rw [List.filter_map]
  rfl

theorem Core.outline_drop (k : Core) (id : Nat) : (k.modDma fun d => d.drop id).outline =
    { k.outline with reads := k.outline.reads.filter (· != id), writes := k.outline.writes.filter (· != id) } := by
  simp only [Core.outline, Core.modDma_dma, Core.modDma_tallies, Dma.drop, map_id_filter]

/-- A request ends: its core's requests are the others. -/
theorem State.outline_reqEnd (h : s.HasCore b c) (r : Req) : ((s.reqEnd b c r).core b c).outline =
    { (s.core b c).outline with
      reads := (s.core b c).outline.reads.filter (· != r.id), writes := (s.core b c).outline.writes.filter (· != r.id) } := by
  rw [State.core_of_coreView_modCore (Core.outline_coarse.reqEnd s b c r) h, Core.outline_drop]

theorem sameBytes.reqEnd (s : State) (b c : Nat) (r : Req) : sameBytes s (s.reqEnd b c r) :=
  (sameBytes.modCore ..).trans (.of_coreView (Core.outline_coarse.reqEnd s b c r))

theorem State.hasCore_of_read {P : Req → Bool} (h : (s.core b c).dma.reads.find? P = some r) : s.HasCore b c :=
  State.hasCore_of (f := fun k => k.dma.reads.find? P) (by rw [h]; exact Option.some_ne_none r)

theorem State.hasCore_of_write {P : Req → Bool} (h : (s.core b c).dma.writes.find? P = some r) : s.HasCore b c :=
  State.hasCore_of (f := fun k => k.dma.writes.find? P) (by rw [h]; exact Option.some_ne_none r)

theorem State.hasCore_of_req (h : s.req b c id = some r) : s.HasCore b c :=
  State.hasCore_of (f := fun k => (k.dma.reads ++ k.dma.writes).find? fun r => r.id = id) (by
    rw [show ((s.core b c).dma.reads ++ (s.core b c).dma.writes).find? _ = some r from h]
    exact Option.some_ne_none r)

theorem writeComplete_ends (h : ((s.core b c).dma.writes.find? fun w => w.id = id) = some r) (hr : r.stage = .sent)
    (hw : ∀ x ∈ s.benches, x.awaits (.dma b c id) = false) : ∃ u, exec (.writeComplete b c id) s = .next u ∧
      (u.core b c).dma.writes.map (·.id) = ((s.core b c).dma.writes.map (·.id)).filter (· != id) ∧ sameBytes s u := by
  obtain rfl : r.id = id := of_decide_eq_true (List.find?_some h :)
  have hn : s.benches.any (fun x => x.awaits (.dma b c r.id)) = false := List.any_eq_false.2 fun x hx => by simp [hw x hx]
  have hu : writeCompleteEffect b c r.id s = s.reqEnd b c r := by
    simp only [writeCompleteEffect, h, hr, hn, decide_true, Bool.not_false, Bool.and_self, if_true]
  refine ⟨_, exec_writeComplete b c r.id s, ?_⟩
  rw [hu, State.core_settle]
  exact ⟨congrArg Outline.writes (State.outline_reqEnd (State.hasCore_of_write h) r), (sameBytes.reqEnd ..).settle s⟩

/-- The last write of a read's data is served. -/
theorem State.dmaServed_ends {x : Nat} {m : MemReq} {bs : List Bytes} (h : s.req b c id = some r) (hm : m.write = true)
    (hr : r.write = false) (hw : (s.bench x).awaits (.dma b c id) = false) :
    ((s.dmaServed x b c id m bs).core b c).dma.reads.map (·.id) = ((s.core b c).dma.reads.map (·.id)).filter (· != r.id) := by
  have hu : s.dmaServed x b c id m bs = s.reqEnd b c r := by
    simp only [State.dmaServed, h, hm, hr, hw, Bool.or_self, Bool.false_eq_true, if_true, if_false]
  rw [hu]
  exact congrArg Outline.reads (State.outline_reqEnd (State.hasCore_of_req h) r)

/-! ### READ_DATA_RETURN of a dowel transfer (R338) -/

theorem Bytes.getD_sub_zero (bs : Bytes) {n i : Nat} (h : i < n) : (Bytes.sub bs 0 n).getD i 0 = bs.getD i 0 := by
  simp only [Bytes.sub, List.drop_zero]
  by_cases hi : i < bs.length
  · rw [List.getD_append _ _ _ _ (by rw [List.length_take]; omega), List.getD, List.getElem?_take_of_lt h, List.getD]
  · rw [List.getD_append_right _ _ _ _ (by rw [List.length_take]; omega), List.getD_eq_default bs _ (Nat.not_lt.1 hi), List.getD,
      List.getElem?_replicate]
    split <;> rfl

/-- A request gives back the data that it was given. -/
theorem Req.bytes_of_data (r : Req) (data : Bytes) :
    Req.bytes { r with buf := Memory.ofBytes 0 data } = (List.range r.len).map fun n => data.getD n 0 := by
  refine List.map_congr_left fun n _ => ?_
  rw [Memory.get_ofBytes, if_pos (Nat.zero_le _), Nat.zero_add, Nat.sub_zero]

/-- The data of a dowel transfer wait for nothing but a gate. -/
theorem State.reqHolds_of_dowel (s : State) (b c : Nat) (hs : r.slot = 64) (hg : r.gate = none) (hd : r.dstSpace < 2) :
    s.reqHolds b c r = false := by
  have h6 : r.dstSpace ≠ 6 := by omega
  simp [State.reqHolds, State.inOrder, hs, hg, h6]

/-- The data that come for a read of HBM or of host memory. -/
def State.readData (s : State) (p : Nat) (r : Req) (data : Bytes) : Bytes :=
  if r.srcSpace = 2 then s.shareRead p r.src r.len else Bytes.sub data 0 r.len

/-- The writes of a dowel read's data at their local destination. -/
def State.dowelWrites (s : State) (b c : Nat) (r : Req) (bs : Bytes) : List MemReq :=
  MemReq.writes { due := s.now, port := c, rack := decide (r.dstSpace = 1), who := .dma b c r.id } r.dst bs

theorem State.HasCore.modReq (h : s.HasCore b c) (x y id : Nat) (f : Req → Req) : (s.modReq x y id f).HasCore b c := h.modCore x y _

theorem State.modReq_reqs (s : State) (b c id : Nat) (f : Req → Req) (x : Nat) : ((s.modReq b c id f).bench x).reqs = (s.bench x).reqs :=
  State.shown_of_shows (f := Bench.reqs) (State.modCore_shows (fun _ _ _ => rfl) s b c _) x

theorem State.ask_reqs (h : b < s.benches.length) (rs : List MemReq) : ((s.ask b rs).bench b).reqs = (s.bench b).reqs ++ rs := by
  rw [State.ask, State.bench_modBench _ _ _ h]

theorem State.sourceCame_of_dowel (s : State) (p b c : Nat) (hw : r.write = false) (hs : r.slot = 64) (hg : r.gate = none)
    (hd : r.dstSpace < 2) : s.sourceCame p b c r =
      (s.modReq b c r.id fun y => { y with stage := .writing }).ask b (s.dowelWrites b c r r.bytes) := by
  unfold State.sourceCame
  rw [hw, if_neg Bool.false_ne_true, s.reqHolds_of_dowel b c hs hg hd, if_neg Bool.false_ne_true, State.writeLocal, if_pos hs]
  rfl

theorem State.readReturn_of_dowel {data : Bytes} (h : ((s.core b c).dma.reads.find? fun w => w.id = id && w.stage = .away) = some r)
    (hp : s.benchPart b = some p) (hrun : s.dmaRuns p = true) (hw : r.write = false) (hs : r.slot = 64) (hg : r.gate = none)
    (hsrc : r.srcSpace = 2 ∨ r.srcSpace = 3) (hd : r.dstSpace < 2) : s.readReturn b c id (.ok data) =
      ((s.modReq b c id fun y => { y with buf := Memory.ofBytes 0 (s.readData p r data) }).modReq b c r.id fun y =>
        { y with stage := .writing }).ask b
          (s.dowelWrites b c r (Req.bytes { r with buf := Memory.ofBytes 0 (s.readData p r data) })) := by
  have hcame : s.readReturn b c id (.ok data) = State.sourceCame
      (s.modReq b c id fun y => { y with buf := Memory.ofBytes 0 (s.readData p r data) }) p b c
        { r with buf := Memory.ofBytes 0 (s.readData p r data) } := by
    unfold State.readReturn State.readData
    rw [h, hp]
    rcases hsrc with hsrc | hsrc
    · simp only [hrun, hsrc, Bool.not_true, Bool.false_eq_true, if_false, if_true, decide_true, Bool.true_or]
      rfl
    · simp only [hrun, hsrc, Bool.not_true, Bool.false_eq_true, if_false, decide_true, Bool.or_true, if_true]
  rw [hcame]
  exact State.sourceCame_of_dowel _ p b c hw hs hg hd

theorem readDataReturn_writes {data : Bytes} (h : ((s.core b c).dma.reads.find? fun w => w.id = id && w.stage = .away) = some r)
    (hp : s.benchPart b = some p) (hrun : s.dmaRuns p = true) (hw : r.write = false) (hs : r.slot = 64) (hg : r.gate = none)
    (hsrc : r.srcSpace = 2 ∨ r.srcSpace = 3) (hd : r.dstSpace < 2) :
    ∃ u rs, exec (.readDataReturn b c id (.ok data) []) s = .next u ∧ (u.bench b).reqs = (s.bench b).reqs ++ rs ∧
      (∀ x ∈ rs, x.port = c ∧ x.due = s.now ∧ x.who = .dma b c id) ∧
      writesAt (decide (r.dstSpace = 1)) rs r.dst ((List.range r.len).map fun n =>
        (if r.srcSpace = 2 then s.shareRead p r.src r.len else data).getD n 0) ∧ sameBytes s u := by
  have hid : r.id = id := by
    have hr := List.find?_some h
    simp only [Bool.and_eq_true, decide_eq_true_eq] at hr
    exact hr.1
  have hdata : ((List.range r.len).map fun n => (if r.srcSpace = 2 then s.shareRead p r.src r.len else data).getD n 0) =
      Req.bytes { r with buf := Memory.ofBytes 0 (s.readData p r data) } := by
    rw [Req.bytes_of_data]
    refine List.map_congr_left fun n hn => ?_
    unfold State.readData
    split
    · rfl
    · exact (Bytes.getD_sub_zero data (List.mem_range.1 hn)).symm
  have hcore := State.hasCore_of_read h
  refine ⟨_, s.dowelWrites b c r (Req.bytes { r with buf := Memory.ofBytes 0 (s.readData p r data) }), exec_readDataReturn b c id _ s, ?_⟩
  rw [State.readReturn_of_dowel h hp hrun hw hs hg hsrc hd, hdata]
  generalize Req.bytes { r with buf := Memory.ofBytes 0 (s.readData p r data) } = bs
  refine ⟨?_, fun x hx => ?_, MemReq.writesAt_writes _ r.dst bs, ?_⟩
  · rw [State.bench_eq_of_benches (settle_benches ..), State.ask_reqs ((hcore.modReq ..).modReq ..).bench, State.modReq_reqs, State.modReq_reqs]
  · obtain ⟨y, -, rfl⟩ := List.mem_map.1 hx
    exact ⟨rfl, rfl, by rw [hid]⟩
  · exact (((sameBytes.modCore ..).trans (.modCore ..)).trans (.of_coreView (State.ask_coreView (fun _ => ()) ..))).settle s

end

/-- Settles O22: the start of a tile, the end of a write, the data of a dowel read, and the end of a read. -/
theorem streamTilesStartAndRequestsEnd : Obligations.StreamTilesStartAndRequestsEnd := by
  refine ⟨fun s b c i p t hp ht hc hb hd he hg => streamTileStart_starts hp ht hb (State.tileDue_of hc hb hd he hg),
    fun s b c id p r hp => ⟨writeComplete_ends, fun data h hrun hw hs hg hsrc hd => ?_, fun x m bs => State.dmaServed_ends⟩⟩
  exact readDataReturn_writes h hp hrun hw hs hg hsrc hd

end Sys2Proof.Machine
end

section
/-! R392, R396, R641: host reads that fail, and translations that no answer reaches (O23). -/

namespace Sys2Proof.Machine

theorem exec_completionTimeout (b c id : Nat) (s : State) :
    exec (.completionTimeout b c id) s = .next (settle s (completionTimeoutEffect b c id s)) := rfl
theorem exec_translationTimeout (b c pasid iova : Nat) (s : State) :
    exec (.translationTimeout b c pasid iova) s = .next (settle s (translationTimeoutEffect b c pasid iova s)) := rfl

/-! ### The fault registers (R396) -/

/-- The fault bits of a core's DMA engine, and the captured address. -/
def Core.faultRegs (k : Core) : W32 × W64 := (k.dma.fault, k.dma.faultAddr)

theorem Core.faultRegs_coarse : Core.Coarse Core.faultRegs where
  queues _ _ := rfl
  returns _ _ := rfl
  array _ _ _ := rfl
  tile _ _ _ _ _ := rfl
  req _ _ _ _ := rfl

/-- A request's end touches no fault register. -/
theorem State.faultRegs_reqEnd (s : State) (b c : Nat) (r : Req) : (s.reqEnd b c r).coreView Core.faultRegs = s.coreView Core.faultRegs :=
  (Core.faultRegs_coarse.reqEnd s b c r).trans (s.modCore_coreView b c fun _ => rfl)

theorem Dma.fault_faulted (d : Dma) (q cause slot addr : Nat) (pasid : Option Nat) :
    (d.faulted q cause slot addr pasid).fault.getLsbD 0 = true := by
  unfold Dma.faulted
  split
  next h => exact h
  next =>
    have hodd : Nat.testBit (1 + 16 * cause + 256 * slot + 65536 * q) 0 = true := by
      rw [Nat.testBit_zero, decide_eq_true_eq]
      omega
    rw [BitVec.getLsbD_or, BitVec.getLsbD_ofNat, hodd]
    simp

/-- The first fault is captured with its cause and address. -/
theorem Dma.cause_faulted {d : Dma} (h : d.fault.getLsbD 0 = false) {cause : Nat} (hc : cause < 16) (q slot addr : Nat) (pasid : Option Nat) :
    (d.faulted q cause slot addr pasid).fault.toNat / 16 % 16 = cause ∧
      (d.faulted q cause slot addr pasid).faultAddr = BitVec.ofNat 64 addr := by
  have hf : d.faulted q cause slot addr pasid = { d with
      fault := (d.fault &&& 2#32) ||| BitVec.ofNat 32 (1 + 16 * cause + 256 * slot + 65536 * q)
      faultAddr := BitVec.ofNat 64 addr, faultPasid := BitVec.ofNat 32 (pasid.getD 0) } := if_neg (Bool.eq_false_iff.1 h)
  have hlow : d.fault.toNat &&& 2 % 2 ^ 32 ≤ 2 := Nat.and_le_right
  rw [hf]
  refine ⟨?_, rfl⟩
  rw [BitVec.toNat_or, BitVec.toNat_and, BitVec.toNat_ofNat, BitVec.toNat_ofNat, ← Nat.shiftRight_eq_div_pow _ 4, Nat.shiftRight_or_distrib,
    Nat.shiftRight_eq_div_pow, Nat.shiftRight_eq_div_pow, Nat.div_eq_of_lt (by omega), Nat.zero_or]
  omega

/-! ### A fault of a running partition (R396, R397) -/

/-- What a fault leaves: its registers, and the abort of the task. -/
structure State.Faulted (s u : State) (p b c q cause slot addr : Nat) (pasid : Option Nat) : Prop where
  regs : (u.core b c).faultRegs = ((s.core b c).modDma fun d => d.faulted q cause slot addr pasid).faultRegs
  stop : (u.part p).stop = .abort { status := stABORTED, detail := 0x63, r1 := BitVec.ofNat 64 (cause % 256 + 256 * (q % 64)) }
  bytes : sameBytes s u

section
variable {s u : State} {p b c q cause slot addr : Nat} {pasid : Option Nat}

theorem State.dmaFault_eq (hp : s.benchPart b = some p) : ∃ r, s.dmaFault b c q cause slot addr pasid =
    (({ s.modCore b c (fun k => k.modDma fun d => d.faulted q cause slot addr pasid) with raised := r } : State).ctxError b c (ctxOf q)).abort p
      { status := stABORTED, detail := 0x63, r1 := BitVec.ofNat 64 (cause % 256 + 256 * (q % 64)) } := by
  obtain ⟨r, hr⟩ := (s.modCore b c fun k => k.modDma fun d => d.faulted q cause slot addr pasid).raise_eq (benchKey b (1 + c)) 0
  refine ⟨r, ?_⟩
  change State.faultAbort (State.raise (s.modCore b c fun k => k.modDma fun d => d.faulted q cause slot addr pasid) _ _) b c q 0x63 cause = _
  have hpart : State.benchPart { s.modCore b c (fun k => k.modDma fun d => d.faulted q cause slot addr pasid) with raised := r } b = some p := hp
  rw [hr, State.faultAbort, hpart]

theorem State.faulted_dmaFault (h : s.HasCore b c) (hp : s.benchPart b = some p) (ha : (s.part p).Abortable) :
    s.Faulted (s.dmaFault b c q cause slot addr pasid) p b c q cause slot addr pasid := by
  have hv := s.dmaFault_coreView b c q cause slot addr pasid (v := Core.faultRegs) fun _ _ => rfl
  refine ⟨State.core_of_coreView_modCore hv h, ?_, (sameBytes.modCore ..).trans (.of_coreView hv)⟩
  obtain ⟨r, hr⟩ := State.dmaFault_eq (c := c) (q := q) (cause := cause) (slot := slot) (addr := addr) (pasid := pasid) hp
  rw [hr]
  exact State.stop_abort (State.part_lt_of_benchPart hp) ha _

/-- A fault of a core changes its registers by what they hold. -/
theorem Core.faultRegs_faulted (k : Core) : (k.modDma fun d => d.faulted q cause slot addr pasid).faultRegs =
    if k.faultRegs.1.getLsbD 0 then k.faultRegs
    else ((k.faultRegs.1 &&& 2#32) ||| BitVec.ofNat 32 (1 + 16 * cause + 256 * slot + 65536 * q), BitVec.ofNat 64 addr) :=
  apply_ite (fun d => Core.faultRegs { k with dma := d }) ..

section
variable (h : s.Faulted u p b c q cause slot addr pasid)
include h

theorem State.Faulted.bit : (u.core b c).dma.fault.getLsbD 0 = true :=
  (congrArg (fun x : W32 × W64 => x.1.getLsbD 0) h.regs).trans (Dma.fault_faulted ..)

theorem State.Faulted.capture (hn : (s.core b c).dma.fault.getLsbD 0 = false) (hc : cause < 16) :
    (u.core b c).dma.fault.toNat / 16 % 16 = cause ∧ (u.core b c).dma.faultAddr = BitVec.ofNat 64 addr := by
  obtain ⟨hf, hA⟩ := Prod.mk.inj h.regs
  rw [hf, hA]
  exact Dma.cause_faulted hn hc ..

theorem State.Faulted.settle (a : State) : s.Faulted (settle a u) p b c q cause slot addr pasid :=
  ⟨by rw [State.core_settle, h.regs], by rw [State.part_eq_of_parts (settle_parts ..), h.stop], h.bytes.settle a⟩

end

/-- Steps before a fault that leave the fault registers, the partitions and every byte. -/
theorem State.Faulted.after {t : State} (h : t.Faulted u p b c q cause slot addr pasid)
    (ht : t.coreView Core.faultRegs = s.coreView Core.faultRegs) (hb : sameBytes s t) : s.Faulted u p b c q cause slot addr pasid := by
  refine ⟨h.regs.trans ?_, h.stop, hb.trans h.bytes⟩
  rw [Core.faultRegs_faulted, Core.faultRegs_faulted, State.core_of_coreView ht]

end

/-! ### Host reads that fail (R392, R641) -/

section
variable {s : State} {p b c id : Nat} {r : Req}

/-- The first request of that number is the one that is away. -/
theorem find?_away {rs : List Req} (h : (rs.find? fun w => w.id = id) = some r) (hr : r.stage = .away) :
    (rs.find? fun w => w.id = id && w.stage = .away) = some r := by
  obtain ⟨hid, as, bs, hrs, hne⟩ := List.find?_eq_some_iff_append.1 h
  refine List.find?_eq_some_iff_append.2 ⟨by simp [of_decide_eq_true hid, hr], as, bs, hrs, fun a ha => ?_⟩
  have hid : a.id ≠ id := by simpa using hne a ha
  simp [hid]

theorem State.readReturn_of_failure {x : Xfer} (hx : x = .ur ∨ x = .ca) (h : ((s.core b c).dma.reads.find? fun w => w.id = id) = some r)
    (hr : r.stage = .away) (hp : s.benchPart b = some p) (hsrc : r.srcSpace = 3) (hrun : s.dmaRuns p = true) :
    s.readReturn b c id x = (s.reqEnd b c r).dmaFault b c r.q 7 r.slot r.src r.pasid := by
  unfold State.readReturn
  rw [find?_away h hr, hp]
  simp only [hrun, hsrc, Bool.not_true, Bool.false_eq_true, if_false, decide_true]
  rcases hx with rfl | rfl <;> rfl

theorem State.dowelRest_offBenches (s : State) (b c id : Nat) : (s.dowelRest b c id).offBenches = s.offBenches := view_ite _ rfl rfl

theorem State.writeLocal_offBenches (s : State) (p b c : Nat) (r : Req) : (s.writeLocal p b c r).offBenches = s.offBenches := by
  unfold State.writeLocal
  rfl

theorem State.reqEnd_offBenches (s : State) (b c : Nat) (r : Req) : (s.reqEnd b c r).offBenches = s.offBenches := by
  unfold State.reqEnd
  extract_lets dropped less
  have hl : less.offBenches = s.offBenches := rfl
  refine view_ite _ (State.dowelRest_offBenches ..) ?_
  split
  · exact view_ite _ hl ((State.writeLocal_offBenches ..).trans hl)
  · exact hl

/-- A command that ends with the failure of a host read. -/
theorem State.faulted_of_failure {x : Xfer} (hx : x = .ur ∨ x = .ca) (h : ((s.core b c).dma.reads.find? fun w => w.id = id) = some r)
    (hr : r.stage = .away) (hp : s.benchPart b = some p) (hsrc : r.srcSpace = 3) (hrun : s.dmaRuns p = true)
    (ht : (s.part p).task.isSome = true) (hc : (s.part p).clamping = false) :
    s.Faulted (s.readReturn b c id x) p b c r.q 7 r.slot r.src r.pasid := by
  rw [State.readReturn_of_failure hx h hr hp hsrc hrun]
  have hoff := s.reqEnd_offBenches b c r
  have hview := s.faultRegs_reqEnd b c r
  refine (State.faulted_dmaFault ?_ ?_ ?_).after hview (.reqEnd ..)
  · exact (State.hasCore_of_read h).of_coreView hview
  · rw [State.benchPart_of_offBenches hoff, hp]
  · rw [State.part_eq_of_parts (State.parts_of_offBenches hoff)]
    exact State.abortable_of_dmaRuns hrun ht hc

/-- The commands that end a host read without its data. -/
theorem exec_of_failure {i : Instr} (hi : i = .readDataReturn b c id .ur [] ∨ i = .readDataReturn b c id .ca [] ∨ i = .completionTimeout b c id)
    (h : ((s.core b c).dma.reads.find? fun w => w.id = id) = some r) (hsrc : r.srcSpace = 3) :
    ∃ x, (x = .ur ∨ x = .ca) ∧ exec i s = .next (settle s (s.readReturn b c id x)) := by
  rcases hi with rfl | rfl | rfl
  · exact ⟨.ur, .inl rfl, exec_readDataReturn ..⟩
  · exact ⟨.ca, .inr rfl, exec_readDataReturn ..⟩
  · have hu : completionTimeoutEffect b c id s = s.readReturn b c id .ca := by
      simp only [completionTimeoutEffect, h, hsrc, if_true]
    exact ⟨.ca, .inr rfl, by rw [exec_completionTimeout, hu]⟩

end

/-! ### Translations that no answer reaches (R392) -/

section
variable {s : State} {p b c pasid iova : Nat} {t : Trans}

/-- The translations in work of a core. -/
def Core.trans (k : Core) : List Trans := k.dma.trans

theorem State.hasCore_of_trans {P : Trans → Bool} (h : (s.core b c).dma.trans.find? P = some t) : s.HasCore b c :=
  State.hasCore_of (f := fun k => k.dma.trans.find? P) (by rw [h]; exact Option.some_ne_none t)

theorem State.transFails_of_runs (hp : s.benchPart b = some p) (hrun : s.dmaRuns p = true) :
    s.transFails b c t = (s.modCore b c fun k => k.modDma fun d => d.endTrans t).dmaFault b c t.q 7 t.slot t.iova t.pasid := by
  have hp' : (s.modCore b c fun k => k.modDma fun d => d.endTrans t).benchPart b = some p := hp
  have hrun' : (s.modCore b c fun k => k.modDma fun d => d.endTrans t).dmaRuns p = true := hrun
  simp only [State.transFails, hp', hrun', if_true]
  rfl

theorem translationTimeout_ends (hp : s.benchPart b = some p) (hrun : s.dmaRuns p = true) (ht : (s.part p).task.isSome = true)
    (hc : (s.part p).clamping = false)
    (h : ((s.core b c).dma.trans.find? fun x => x.pasid = pasidOf pasid && x.iova = iova && decide (x.since + 2 ^ 24 ≤ s.beat.periods)) = some t) :
    ∃ u, exec (.translationTimeout b c pasid iova) s = .next u ∧ (u.core b c).dma.fault.getLsbD 0 = true ∧
      (∃ e, (u.part p).stop = .abort e ∧ e.status = 0x0E ∧ e.detail = 0x63) ∧
      (u.core b c).dma.trans = (s.core b c).dma.trans.filter (· != t) ∧ sameBytes s u := by
  have hu : translationTimeoutEffect b c pasid iova s = s.transFails b c t := by simp only [translationTimeoutEffect, h]
  have hcore := State.hasCore_of_trans h
  have hf : s.Faulted _ p b c t.q 7 t.slot t.iova t.pasid := .after
    (State.faulted_dmaFault (hcore.modCore b c fun k => k.modDma fun d => d.endTrans t) hp (State.abortable_of_dmaRuns hrun ht hc))
    (s.modCore_coreView b c fun _ => rfl) (.modCore ..)
  have htrans := (State.dmaFault_coreView (s.modCore b c fun k => k.modDma fun d => d.endTrans t) b c t.q 7 t.slot t.iova t.pasid
    (v := Core.trans) fun _ _ => rfl).trans (State.modCore_coreView _ b c fun k => view_ite (view := Dma.trans) _ rfl rfl)
  refine ⟨_, exec_translationTimeout b c pasid iova s, ?_⟩
  rw [hu, State.transFails_of_runs hp hrun]
  refine ⟨(hf.settle s).bit, ⟨_, (hf.settle s).stop, rfl, rfl⟩, ?_, (hf.settle s).bytes⟩
  rw [State.core_settle]
  exact State.core_of_coreView_modCore htrans hcore

end

/-- Settles O23: host reads that fail, and translations that time out. -/
theorem hostReadsAndTranslationsFail : Obligations.HostReadsAndTranslationsFail := by
  refine ⟨fun s b c id p r i hi hp h hr hsrc hrun ht hc => ?_, fun s b c p pasid iova t => translationTimeout_ends⟩
  obtain ⟨x, hx, hu⟩ := exec_of_failure hi h hsrc
  have hf := (State.faulted_of_failure hx h hr hp hsrc hrun ht hc).settle s
  exact ⟨_, hu, hf.bit, fun hn => hf.capture hn (by decide), hf.stop, hf.bytes⟩

end Sys2Proof.Machine
end

section
/-! R348, R364, R373 to R377, R465: tiles that land, tiles that are late, and the end of the hold (O24). -/

namespace Sys2Proof.Machine

theorem exec_tileLand (b c i : Nat) (s : State) : exec (.tileLand b c i) s = .next (settle s (tileLandEffect b c i s)) := rfl
theorem exec_deadlineMiss (b c i : Nat) (s : State) : exec (.deadlineMiss b c i) s = .next (settle s (deadlineMissEffect b c i s)) := rfl
theorem exec_lateTileResume (p : Nat) (s : State) : exec (.lateTileResume p) s = .next (settle s (lateTileResumeEffect p s)) := rfl

/-! ### Tallies of a context's work (R599) -/

section
variable {s t : State}

theorem State.adoptedCtx_of_slotMaps (h : t.slotMaps = s.slotMaps) (p b ctx : Nat) : t.adoptedCtx p b ctx = s.adoptedCtx p b ctx := by
  have hr := State.reloc_of_slotMaps h p b ctx 0 1
  unfold State.reloc at hr
  cases ht : t.adoptedCtx p b ctx <;> cases hs : s.adoptedCtx p b ctx <;> simp_all

theorem State.tallyOf_of_slotMaps (h : t.slotMaps = s.slotMaps) {p : Nat} (hp : (t.part p).tallyBlocks = (s.part p).tallyBlocks) (b ctx i : Nat) :
    t.tallyOf p b ctx i = s.tallyOf p b ctx i := by
  rw [State.tallyOf, State.adoptedCtx_of_slotMaps h, hp, State.tallyOf]

/-- An update of a partition's task moves no slot. -/
theorem State.modPart_slotMaps (s : State) (p : Nat) {f : Part → Part} (h : ∀ x, (f x).slotMap = x.slotMap) :
    (s.modPart p f).slotMaps = s.slotMaps := by
  refine congrArg (·, _) (List.ext_getElem (by simp) fun i _ _ => ?_)
  simp only [List.getElem_map, State.modPart_parts, List.getElem_modify]
  split
  · exact h _
  · rfl

end

/-! ### TILE_LAND (R348, R364, R376) -/

/-- The partition once a tile of its run has landed at a gate of period n: the last such gate of a late tile ends the hold (R376). -/
def Part.noteLate (x : Part) (n : Nat) : Part := { x with task := x.task.map fun u => { u with lateGate := max u.lateGate n } }

/-- The first tile of slot i has landed, and the tiles of rest are left. -/
def State.tileLanded (s : State) (p b c i : Nat) (t : Tile) (rest : List Tile) : State :=
  let u := s.modSlot b c i fun y => { y with landed := t.num + 1, tiles := rest }
  if t.late then u.modPart p fun y => y.noteLate (s.landGate t.admitted) else u

/-- A signal that joins those of the next cycle under a condition. -/
def State.signalIf (s : State) (b c : Nat) (yes : Bool) (x : Signal) : State :=
  if yes then s.signal b c x.key x.tally x.delta x.ctx else s

/-- The signal of a landing of stream x in slot i (R348). -/
def State.landSignal (s : State) (p b i : Nat) (x : Slot) : Signal :=
  { key := 64 + i, tally := s.tallyOf p b (ctxOf x.starter) x.landTally, delta := 1, ctx := ctxOf x.starter }

/-- The landing of tile number num of stream x signals LAND_TALLY (R348, R831). -/
def Part.signalsLand (y : Part) (x : Slot) (num : Nat) : Bool := !y.scheduledRun && x.landEn && decide (x.noLand ≤ num)

section
variable {s : State} {p b c i : Nat} {t : Tile} {rest : List Tile}

theorem Part.scheduledRun_noteLate (x : Part) (n : Nat) : (x.noteLate n).scheduledRun = x.scheduledRun := by
  unfold Part.scheduledRun Part.noteLate
  cases x.task <;> rfl

theorem State.tileLanded_coreView {α : Type} (v : Core → α) : (s.tileLanded p b c i t rest).coreView v =
    (s.modSlot b c i fun y => { y with landed := t.num + 1, tiles := rest }).coreView v := view_ite _ rfl rfl

/-- Of what notes of late tiles leave, a landing leaves all of the partition. -/
theorem State.part_tileLanded {α : Type} {g : Part → α} (hg : ∀ x n, g (x.noteLate n) = g x) (hp : p < s.parts.length) :
    g ((s.tileLanded p b c i t rest).part p) = g (s.part p) := by
  refine view_ite (view := fun u : State => g (u.part p)) _ ?_ rfl
  rw [State.part_modPart _ _ _ (by exact hp), hg]
  rfl

theorem State.tileLanded_slotMaps : (s.tileLanded p b c i t rest).slotMaps = s.slotMaps := by
  have h := s.modCore_slotMaps b c fun k => k.modSlot i fun y => { y with landed := t.num + 1, tiles := rest }
  refine view_ite _ ((State.modPart_slotMaps _ p fun x => ?_).trans h) h
  rfl

theorem tileLandEffect_of_whole (hp : s.benchPart b = some p) (ht : ((s.core b c).slot i).tiles = t :: rest)
    (hb : ((s.core b c).slot i).busy = true) (hn : t.num = ((s.core b c).slot i).landed)
    (hw : s.tileWhole b c i ((s.core b c).slot i) t = true) :
    tileLandEffect b c i s =
      ((s.tileLanded p b c i t rest).signalIf b c ((s.part p).signalsLand ((s.core b c).slot i) t.num)
        (s.landSignal p b i ((s.core b c).slot i))).slotRest b c i := by
  have hlt := State.part_lt_of_benchPart hp
  have hcond : (((s.core b c).slot i).busy && decide (t.num = ((s.core b c).slot i).landed) &&
      s.tileWhole b c i ((s.core b c).slot i) t) = true := by rw [hb, decide_eq_true hn, hw]; rfl
  have heff : tileLandEffect b c i s =
      (let x := (s.core b c).slot i
       let u := s.tileLanded p b c i t rest
       (u.signalIf b c ((u.part p).signalsLand x t.num) (u.landSignal p b i x)).slotRest b c i) := by
    simp only [tileLandEffect, ht, hp, hcond, if_true]
    rfl
  have hsig : ((s.tileLanded p b c i t rest).part p).signalsLand ((s.core b c).slot i) t.num =
      (s.part p).signalsLand ((s.core b c).slot i) t.num :=
    State.part_tileLanded (g := fun y => y.signalsLand ((s.core b c).slot i) t.num)
      (fun y n => by rw [Part.signalsLand, y.scheduledRun_noteLate, ← Part.signalsLand]) hlt
  have htally (x : Slot) : (s.tileLanded p b c i t rest).landSignal p b i x = s.landSignal p b i x := by
    rw [State.landSignal, State.tallyOf_of_slotMaps State.tileLanded_slotMaps (State.part_tileLanded (g := Part.tallyBlocks) (fun _ _ => rfl) hlt),
      State.landSignal]
  simp only [heff, hsig, htally]

theorem State.signals_slotRest (s : State) (b c i : Nat) : ((s.slotRest b c i).core b c).signals = (s.core b c).signals := by
  refine view_ite (view := fun u : State => (u.core b c).signals) _ ?_ rfl
  obtain ⟨t, ht, hu⟩ := s.slotIdle_streams b c i
  have hquiet : (t.modSlot b c i Slot.quiet).coreView Core.signals = t.coreView Core.signals := t.modCore_coreView b c fun _ => rfl
  rw [hu, State.core_of_coreView hquiet]
  exact congrArg Prod.snd (State.core_of_coreView ht b c)

/-- A slot whose tile has landed rests if that was the last of what it is to start (R364). -/
theorem Slot.rested_of_landed {x : Slot} (hb : x.busy = true) (n : Nat) (rest : List Tile) :
    Slot.rested { x with landed := n, tiles := rest } =
      if (x.draining && decide (x.started = n)) || (!x.persistent && decide (x.armBase + x.count ≤ n)) then
        Slot.quiet { x with landed := n, tiles := rest } else { x with landed := n, tiles := rest } := by
  have hd : Slot.done { x with landed := n, tiles := rest } =
      ((x.draining && decide (x.started = n)) || (!x.persistent && decide (x.armBase + x.count ≤ n))) := by
    change (x.busy && _) = _
    rw [hb, Bool.true_and]
    rfl
  rw [Slot.rested, hd]

theorem State.HasCore.core_signalIf (h : s.HasCore b c) (yes : Bool) (x : Signal) : (s.signalIf b c yes x).core b c =
    { s.core b c with signals := (s.core b c).signals ++ if yes then [x] else [] } := by
  cases yes with
  | true => exact h.core_modCore _
  | false =>
    simp only [Bool.false_eq_true, if_false, List.append_nil]
    rfl

theorem State.signalIf_bytes (s : State) (b c : Nat) (yes : Bool) (x : Signal) :
    (s.signalIf b c yes x).coreView (fun _ => ()) = s.coreView fun _ => () := view_ite _ (s.modCore_coreView b c fun _ => rfl) rfl

theorem tileLand_lands (hp : s.benchPart b = some p) (ht : ((s.core b c).slot i).tiles = t :: rest)
    (hb : ((s.core b c).slot i).busy = true) (hn : t.num = ((s.core b c).slot i).landed)
    (hw : s.tileWhole b c i ((s.core b c).slot i) t = true) :
    let x := (s.core b c).slot i
    ∃ u, exec (.tileLand b c i) s = .next u ∧
      (let y := { x with landed := t.num + 1, tiles := rest }
       (u.core b c).slot i = (if (x.draining && decide (x.started = t.num + 1)) ||
         (!x.persistent && decide (x.armBase + x.count ≤ t.num + 1)) then y.quiet else y)) ∧
      (u.core b c).signals = (s.core b c).signals ++
        (if !(s.part p).scheduledRun && x.landEn && decide (x.noLand ≤ t.num) then
          [{ key := 64 + i, tally := s.tallyOf p b (ctxOf x.starter) x.landTally, delta := 1, ctx := ctxOf x.starter }] else []) ∧
      sameBytes s u := by
  intro x
  obtain ⟨hcore, hi⟩ : s.HasCore b c ∧ i < (s.core b c).dma.slots.length :=
    State.hasCore_of_slot (f := Slot.busy) (by rw [hb]; decide)
  refine ⟨_, exec_tileLand b c i s, ?_⟩
  rw [tileLandEffect_of_whole hp ht hb hn hw, State.core_settle]
  generalize hu : s.tileLanded p b c i t rest = u
  have hview {α : Type} (v : Core → α) : u.coreView v = _ := hu ▸ State.tileLanded_coreView v
  have hucore : u.HasCore b c := (hcore.modSlot b c i _).of_coreView (hview fun _ => ())
  have hudma : (u.core b c).dma = _ := State.core_of_coreView_modCore (hview Core.dma) hcore
  have huslot : (u.core b c).slot i = { x with landed := t.num + 1, tiles := rest } :=
    (Core.slot_of_dma hudma i).trans (Core.slot_modSlot _ hi)
  have hulen : i < (u.core b c).dma.slots.length := by rwa [hudma, Core.modSlot, Core.modDma_dma, List.length_modify]
  have husignals : (u.core b c).signals = (s.core b c).signals := State.core_of_coreView_modCore (hview Core.signals) hcore
  have hbytes : sameBytes s u := (sameBytes.modCore ..).trans (.of_coreView (hview fun _ => ()))
  generalize hyes : (s.part p).signalsLand ((s.core b c).slot i) t.num = yes
  generalize hsig : s.landSignal p b i ((s.core b c).slot i) = sig
  have hw := hucore.core_signalIf yes sig
  have hwview := u.signalIf_bytes b c yes sig
  refine ⟨?_, ?_, ((hbytes.trans (.of_coreView hwview)).trans (State.slotRest_bytes ..)).settle s⟩
  · rw [State.slot_slotRest (hucore.of_coreView hwview) (by rwa [hw]), hw]
    exact (congrArg Slot.rested huslot).trans (Slot.rested_of_landed hb ..)
  · rw [State.signals_slotRest, hw, ← hyes, ← hsig, ← husignals]
    rfl

end

/-! ### DEADLINE_MISS (R373 to R375, R377) -/

section
variable {s : State} {p b c i : Nat} {t : Task} {x : Tile}

/-- The partition that holds for a late tile, once its run is marked (R374, R463). -/
def Part.holds (y : Part) (b c i decision : Nat) : Part := match y.stop, y.after with
  | .none, _ => { y with stop := .late b c i decision }
  | .pause _, .none => { y with after := .late b c i decision }
  | .clamp _, .none => { y with after := .late b c i decision }
  | _, _ => y

/-- The deadline counters of a core. -/
def Core.misses (k : Core) : W32 × W32 := (k.dma.fault, k.dma.deadlineCount)

theorem State.deadline_eq (s : State) (b c n : Nat) :
    ∃ r, s.deadline b c n = { s.modCore b c (fun k => k.modDma fun d => d.deadline n) with raised := r } := State.raise_eq ..

theorem deadlineMissEffect_of_late (hp : s.benchPart b = some p)
    (hx : (((s.core b c).slot i).tiles.find? fun y => !y.late && s.isLate y && !s.dueMoves p y) = some x)
    (hrun : (s.part p).scheduledRun = true) (hd : s.dmaRuns p = true) :
    ∃ (r : List (Nat × W32)) (f : Slot → Slot), deadlineMissEffect b c i s =
      (((({ s.modCore b c (fun k => k.modDma fun d => d.deadline (if x.counted then 0 else 1)) with raised := r } : State).modSlot b c i f).mark p
        4).modPart p fun y => y.holds b c i (s.lateAt x)) := by
  obtain ⟨r, hr⟩ := s.deadline_eq b c (if x.counted then 0 else 1)
  refine ⟨r, fun y => { y with tiles := y.tiles.map fun u => if u.num = x.num then { u with late := true, counted := true } else u }, ?_⟩
  simp only [deadlineMissEffect, hp, hx, hrun, hd, hr, Bool.not_true, Bool.or_self, Bool.false_eq_true, if_false]
  rfl

theorem deadlineMiss_holds (ht : (s.part p).task = some t) (hp : s.benchPart b = some p)
    (hx : (((s.core b c).slot i).tiles.find? fun y => !y.late && s.isLate y && !s.dueMoves p y) = some x)
    (hrun : (s.part p).scheduledRun = true) (hstop : (s.part p).stop = .none) (hd : s.dmaRuns p = true) :
    ∃ u, exec (.deadlineMiss b c i) s = .next u ∧ (u.core b c).dma.fault.getLsbD 1 = true ∧
      (u.core b c).dma.deadlineCount = satAdd32 (s.core b c).dma.deadlineCount (if x.counted then 0 else 1) ∧
      (u.part p).stop = .late b c i (s.lateAt x) ∧ (u.part p).task = some (t.mark 4) ∧ sameBytes s u := by
  have hcore : s.HasCore b c := (State.hasCore_of_slot (f := fun y => y.tiles.find? fun y => !y.late && s.isLate y && !s.dueMoves p y)
    (by rw [hx]; exact Option.some_ne_none x)).1
  have hlt := State.part_lt_of_task ht
  obtain ⟨r, f, hu⟩ := deadlineMissEffect_of_late hp hx hrun hd
  refine ⟨_, exec_deadlineMiss b c i s, ?_⟩
  rw [hu, State.core_settle, State.part_eq_of_parts (settle_parts ..)]
  generalize hm : State.modSlot { s.modCore b c (fun k => k.modDma fun d => d.deadline (if x.counted then 0 else 1)) with raised := r } b c i f = u
  have hview : u.coreView Core.misses =
      (s.modCore b c fun k => k.modDma fun d => d.deadline (if x.counted then 0 else 1)).coreView Core.misses := by
    rw [← hm]
    exact State.modCore_coreView _ b c fun _ => rfl
  have hparts : u.parts = s.parts := by
    rw [← hm]
    rfl
  have hmarked : (u.mark p 4).part p = { s.part p with task := some (t.mark 4), classBT := false, mask := (t.mark 4).mask } := by
    rw [State.mark, State.part_modPart _ _ _ (hparts ▸ hlt), State.part_eq_of_parts hparts, ht]
  have hheld : ((u.mark p 4).modPart p fun y => y.holds b c i (s.lateAt x)).part p =
      { s.part p with task := some (t.mark 4), classBT := false, mask := (t.mark 4).mask, stop := .late b c i (s.lateAt x) } := by
    rw [State.part_modPart _ _ _ (by rw [State.mark, State.modPart_parts, List.length_modify, hparts]; exact hlt), hmarked, Part.holds]
    simp only [hstop]
  generalize hv : ((u.mark p 4).modPart p fun y => y.holds b c i (s.lateAt x)) = v at hheld ⊢
  have hvview : v.coreView Core.misses = _ := (hv ▸ rfl : v.coreView Core.misses = u.coreView Core.misses).trans hview
  have hregs : (v.core b c).misses = (setBit (s.core b c).dma.fault 1, satAdd32 (s.core b c).dma.deadlineCount _) :=
    State.core_of_coreView_modCore hvview hcore
  obtain ⟨hfault, hcount⟩ := Prod.ext_iff.1 hregs
  refine ⟨?_, hcount, congrArg Part.stop hheld, congrArg Part.task hheld, ((sameBytes.modCore ..).trans (.of_coreView hvview)).settle s⟩
  exact (congrArg (fun y : W32 => y.getLsbD 1) hfault).trans (getLsbD_setBit_self _ (by decide))

end

/-! ### LATE_TILE_RESUME (R376, R465) -/

section
variable {s : State} {p b c i d : Nat} {t : Task}

theorem State.modArcCores_stores (s : State) (p : Nat) (f : Core → Core) : (s.modArcCores p f).shows Bench.stores = s.shows Bench.stores :=
  foldl_keeps (view := State.shows Bench.stores)
    (fun s b => s.modBench_shows b (g := fun x => { x with cores := x.cores.map f }) fun _ => rfl) _ s

theorem lateTileResumeEffect_of_landed (ht : (s.part p).task = some t) (hstop : (s.part p).stop = .late b c i d)
    (hl : s.lateLeft p = false) : ∃ f : Core → Core, lateTileResumeEffect p s = (s.modArcCores p f).modPart p fun x =>
      { x with stop := .none, task := some { t with shift := t.shift + roundUp (t.lateGate - d / s.m) 16, lateGate := 0 } } := by
  refine ⟨fun k => k.modDma fun x => { x with slots := x.slots.map fun y => y.shift d (roundUp (t.lateGate - d / s.m) 16) s.m }, ?_⟩
  simp only [lateTileResumeEffect, hstop, ht, hl, Bool.false_eq_true, if_false]

theorem lateTileResume_goes_on (ht : (s.part p).task = some t) (hstop : (s.part p).stop = .late b c i d) (hl : s.lateLeft p = false) :
    ∃ u, exec (.lateTileResume p) s = .next u ∧ (u.part p).stop = .none ∧
      (u.part p).task = some { t with shift := t.shift + roundUp (t.lateGate - d / s.m) 16, lateGate := 0 } ∧ sameBytes s u := by
  obtain ⟨f, hu⟩ := lateTileResumeEffect_of_landed ht hstop hl
  have hparts : (s.modArcCores p f).parts = s.parts := State.modArc_view (view := State.parts) (fun _ _ _ => rfl) s p _
  have hhbm : (s.modArcCores p f).hbm = s.hbm := State.modArc_view (view := State.hbm) (fun _ _ _ => rfl) s p _
  have hpart := State.part_modPart (s.modArcCores p f) p (fun x =>
    { x with stop := .none, task := some { t with shift := t.shift + roundUp (t.lateGate - d / s.m) 16, lateGate := 0 } })
    (hparts ▸ State.part_lt_of_task ht)
  have hbytes : sameBytes s (lateTileResumeEffect p s) := by
    rw [hu]
    exact .of_stores hhbm (s.modArcCores_stores p f)
  refine ⟨_, exec_lateTileResume p s, ?_, ?_, hbytes.settle s⟩
  all_goals rw [hu, State.part_eq_of_parts (settle_parts ..), hpart]

end

/-- Settles O24: a tile that lands, one that is late, and the end of the hold. -/
theorem tilesLandOrAreLate : Obligations.TilesLandOrAreLate :=
  ⟨fun _ _ _ _ _ _ _ hp ht hb hn hw => tileLand_lands hp ht hb hn hw,
    fun _ _ _ ht => ⟨fun _ _ _ _ hp hx hrun hstop hd => deadlineMiss_holds ht hp hx hrun hstop hd,
      fun _ _ _ _ hstop hl => lateTileResume_goes_on ht hstop hl⟩⟩

end Sys2Proof.Machine
end

section
/-! R388, R390, R391, R393: answers to translations and page requests, and invalidations (O25). -/

namespace Sys2Proof.Machine

theorem exec_atsTranslationCompletion (b c pasid iova : Nat) (r : AtsResult) (s : State) :
    exec (.atsTranslationCompletion b c pasid iova r) s = .next (settle s (atsCompletionEffect b c pasid iova r s)) := rfl
theorem exec_priResponse (b c pasid iova : Nat) (r : PriResult) (s : State) :
    exec (.priResponse b c pasid iova r) s = .next (settle s (priResponseEffect b c pasid iova r s)) := rfl
theorem exec_atsInvalidate (f pasid base len : Nat) (s : State) :
    exec (.atsInvalidate f pasid base len) s = .next (settle s (atsInvalidateEffect f pasid base len s)) := rfl
theorem exec_atsInvalidateComplete (f : Nat) (s : State) :
    exec (.atsInvalidateComplete f) s = .next (settle s (atsInvalidateCompleteEffect f s)) := rfl

/-! ### Outputs that the last act of a command keeps -/

section
variable {a s : State} {o : Output}

theorem State.mem_out_emit (h : o ∈ s.out) (x : Output) : o ∈ (s.emit x).out := List.mem_cons_of_mem _ h

theorem State.mem_out_pfMessage (h : o ∈ s.out) : o ∈ s.pfMessage.out := by
  obtain hm | hm := pfMessage_cases s
  · exact hm ▸ State.mem_out_emit h _
  · exact hm ▸ h

theorem State.mem_out_messages (fs : List Nat) (h : o ∈ s.out) : o ∈ (fs.foldl (fun s f => s.emit (.msix f)) s).out := by
  induction fs generalizing s with
  | nil => exact h
  | cons f fs ih => exact ih (State.mem_out_emit h _)

theorem mem_out_settle (h : o ∈ s.out) : o ∈ (settle a s).out := by
  unfold settle
  split
  · exact State.mem_out_pfMessage (State.mem_out_messages _ h)
  · exact State.mem_out_messages _ h

end

/-! ### Answers (R388, R390, R391) -/

section
variable {s : State} {p b c pasid iova : Nat} {t : Trans}

theorem grant_fills {base len addr : Nat} (hcore : s.HasCore b c) (hp : s.benchPart b = some p)
    (ht : (s.core b c).dma.findTrans pasid iova false = some t) (hl : (s.core b c).dma.atc.length < 1024) :
    ∃ u, exec (.atsTranslationCompletion b c pasid iova (.grant base len addr)) s = .next u ∧
      (u.core b c).dma.atc = (s.core b c).dma.atc ++ [{ fn := s.runFn p, pasid := t.pasid, base := base, len := len, addr := addr }] ∧
      (u.core b c).dma.trans = (s.core b c).dma.trans.filter (· != t) := by
  have heff : atsCompletionEffect b c pasid iova (.grant base len addr) s = s.modCore b c fun k => k.modDma fun d =>
      (d.endTrans t).fill { fn := s.runFn p, pasid := t.pasid, base := base, len := len, addr := addr } := by
    simp only [atsCompletionEffect, ht, hp]
  refine ⟨_, exec_atsTranslationCompletion .., ?_⟩
  rw [State.core_settle, heff, hcore.core_modCore]
  exact ⟨congrArg (· ++ _) (if_neg (Nat.not_le.2 hl)), rfl⟩

/-- The Page Requests that a core has sent. -/
def Core.pages (k : Core) : W32 := k.dma.priCount

theorem State.deadline_pages (s : State) (b c n : Nat) : (s.deadline b c n).coreView Core.pages = s.coreView Core.pages :=
  (State.raise_coreView ..).trans (s.modCore_coreView b c fun _ => rfl)

/-- A Page Request counts once, whether the run is scheduled or not. -/
theorem State.pageRequest_pages (s : State) (p b c : Nat) (t : Trans) : ∃ g : Core → Core,
    (∀ k, (g k).pages = satAdd32 k.pages 1) ∧ (s.pageRequest p b c t).coreView Core.pages = (s.modCore b c g).coreView Core.pages := by
  refine ⟨_, fun k => ?_, view_ite (view := State.coreView Core.pages) _ (State.deadline_pages ..) rfl⟩
  exact view_ite (view := Core.pages) _ rfl rfl

theorem noAccess_asks (hcore : s.HasCore b c) (hp : s.benchPart b = some p)
    (ht : (s.core b c).dma.findTrans pasid iova false = some t) (h0 : t.phase = 0) (hpri : s.priOn p = true) :
    ∃ u, exec (.atsTranslationCompletion b c pasid iova .noAccess) s = .next u ∧
      (u.core b c).dma.priCount = satAdd32 (s.core b c).dma.priCount 1 ∧ Output.pageRequest t.pasid t.iova ∈ u.out := by
  have heff : atsCompletionEffect b c pasid iova .noAccess s = s.pageRequest p b c t := by
    simp only [atsCompletionEffect, ht, hp, h0, hpri, decide_true, Bool.and_self, if_true]
  obtain ⟨g, hg, hview⟩ := s.pageRequest_pages p b c t
  refine ⟨_, exec_atsTranslationCompletion .., ?_⟩
  rw [State.core_settle, heff]
  exact ⟨(State.core_of_coreView_modCore hview hcore).trans (hg _), mem_out_settle List.mem_cons_self⟩

theorem priResponse_asks_anew (hcore : s.HasCore b c) (ht : (s.core b c).dma.findTrans pasid iova true = some t) :
    ∃ u, exec (.priResponse b c pasid iova .success) s = .next u ∧ Output.atsRequest t.pasid t.iova ∈ u.out ∧
      (u.core b c).dma.trans = (s.core b c).dma.trans.filter (· != t) ++ [{ t with phase := 2, since := s.beat.periods }] := by
  have heff : priResponseEffect b c pasid iova .success s = (s.modCore b c fun k => k.modDma fun d =>
      { d.endTrans t with trans := (d.endTrans t).trans ++ [{ t with phase := 2, since := s.beat.periods }] }).emit
        (.atsRequest t.pasid t.iova) := by
    simp only [priResponseEffect, ht]
  refine ⟨_, exec_priResponse .., ?_⟩
  rw [State.core_settle, heff]
  exact ⟨mem_out_settle List.mem_cons_self, congrArg (fun k => k.dma.trans) (hcore.core_modCore _)⟩

end

/-! ### Invalidations (R393) -/

/-- The entries of a core's translation cache. -/
def Core.atc (k : Core) : List AtcEnt := k.dma.atc

/-- A core whose cache keeps the entries of keep. -/
def Core.invalidate (keep : AtcEnt → Bool) (k : Core) : Core := k.modDma fun d => { d with atc := d.atc.filter keep }

/-- The listed cores' caches keep the entries of keep. -/
def State.invalidate (s : State) (keep : AtcEnt → Bool) (cores : List (Nat × Nat)) : State :=
  cores.foldl (fun s bc => s.modCore bc.1 bc.2 (Core.invalidate keep)) s

section
variable {s : State} {b c : Nat} {keep : AtcEnt → Bool}

/-- A core that the device does not have has no entry to lose. -/
theorem State.atc_invalidate_same (s : State) (b c : Nat) (keep : AtcEnt → Bool) :
    ((s.modCore b c (Core.invalidate keep)).core b c).atc = (s.core b c).atc.filter keep := by
  by_cases h : s.HasCore b c
  · rw [h.core_modCore]
    rfl
  · have hnone {u : State} (hu : ¬ u.HasCore b c) : (u.core b c).atc = [] := not_not.1 fun hne => hu (State.hasCore_of (f := Core.atc) hne)
    have hview := s.modCore_coreView (v := fun _ => ()) b c (f := Core.invalidate keep) fun _ => rfl
    rw [hnone h, hnone fun hu => h (hu.of_coreView hview.symm), List.filter_nil]

/-- An update of a core reaches no other core. -/
theorem State.core_modCore_ne (s : State) {x : Nat × Nat} (hx : x ≠ (b, c)) (f : Core → Core) : (s.modCore x.1 x.2 f).core b c = s.core b c := by
  rw [State.core, State.modCore]
  obtain ⟨hb, h⟩ | ⟨-, h⟩ := s.bench_modBench_cases x.1 (fun y => y.modCore x.2 f) b
  · have hc : x.2 ≠ c := fun hc => hx (Prod.ext hb.symm hc)
    rw [h]
    exact getD_modify_ne _ _ _ _ _ hc
  · rw [h, State.core]

theorem State.atc_invalidate (s : State) (keep : AtcEnt → Bool) (cores : List (Nat × Nat)) :
    ((s.invalidate keep cores).core b c).atc = if (b, c) ∈ cores then (s.core b c).atc.filter keep else (s.core b c).atc := by
  induction cores generalizing s with
  | nil => rfl
  | cons x cores ih =>
    have hstep := ih (s.modCore x.1 x.2 (Core.invalidate keep))
    by_cases hx : x = (b, c)
    · subst hx
      rw [State.atc_invalidate_same, List.filter_filter] at hstep
      simpa [State.invalidate] using hstep
    · rw [State.core_modCore_ne s hx] at hstep
      simpa [State.invalidate, Ne.symm hx] using hstep

theorem State.invalidate_keeps {α : Type} {view : State → α} (h : ∀ s b c, view (s.modCore b c (Core.invalidate keep)) = view s)
    (s : State) (cores : List (Nat × Nat)) : view (s.invalidate keep cores) = view s :=
  foldl_keeps (f := fun s bc => s.modCore bc.1 bc.2 (Core.invalidate keep)) (fun s bc => h s bc.1 bc.2) cores s

theorem State.invalidate_invals (s : State) (keep : AtcEnt → Bool) (cores : List (Nat × Nat)) : (s.invalidate keep cores).invals = s.invals :=
  State.invalidate_keeps (view := State.invals) (fun _ _ _ => rfl) s cores

theorem State.invalidate_coreView (s : State) (keep : AtcEnt → Bool) (cores : List (Nat × Nat)) :
    (s.invalidate keep cores).coreView (fun _ => ()) = s.coreView fun _ => () :=
  State.invalidate_keeps (view := State.coreView fun _ => ()) (fun s b c => s.modCore_coreView b c fun _ => rfl) s cores

/-- The invalidation of f that waits for the requests that were issued with an entry of the range. -/
def State.inval (s : State) (f pasid base len : Nat) : Nat × List (Nat × Nat × Nat) :=
  (f, s.cores.flatMap fun bc => ((s.core bc.1 bc.2).dma.users f (pasidOf pasid) base len).map fun id => (bc.1, bc.2, id))

theorem atsInvalidateEffect_eq (s : State) (f pasid base len : Nat) : atsInvalidateEffect f pasid base len s =
    { s.invalidate (fun e => !e.hit f (pasidOf pasid) base len) s.cores with invals := s.invals ++ [s.inval f pasid base len] } := by
  rw [← s.invalidate_invals (fun e => !e.hit f (pasidOf pasid) base len) s.cores]
  rfl

theorem atsInvalidate_empties (s : State) (f pasid base len : Nat) : ∃ u, exec (.atsInvalidate f pasid base len) s = .next u ∧
    (∀ b c, (b, c) ∈ s.cores → (u.core b c).dma.atc = (s.core b c).dma.atc.filter fun e => !e.hit f (pasidOf pasid) base len) ∧
    u.invals = s.invals ++ [s.inval f pasid base len] ∧ sameBytes s u := by
  have hbytes : sameBytes s (atsInvalidateEffect f pasid base len s) := by
    rw [atsInvalidateEffect_eq]
    exact .of_coreView (v := fun _ => ()) (s.invalidate_coreView _ s.cores)
  refine ⟨_, exec_atsInvalidate .., fun b c hc => ?_, ?_, hbytes.settle s⟩
  · rw [State.core_settle, atsInvalidateEffect_eq]
    exact (s.atc_invalidate _ s.cores).trans (if_pos hc)
  · rw [settle_invals, atsInvalidateEffect_eq]

theorem atsInvalidateComplete_answers (s : State) (f i : Nat)
    (h : (s.invals.findIdx? fun v => v.1 = f && !v.2.any s.outstanding) = some i) : exec (.atsInvalidateComplete f) s =
      .next (settle s { s with invals := s.invals.eraseIdx i, out := .invalidateDone f :: s.out }) := by
  rw [exec_atsInvalidateComplete, atsInvalidateCompleteEffect, h]
  rfl

end

/-- Settles O25: translations and page requests that are answered, and an invalidation from its arrival to its answer. -/
theorem translationsAndInvalidations : Obligations.TranslationsAndInvalidations :=
  ⟨fun _ _ _ _ _ _ _ hp hb hc => ⟨fun _ _ _ ht hl => grant_fills ⟨hb, hc⟩ hp ht hl,
      fun ht h0 hpri => noAccess_asks ⟨hb, hc⟩ hp ht h0 hpri, fun ht => priResponse_asks_anew ⟨hb, hc⟩ ht⟩,
    fun s f pasid base len => ⟨atsInvalidate_empties s f pasid base len, fun i h => atsInvalidateComplete_answers s f i h⟩⟩

end Sys2Proof.Machine
end

section
/-! R421 to R430: the rounds of a hurdle: arrivals, the release, the overrun, and the early arrivals that a new round counts (O15). -/

namespace Sys2Proof.Machine

theorem exec_hurdleArrival (b c q : Nat) (s : State) : exec (.hurdleArrival b c q) s = .next (settle s (hurdleArrivalEffect b c q s)) := rfl
theorem exec_earlyArrivalMove (p h : Nat) (s : State) :
    exec (.earlyArrivalMove p h) s = .next (settle s (earlyArrivalMoveEffect p h s)) := rfl

/-! ### Cores and queues after an update, whether or not the device has them -/

section
variable {s : State} {b c q : Nat}

theorem State.core_modCore_cases (s : State) (b c : Nat) (f : Core → Core) (x y : Nat) :
    (s.modCore b c f).core x y = s.core x y ∨ ((b, c) = (x, y) ∧ (s.modCore b c f).core x y = f (s.core x y)) := by
  by_cases hx : (b, c) = (x, y)
  · obtain ⟨rfl, rfl⟩ := Prod.mk.inj hx
    by_cases h : s.HasCore b c
    · exact .inr ⟨rfl, h.core_modCore f⟩
    · have hnone {u : State} (hu : ¬ u.HasCore b c) : u.core b c = {} := not_not.1 fun hne => hu (State.hasCore_of (f := id) hne)
      have hview := s.modCore_coreView (v := fun _ => ()) b c (f := f) fun _ => rfl
      exact .inl ((hnone fun hu => h (hu.of_coreView hview.symm)).trans (hnone h).symm)
  · exact .inl (s.core_modCore_ne hx f)

theorem State.queue_modQueue_cases (s : State) (b c q : Nat) (f : Queue → Queue) (x y z : Nat) :
    (s.modQueue b c q f).queue x y z = s.queue x y z ∨
      ((b, c, q) = (x, y, z) ∧ (s.modQueue b c q f).queue x y z = f (s.queue x y z)) := by
  rw [State.queue, State.modQueue]
  obtain h | ⟨hx, h⟩ := s.core_modCore_cases b c (fun k => k.modQueue q f) x y
  · exact .inl (by rw [h])
  · obtain ⟨rfl, rfl⟩ := Prod.mk.inj hx
    rw [h]
    by_cases hq : q = z
    · subst hq
      by_cases hl : q < (s.core b c).queues.length
      · exact .inr ⟨rfl, getD_modify_same _ _ _ _ hl⟩
      · exact .inl (by rw [Core.queue, Core.modQueue_queues, List.modify_eq_self (Nat.not_lt.1 hl)])
    · exact .inl (getD_modify_ne _ _ _ _ _ hq)

/-- Only a queue that the device has holds a head command. -/
theorem State.queue_lt_of_headCmd {x : Nat × Cmd} (h : s.headCmd b c q = some x) : q < (s.core b c).queues.length := by
  by_contra hq
  unfold State.headCmd at h
  split at h
  · rw [State.queue, Core.queue, List.getD_eq_default _ _ (Nat.not_lt.1 hq)] at h
    cases h
  · cases h

end

/-! ### The hurdles of a partition -/

section
variable {s : State} {p h : Nat}

theorem State.part_lt_of_hurdle (hh : h < (s.part p).hurdles.length) : p < s.parts.length :=
  State.part_lt_of (f := fun x => x.hurdles.length) (Nat.ne_of_gt (Nat.zero_lt_of_lt hh))

theorem State.hurdles_modHurdle (s : State) (p h : Nat) (f : Hurdle → Hurdle) (hp : p < s.parts.length) :
    ((s.modHurdle p h f).part p).hurdles = (s.part p).hurdles.modify h f := by
  rw [State.modHurdle, State.part_modPart _ _ _ hp]

theorem State.hurdle_modHurdle (f : Hurdle → Hurdle) (hh : h < (s.part p).hurdles.length) :
    ((s.modHurdle p h f).part p).hurdle h = f ((s.part p).hurdle h) := by
  rw [Part.hurdle, State.hurdles_modHurdle _ _ _ _ (State.part_lt_of_hurdle hh)]
  exact getD_modify_same _ _ _ _ hh

theorem State.hurdles_length_modHurdle (f : Hurdle → Hurdle) (hh : h < (s.part p).hurdles.length) :
    h < ((s.modHurdle p h f).part p).hurdles.length := by
  rwa [State.hurdles_modHurdle _ _ _ _ (State.part_lt_of_hurdle hh), List.length_modify]

/-- Only a hurdle that the partition has waits for a new round. -/
theorem State.hurdle_lt_of_moveAt {m : Nat} (hm : ((s.part p).hurdle h).moveAt = some m) : h < (s.part p).hurdles.length := by
  by_contra hh
  rw [Part.hurdle, List.getD_eq_default _ _ (Nat.not_lt.1 hh)] at hm
  cases hm

end

/-! ### What the waiting queues' records are to the rest of the state -/

/-- The partitions, HBM, and of every bench the stores and the number of its cores. -/
def State.partsAndBytes (s : State) : List Part × Mem × List ((Mem × Mem) × List Unit) := (s.parts, s.coreView fun _ => ())

section
variable {s t : State} {p h : Nat}

theorem State.part_of_partsAndBytes (hv : t.partsAndBytes = s.partsAndBytes) (p : Nat) : t.part p = s.part p :=
  State.part_eq_of_parts (congrArg Prod.fst hv) p

theorem sameBytes.of_partsAndBytes (hv : t.partsAndBytes = s.partsAndBytes) : sameBytes s t := .of_coreView (congrArg Prod.snd hv)

theorem sameBytes.modHurdle (s : State) (p h : Nat) (f : Hurdle → Hurdle) : sameBytes s (s.modHurdle p h f) := .refl s

theorem State.modCore_partsAndBytes (s : State) (b c : Nat) (f : Core → Core) : (s.modCore b c f).partsAndBytes = s.partsAndBytes :=
  congrArg (Prod.mk s.parts) (s.modCore_coreView b c fun _ => rfl)

/-! ### The release of a round (R424) -/

/-- A round that releases. -/
def Hurdle.release (x : Hurdle) : Hurdle := { x with released := true, sense := !x.sense }

theorem State.releaseRound_partsAndBytes (s : State) (p h : Nat) (last : List Nat) :
    (s.releaseRound p h last).partsAndBytes = (s.modHurdle p h Hurdle.release).partsAndBytes :=
  foldl_keeps (fun _ _ => view_ite (view := State.partsAndBytes) _ rfl (State.modCore_partsAndBytes ..)) _ _

theorem State.hurdle_releaseRound (last : List Nat) (hh : h < (s.part p).hurdles.length) :
    ((s.releaseRound p h last).part p).hurdle h = ((s.part p).hurdle h).release := by
  rw [State.part_of_partsAndBytes (s.releaseRound_partsAndBytes p h last), State.hurdle_modHurdle _ hh]

theorem sameBytes.releaseRound (s : State) (p h : Nat) (last : List Nat) : sameBytes s (s.releaseRound p h last) :=
  (sameBytes.modHurdle s p h Hurdle.release).trans (.of_partsAndBytes (s.releaseRound_partsAndBytes p h last))

/-- HEAD of a queue and the arrival of its head command, without the cycle from which it may issue. -/
def Queue.counted (x : Queue) : Nat × Option (Nat × Bool × Nat) := (x.head, x.arrival.map fun r => (r.hurdle, r.held, r.at_))

theorem State.arrival_of_mem_waiters {w : Nat × Nat × Nat × Arrival} (hw : w ∈ s.waiters p h) :
    (s.queue w.1 w.2.1 w.2.2.1).arrival = some w.2.2.2 := by
  simp only [State.waiters, List.mem_flatMap, List.mem_filterMap] at hw
  obtain ⟨b, -, c, -, q, -, hq⟩ := hw
  split at hq
  next a ha =>
    split at hq
    · cases hq
      exact ha
    · cases hq
  next => cases hq

/-- A release gives the counted commands their cycles, and no queue anything else. -/
theorem State.counted_releaseRound (s : State) (p h : Nat) (last : List Nat) (b c q : Nat) :
    ((s.releaseRound p h last).queue b c q).counted = (s.queue b c q).counted := by
  refine List.foldlRecOn ((s.modHurdle p h Hurdle.release).waiters p h) _
    (motive := fun u : State => (u.queue b c q).counted = (s.queue b c q).counted) rfl fun u hu w hw => ?_
  dsimp only
  split
  · exact hu
  · obtain hsame | ⟨hq, hnew⟩ := u.queue_modQueue_cases w.1 w.2.1 w.2.2.1
      (fun x => { x with arrival := some { w.2.2.2 with freeAt := some (releaseAt u.now last (u.waiterPart p w)) } }) b c q
    · rw [hsame, hu]
    · have harr : (s.queue w.1 w.2.1 w.2.2.1).arrival = some w.2.2.2 :=
        State.arrival_of_mem_waiters (s := s.modHurdle p h Hurdle.release) hw
      obtain ⟨rfl, hcq⟩ := Prod.mk.inj hq
      obtain ⟨rfl, rfl⟩ := Prod.mk.inj hcq
      rw [hnew]
      refine Prod.ext (congrArg Prod.fst hu :) ?_
      rw [Queue.counted, Queue.counted, harr]
      rfl

/-! ### EARLY_ARRIVAL_MOVE (R425, R426) -/

/-- The new round of a hurdle, in which the early arrivals count. -/
def Hurdle.reopen (early : List Nat) (x : Hurdle) : Hurdle :=
  { x with released := false, arrived := early, acked := [], early := [], moveAt := none }

/-- The hurdle after the move: the new round releases at once where the early arrivals make it full. -/
def Hurdle.moved (x : Hurdle) : Hurdle :=
  if (x.reopen x.early).full && !x.early.isEmpty then (x.reopen x.early).release else x.reopen x.early

/-- The early arrivals move to the new round, in which they are counted and no longer held. -/
def State.reopenRound (s : State) (p h : Nat) : State :=
  let t := s.modHurdle p h (Hurdle.reopen ((s.part p).hurdle h).early)
  (t.waiters p h).foldl (fun s w =>
    if w.2.2.2.held then s.modQueue w.1 w.2.1 w.2.2.1 fun q =>
      { q with arrival := some { w.2.2.2 with held := false, at_ := s.now } } else s) t

theorem State.moveEarly_eq (s : State) (p h : Nat) : s.moveEarly p h =
    (let early := ((s.part p).hurdle h).early
     if (((s.reopenRound p h).part p).hurdle h).full && !early.isEmpty then (s.reopenRound p h).releaseRound p h early
     else s.reopenRound p h) := rfl

theorem State.reopenRound_partsAndBytes (s : State) (p h : Nat) : (s.reopenRound p h).partsAndBytes =
    (s.modHurdle p h (Hurdle.reopen ((s.part p).hurdle h).early)).partsAndBytes :=
  foldl_keeps (fun _ _ => view_ite (view := State.partsAndBytes) _ (State.modCore_partsAndBytes ..) rfl) _ _

theorem State.hurdle_reopenRound (hh : h < (s.part p).hurdles.length) :
    ((s.reopenRound p h).part p).hurdle h = ((s.part p).hurdle h).reopen ((s.part p).hurdle h).early := by
  rw [State.part_of_partsAndBytes (s.reopenRound_partsAndBytes p h), State.hurdle_modHurdle _ hh]

theorem sameBytes.reopenRound (s : State) (p h : Nat) : sameBytes s (s.reopenRound p h) :=
  (sameBytes.modHurdle ..).trans (.of_partsAndBytes (s.reopenRound_partsAndBytes p h))

theorem State.hurdle_moveEarly (hh : h < (s.part p).hurdles.length) :
    ((s.moveEarly p h).part p).hurdle h = ((s.part p).hurdle h).moved := by
  have hh' : h < ((s.reopenRound p h).part p).hurdles.length := by
    rw [State.part_of_partsAndBytes (s.reopenRound_partsAndBytes p h)]
    exact State.hurdles_length_modHurdle _ hh
  rw [State.moveEarly_eq, State.hurdle_reopenRound hh, Hurdle.moved]
  dsimp only
  split
  · rw [State.hurdle_releaseRound _ hh', State.hurdle_reopenRound hh]
  · exact State.hurdle_reopenRound hh

theorem sameBytes.moveEarly (s : State) (p h : Nat) : sameBytes s (s.moveEarly p h) := by
  rw [State.moveEarly_eq]
  dsimp only
  split
  · exact (sameBytes.reopenRound s p h).trans (.releaseRound ..)
  · exact .reopenRound s p h

theorem earlyArrivalMove_reopens {m : Nat} (hm : ((s.part p).hurdle h).moveAt = some m) (hnow : m ≤ s.now) :
    ∃ u, exec (.earlyArrivalMove p h) s = .next u ∧ (u.part p).hurdle h = ((s.part p).hurdle h).moved ∧ sameBytes s u := by
  have heff : earlyArrivalMoveEffect p h s = s.moveEarly p h := by simp only [earlyArrivalMoveEffect, hm, hnow, if_true]
  refine ⟨_, exec_earlyArrivalMove .., ?_⟩
  rw [heff, State.part_eq_of_parts (settle_parts ..)]
  exact ⟨State.hurdle_moveEarly (State.hurdle_lt_of_moveAt hm), (sameBytes.moveEarly s p h).settle s⟩

end

/-! ### HURDLE_ARRIVAL (R422, R423) -/

section
variable {s : State} {b c q p : Nat} {t : Task} {cmd : Cmd}

theorem State.arrivesNow_of_headCmd (hcmd : s.headCmd b c q = some (p, cmd)) (ht : s.issuing p = some t) (hen : cmd.hurdleEn = true)
    (hvalid : cmd.valid q = true) (hfly : (s.queue b c q).inflight = []) (harr : (s.queue b c q).arrival = none)
    (hlast : (s.queue b c q).lastDone < s.now) (hcomp : (s.bench b).computes = true) : s.arrivesNow b c q = some (p, cmd) := by
  simp only [State.arrivesNow, hcmd, ht, hen, hvalid, hfly, harr, hcomp, Option.isSome_some, List.isEmpty_nil, Option.isNone_none,
    decide_eq_true hlast, Bool.or_true, Bool.and_self, if_true]

/-- A queue arrives alone where no lower context of its engine arrives with it and no early arrival moves. -/
theorem hurdleArrivalEffect_alone (hq : s.arrivesNow b c q = some (p, cmd))
    (hlow : ∀ x < ctxOf q, s.arrivesNow b c (5 * x + engineOf q) = none) (hmove : ((s.part p).hurdle cmd.hurdle).moveAt = none) :
    hurdleArrivalEffect b c q s = s.arrive p b c q cmd.hurdle := by
  have hlower : (List.range (ctxOf q)).foldl (fun s x => s.arriveNow b c (5 * x + engineOf q)) s = s :=
    List.foldlRecOn _ _ (motive := fun u => u = s) rfl fun u hu x hx => by
      rw [hu, State.arriveNow, hlow x (List.mem_range.1 hx)]
  have hself : 5 * ctxOf q + engineOf q = q := Nat.div_add_mod q 5
  have hstays : earlyArrivalMoveEffect p cmd.hurdle s = s := by simp only [earlyArrivalMoveEffect, hmove]
  rw [hurdleArrivalEffect, hq]
  dsimp only
  rw [List.range_succ, List.foldl_append, hlower, List.foldl_cons, List.foldl_nil, hself, State.arriveNow, hq]
  dsimp only
  rw [hstays]

end

/-! ### What a hurdle makes of an arrival (R422, R428) -/

section
variable {s : State} {p b c q h : Nat}

/-- A hurdle in use whose rounds wait for participant a, and that neither an overrun nor a recorded round sets apart (R428, R833). -/
structure Part.Expects (x : Part) (h a : Nat) : Prop where
  used : h < x.hurdleCount
  part : (x.hurdle h).parts.contains a = true
  sound : (x.hurdle h).poisoned = false
  present : (x.hurdle h).missing.contains a = false

/-- The participant counts in the current round of the hurdle. -/
def Hurdle.counting (x : Hurdle) (a : Nat) : Hurdle := { x with arrived := a :: x.arrived }

/-- The queue's head command waits at hurdle h, counted for participant a. -/
def State.count (s : State) (p b c q h a : Nat) : State := (s.setArrival b c q h false none).modHurdle p h fun x => x.counting a

theorem State.arrive_of_expects {a : Nat} (ha : participant (s.slotOf p b (ctxOf q)) c q = a) (hx : (s.part p).Expects h a) :
    s.arrive p b c q h =
      if !((s.part p).hurdle h).arrived.contains a then
        if (((s.count p b c q h a).part p).hurdle h).full then
          (s.count p b c q h a).releaseRound p h ((s.count p b c q h a).countedNow p h)
        else s.count p b c q h a
      else if !((s.part p).hurdle h).early.contains a then
        (s.setArrival b c q h true none).modHurdle p h fun x => { x with early := a :: x.early }
      else s.poison p h b c q := by
  have hknown : ((s.part p).hurdleCount ≤ h || !((s.part p).hurdle h).parts.contains a) = false := by
    rw [hx.part]
    simpa using hx.used
  subst ha
  simp only [State.arrive, hknown, hx.sound, hx.present, Bool.and_false, Bool.false_eq_true, if_false]
  rfl

/-! ### A first arrival (R421 to R424) -/

theorem sameBytes.count (s : State) (p b c q h a : Nat) : sameBytes s (s.count p b c q h a) :=
  (sameBytes.modCore ..).trans (.modHurdle ..)

theorem State.hurdle_count (a : Nat) (hh : h < (s.part p).hurdles.length) :
    ((s.count p b c q h a).part p).hurdle h = ((s.part p).hurdle h).counting a :=
  State.hurdle_modHurdle (s := s.setArrival b c q h false none) _ hh

theorem State.counted_count (hcore : s.HasCore b c) (hq : q < (s.core b c).queues.length) (p h a : Nat) :
    ((s.count p b c q h a).queue b c q).counted = ((s.queue b c q).head, some (h, false, s.now)) :=
  congrArg Queue.counted (State.queue_modQueue _ _ _ _ _ hcore.bench hcore.core hq)

/-- A participant's first arrival of a round is counted, and the last arrival releases the round. -/
theorem State.arrive_first {a : Nat} (ha : participant (s.slotOf p b (ctxOf q)) c q = a) (hx : (s.part p).Expects h a)
    (hfirst : ((s.part p).hurdle h).arrived.contains a = false) (hh : h < (s.part p).hurdles.length) (hcore : s.HasCore b c)
    (hq : q < (s.core b c).queues.length) :
    ((s.arrive p b c q h).part p).hurdle h = (let y := ((s.part p).hurdle h).counting a
        if y.full then y.release else y) ∧
      ((s.arrive p b c q h).queue b c q).counted = ((s.queue b c q).head, some (h, false, s.now)) ∧
      sameBytes s (s.arrive p b c q h) := by
  have hh' : h < ((s.count p b c q h a).part p).hurdles.length :=
    State.hurdles_length_modHurdle (s := s.setArrival b c q h false none) _ hh
  have hcounted := State.counted_count hcore hq p h a
  rw [State.arrive_of_expects ha hx, hfirst, State.hurdle_count a hh]
  simp only [Bool.not_false, if_true]
  split
  · refine ⟨?_, (State.counted_releaseRound ..).trans hcounted, (sameBytes.count ..).trans (.releaseRound ..)⟩
    rw [State.hurdle_releaseRound _ hh', State.hurdle_count a hh]
  · exact ⟨State.hurdle_count a hh, hcounted, .count ..⟩

end

/-! ### An overrun (R428 to R430) -/

section
variable {s : State} {p b c q h n : Nat}

/-- Fields of a partition that an abort does not touch. -/
theorem State.part_abort {α : Type} {f : Part → α} (hf : ∀ x u v, f { x with stop := u, after := v } = f x) (s : State) (p : Nat)
    (e : Ending) : f ((s.abort p e).part p) = f (s.part p) := by
  by_cases hp : p < s.parts.length
  · rw [State.abort, State.part_modPart _ _ _ hp]
    split
    · rfl
    · rfl
    · rfl
    · exact hf _ _ _
    · exact hf _ _ _
  · rw [State.abort, State.modPart, List.modify_eq_self (Nat.not_lt.1 hp)]

theorem State.abortable_of_issuing {t : Task} (ht : s.issuing p = some t) : (s.part p).Abortable := by
  unfold State.issuing at ht
  split at ht
  next v hv =>
    split at ht
    next hrun =>
      simp only [Bool.and_eq_true] at hrun
      obtain ⟨⟨hrun, -⟩, -⟩ := hrun
      refine ⟨by rw [hv]; rfl, fun e he => ?_, fun n hn => ?_⟩
      · rw [Part.enginesRun, he] at hrun
        cases hrun
      · rw [Part.enginesRun, hn] at hrun
        cases hrun
    next => cases ht
  next => cases ht

theorem Part.Abortable.of_task {x y : Part} (hx : x.Abortable) (h : (y.task, y.stop) = (x.task, x.stop)) : y.Abortable := by
  obtain ⟨htask, hstop⟩ := Prod.mk.inj h
  exact ⟨htask ▸ hx.task, hstop ▸ hx.abort, hstop ▸ hx.clamp⟩

/-- Only a partition that the device has runs a task. -/
theorem State.part_lt_of_abortable (hx : (s.part p).Abortable) : p < s.parts.length :=
  State.part_lt_of (f := fun x => x.task.isSome) (by rw [hx.task]; decide)

/-- Context n of a core is in ERROR, where the core has it. -/
def Core.inError (k : Core) (n : Nat) : Prop := k.ctxState.getD n 4 = 4

/-- A core whose context m goes to ERROR (R173). -/
def Core.failCtx (m : Nat) (k : Core) : Core := { k with ctxState := k.ctxState.set m 4 }

theorem Core.inError_failCtx (k : Core) (m n : Nat) : (k.failCtx m).inError n ↔ m = n ∨ k.inError n := by
  by_cases hm : m = n
  · subst hm
    refine iff_of_true ?_ (.inl rfl)
    rw [Core.inError, Core.failCtx, List.getD_eq_getElem?_getD, List.getElem?_set, if_pos rfl]
    split <;> rfl
  · simp [Core.inError, Core.failCtx, List.getD, hm]

theorem State.inError_ctxError (hcore : s.HasCore b c) (n : Nat) : ((s.ctxError b c n).core b c).inError n := by
  rw [State.ctxError, hcore.core_modCore]
  exact (Core.inError_failCtx _ n n).2 (.inl rfl)

/-- A context in ERROR stays there when any context goes to ERROR. -/
theorem State.inError_ctxError_of (he : (s.core b c).inError n) (x y m : Nat) : ((s.ctxError x y m).core b c).inError n := by
  obtain hsame | ⟨-, hset⟩ := s.core_modCore_cases x y (Core.failCtx m) b c
  · exact hsame ▸ he
  · exact hset ▸ (Core.inError_failCtx _ m n).2 (.inr he)

theorem field_even (v lo n : Nat) (h : 0 < lo) : 2 ∣ field v lo n := (dvd_pow_self 2 (Nat.ne_of_gt h)).mul_left _

/-- HRD_FAULT shows an overrun in bit 0, in the captured word or beside it. -/
theorem State.hrdFault_hurdleFault (hp : p < s.parts.length) (h slot c q : Nat) :
    ((s.hurdleFault p 0 h slot c q).part p).hrdFault.getLsbD 0 = true := by
  rw [State.hurdleFault, State.part_eq_of_parts (State.raise_parts ..), State.part_modPart _ _ _ hp]
  dsimp only
  split
  · have hodd : (2 ^ 0 + field h 2 8 + field slot 10 4 + field c 14 1 + field (engineOf q) 15 3 + field (ctxOf q) 18 3) % 2 = 1 := by
      have h1 := field_even h 2 8 (by decide)
      have h2 := field_even slot 10 4 (by decide)
      have h3 := field_even c 14 1 (by decide)
      have h4 := field_even (engineOf q) 15 3 (by decide)
      have h5 := field_even (ctxOf q) 18 3 (by decide)
      omega
    rw [BitVec.getLsbD_ofNat, Nat.testBit_zero, hodd]
    decide
  · exact setBit_getLsbD_zero _

theorem State.part_hurdleFault {α : Type} {f : Part → α} (hf : ∀ x w, f { x with hrdFault := w } = f x) (hp : p < s.parts.length)
    (bit h slot c q : Nat) : f ((s.hurdleFault p bit h slot c q).part p) = f (s.part p) := by
  rw [State.hurdleFault, State.part_eq_of_parts (State.raise_parts ..), State.part_modPart _ _ _ hp]
  exact hf _ _

theorem State.hurdleFault_parts_length (s : State) (p bit h slot c q : Nat) :
    (s.hurdleFault p bit h slot c q).parts.length = s.parts.length := by
  simp [State.hurdleFault]

theorem State.hurdleFault_coreView (s : State) (p bit h slot c q : Nat) :
    (s.hurdleFault p bit h slot c q).coreView (fun _ => ()) = s.coreView fun _ => () := by
  rw [State.hurdleFault, State.raise_coreView]
  rfl

/-- The overrun is shown, and the hurdle poisoned. -/
def State.poisonHurdle (s : State) (p h slot c q : Nat) : State :=
  (s.hurdleFault p 0 h slot c q).modHurdle p h fun x => { x with poisoned := true }

/-- The contexts of the commands that wait at the hurdle go to ERROR, and with them the one of queue q. -/
def State.failWaiters (s : State) (p h b c q : Nat) : State :=
  (s.waiters p h).foldl (fun s w => s.ctxError w.1 w.2.1 (ctxOf w.2.2.1)) (s.ctxError b c (ctxOf q))

theorem State.poison_eq (s : State) (p h b c q : Nat) : s.poison p h b c q =
    ((s.poisonHurdle p h (s.slotOf p b (ctxOf q)) c q).failWaiters p h b c q).abort p { status := stOVERRUN } := rfl

theorem State.failWaiters_partsAndBytes (s : State) (p h b c q : Nat) :
    (s.failWaiters p h b c q).partsAndBytes = s.partsAndBytes :=
  (foldl_keeps (view := State.partsAndBytes) (fun _ _ => State.modCore_partsAndBytes ..) _ _).trans (s.modCore_partsAndBytes ..)

theorem State.inError_failWaiters (hcore : s.HasCore b c) (p h q : Nat) : ((s.failWaiters p h b c q).core b c).inError (ctxOf q) :=
  List.foldlRecOn _ _ (motive := fun u : State => (u.core b c).inError (ctxOf q)) (State.inError_ctxError hcore _) fun _ hu _ _ =>
    State.inError_ctxError_of hu ..

theorem State.HasCore.poisonHurdle (hcore : s.HasCore b c) (p h slot c' q : Nat) : (s.poisonHurdle p h slot c' q).HasCore b c :=
  have hfault := hcore.of_coreView (s.hurdleFault_coreView p 0 h slot c' q)
  ⟨hfault.bench, hfault.core⟩

theorem State.part_poisonHurdle (hh : h < (s.part p).hurdles.length) (slot c q : Nat) :
    let x := (s.poisonHurdle p h slot c q).part p
    (x.hurdle h).poisoned = true ∧ x.hrdFault.getLsbD 0 = true ∧ (x.task, x.stop) = ((s.part p).task, (s.part p).stop) := by
  have hp := State.part_lt_of_hurdle hh
  have hp' : p < (s.hurdleFault p 0 h slot c q).parts.length := by rwa [State.hurdleFault_parts_length]
  have hh' : h < ((s.hurdleFault p 0 h slot c q).part p).hurdles.length := by
    rwa [State.part_hurdleFault (f := Part.hurdles) (fun _ _ => rfl) hp]
  refine ⟨by rw [State.poisonHurdle, State.hurdle_modHurdle _ hh'], ?_⟩
  rw [State.poisonHurdle, State.modHurdle, State.part_modPart _ _ _ hp']
  exact ⟨State.hrdFault_hurdleFault hp .., State.part_hurdleFault (f := fun x => (x.task, x.stop)) (fun _ _ => rfl) hp ..⟩

/-- An overrun poisons the hurdle and ends the task, and the context of the second early arrival goes to ERROR. -/
theorem State.poison_ends (hh : h < (s.part p).hurdles.length) (hcore : s.HasCore b c) (hrun : (s.part p).Abortable) (q : Nat) :
    let u := s.poison p h b c q
    ((u.part p).hurdle h).poisoned = true ∧ (u.part p).hrdFault.getLsbD 0 = true ∧
      (u.part p).stop = .abort { status := stOVERRUN } ∧ (u.core b c).inError (ctxOf q) := by
  obtain ⟨hpoisoned, hfault, htask⟩ := State.part_poisonHurdle hh (s.slotOf p b (ctxOf q)) c q
  have hview := (s.poisonHurdle p h (s.slotOf p b (ctxOf q)) c q).failWaiters_partsAndBytes p h b c q
  have herror := State.inError_failWaiters (hcore.poisonHurdle p h (s.slotOf p b (ctxOf q)) c q) p h q
  rw [State.poison_eq]
  generalize (s.poisonHurdle p h (s.slotOf p b (ctxOf q)) c q).failWaiters p h b c q = u at hview herror
  rw [← State.part_of_partsAndBytes hview p] at hpoisoned hfault htask
  have hrun' : (u.part p).Abortable := hrun.of_task htask
  exact ⟨(State.part_abort (f := fun x => (x.hurdle h).poisoned) (fun _ _ _ => rfl) ..).trans hpoisoned,
    (State.part_abort (f := fun x => x.hrdFault.getLsbD 0) (fun _ _ _ => rfl) ..).trans hfault,
    State.stop_abort (State.part_lt_of_abortable hrun') hrun' _, herror⟩

end

/-! ### The statement -/

/-- Settles O15: a first arrival, an overrun, and the move of the early arrivals. -/
theorem hurdleRounds : Obligations.HurdleRounds := by
  refine ⟨fun s b c q p t cmd hcmd ht hen hvalid hfly harr hlast hcomp hlow hmove => ?_,
    fun s b c q p t cmd hcmd ht hen hvalid hfly harr hlast hcomp hlow hmove => ?_, fun _ _ _ _ => earlyArrivalMove_reopens⟩
  all_goals
    intro h x a hused hh hpart hsound hpresent
    have hcore : s.HasCore b c := ⟨State.bench_lt_of_computes hcomp, State.core_lt_of_headCmd hcmd⟩
    have heff : hurdleArrivalEffect b c q s = s.arrive p b c q h :=
      hurdleArrivalEffect_alone (State.arrivesNow_of_headCmd hcmd ht hen hvalid hfly harr hlast hcomp) hlow hmove
    have hx : (s.part p).Expects h a := ⟨hused, hpart, hsound, hpresent⟩
  · intro hfirst
    obtain ⟨hround, hcounted, hbytes⟩ := State.arrive_first rfl hx hfirst hh hcore (State.queue_lt_of_headCmd hcmd)
    obtain ⟨hhead, hcount⟩ := Prod.mk.inj hcounted
    refine ⟨_, exec_hurdleArrival .., ?_⟩
    rw [heff, State.part_eq_of_parts (settle_parts ..), State.queue, State.core_settle]
    exact ⟨hround, hcount, hhead, hbytes.settle s⟩
  · intro harrived hearly
    have hover : s.arrive p b c q h = s.poison p h b c q := by
      rw [State.arrive_of_expects rfl hx, harrived, hearly]
      rfl
    refine ⟨_, exec_hurdleArrival .., ?_⟩
    rw [heff, hover, State.part_eq_of_parts (settle_parts ..), State.core_settle]
    exact State.poison_ends hh hcore (State.abortable_of_issuing ht) q

end Sys2Proof.Machine
end

section
/-! SUPPORT. What a list of write requests makes of a byte of its store, whatever the cycles of the requests (O26). -/

namespace Sys2Proof.Machine

/-! ### Chunks of a string, written in turn -/

/-- A chunk, an offset and its bytes, gives the byte at x. -/
def Chunk.gives (w : Nat × Bytes) (x : Nat) : Prop := w.1 ≤ x ∧ x < w.1 + w.2.length

/-- The byte at x of a chunk that gives it. -/
def Chunk.byte (w : Nat × Bytes) (x : Nat) : Byte := w.2.getD (x - w.1) 0

/-- The chunks that requests write, in their order. -/
def MemReq.chunks (rs : List MemReq) : List (Nat × Bytes) := rs.flatMap (·.data)

theorem writesOf_eq_foldl (rs : List MemReq) (m : Mem) :
    writesOf rs m = (MemReq.chunks rs).foldl (fun m w => Memory.write m w.1 w.2) m := List.foldl_flatMap.symm

section
variable {w : Nat × Bytes} {x : Nat}

theorem get_write_of_gives (h : Chunk.gives w x) (m : Mem) : Memory.get (Memory.write m w.1 w.2) x = Chunk.byte w x :=
  (Memory.get_write ..).trans (if_pos h)

theorem get_write_of_not_gives (h : ¬ Chunk.gives w x) (m : Mem) : Memory.get (Memory.write m w.1 w.2) x = Memory.get m x :=
  (Memory.get_write ..).trans (if_neg h)

end

section
variable {ws : List (Nat × Bytes)} {x : Nat}

theorem get_foldl_write_of_not_gives (h : ∀ w ∈ ws, ¬ Chunk.gives w x) (m : Mem) :
    Memory.get (ws.foldl (fun m w => Memory.write m w.1 w.2) m) x = Memory.get m x := by
  induction ws generalizing m with
  | nil => rfl
  | cons w ws ih =>
    obtain ⟨hw, hws⟩ := List.forall_mem_cons.1 h
    rw [List.foldl_cons, ih hws, get_write_of_not_gives hw]

/-- Where all chunks that give a byte give it one value, their order does not count. -/
theorem get_foldl_write_of_agree {v : Byte} (hv : ∀ w ∈ ws, Chunk.gives w x → Chunk.byte w x = v) (m : Mem)
    (he : (∃ w ∈ ws, Chunk.gives w x) ∨ Memory.get m x = v) :
    Memory.get (ws.foldl (fun m w => Memory.write m w.1 w.2) m) x = v := by
  induction ws generalizing m with
  | nil => exact he.resolve_left fun ⟨_, hw, _⟩ => List.not_mem_nil hw
  | cons w ws ih =>
    obtain ⟨hw, hws⟩ := List.forall_mem_cons.1 hv
    rw [List.foldl_cons]
    refine ih hws _ ?_
    by_cases hg : Chunk.gives w x
    · exact .inr ((get_write_of_gives hg m).trans (hw hg))
    · rw [get_write_of_not_gives hg]
      refine he.imp_left fun ⟨y, hy, hgy⟩ => ?_
      obtain rfl | hy := List.mem_cons.1 hy
      · exact absurd hgy hg
      · exact ⟨y, hy, hgy⟩

end

section
variable {rs : List MemReq} {x : Nat}

theorem get_writesOf_of_not_gives (h : ∀ w ∈ MemReq.chunks rs, ¬ Chunk.gives w x) (m : Mem) :
    Memory.get (writesOf rs m) x = Memory.get m x := by
  rw [writesOf_eq_foldl, get_foldl_write_of_not_gives h]

theorem get_writesOf_of_agree {v : Byte} (hv : ∀ w ∈ MemReq.chunks rs, Chunk.gives w x → Chunk.byte w x = v)
    (he : ∃ w ∈ MemReq.chunks rs, Chunk.gives w x) (m : Mem) : Memory.get (writesOf rs m) x = v := by
  rw [writesOf_eq_foldl, get_foldl_write_of_agree hv m (.inl he)]

end

theorem writesOf_append (rs ss : List MemReq) (m : Mem) : writesOf (rs ++ ss) m = writesOf ss (writesOf rs m) := List.foldl_append

theorem writesOf_reads (r : MemReq) (hr : r.data = []) (a n : Nat) (m : Mem) : writesOf (r.reads a n) m = m := by
  have hp : MemReq.chunks (r.reads a n) = [] := by
    refine List.flatMap_eq_nil_iff.2 fun y hy => ?_
    obtain ⟨_, -, rfl⟩ := List.mem_map.1 hy
    exact hr
  rw [writesOf_eq_foldl, hp]
  rfl

/-- Bytes that are read as a string. -/
theorem Memory.read_eq_of_get {m : Mem} {a : Nat} {bs : Bytes} (h : ∀ k < bs.length, Memory.get m (a + k) = bs.getD k 0) :
    Memory.read m a bs.length = bs := by
  refine List.ext_getElem (by simp [Memory.read]) fun k _ hk => ?_
  simp only [Memory.read, List.getElem_map, List.getElem_range, h k hk, List.getD_eq_getElem _ _ hk]

/-! ### The requests of one string (R293) -/

section
variable {r : MemReq} {a x : Nat} {bs : Bytes} {w : Nat × Bytes}

theorem MemReq.mem_chunks_writes : w ∈ MemReq.chunks (r.writes a bs) ↔
    ∃ y ∈ rowParts a bs.length, w = (y.2.1, (bs.drop (y.2.1 - a)).take y.2.2) := by
  simp only [MemReq.chunks, MemReq.writes, List.mem_flatMap, List.mem_map, exists_exists_and_eq_and, List.mem_singleton]

theorem mem_rowParts {n : Nat} {y : Nat × Nat × Nat} : y ∈ rowParts a n ↔ n ≠ 0 ∧ ∃ i < (a + n - 1) / 4096 - a / 4096 + 1,
    (a / 4096 + i, max a (4096 * (a / 4096 + i)),
      min (a + n) (4096 * (a / 4096 + i) + 4096) - max a (4096 * (a / 4096 + i))) = y := by
  unfold rowParts
  split
  next h => simp [h]
  next h => simp [h]

/-- What a chunk gives is part of the string. -/
theorem MemReq.gives_of_mem_writes (hw : w ∈ MemReq.chunks (r.writes a bs)) (hx : Chunk.gives w x) :
    Chunk.gives (a, bs) x ∧ Chunk.byte w x = Chunk.byte (a, bs) x := by
  obtain ⟨y, hy, rfl⟩ := MemReq.mem_chunks_writes.1 hw
  obtain ⟨-, i, -, rfl⟩ := mem_rowParts.1 hy
  simp only [Chunk.gives, Chunk.byte, List.length_take, List.length_drop] at hx ⊢
  generalize hlo : max a (4096 * (a / 4096 + i)) = lo at hx ⊢
  refine ⟨by omega, ?_⟩
  rw [List.getD, List.getElem?_take_of_lt (by omega), List.getElem?_drop, show lo - a + (x - lo) = x - a by omega, ← List.getD]

/-- Every byte of the string is in a chunk: that of its row. -/
theorem MemReq.exists_mem_writes (hx : Chunk.gives (a, bs) x) : ∃ w ∈ MemReq.chunks (r.writes a bs), Chunk.gives w x := by
  simp only [Chunk.gives] at hx
  refine ⟨_, MemReq.mem_chunks_writes.2 ⟨_, mem_rowParts.2 ⟨by omega, x / 4096 - a / 4096, by omega, rfl⟩, rfl⟩, ?_⟩
  simp only [Chunk.gives, List.length_take, List.length_drop]
  omega

end

/-! ### Requests whose cycles are chosen -/

/-- The requests of a list, the n-th due in cycle f n. -/
def MemReq.retimed (rs : List MemReq) (f : Nat → Nat) : List MemReq := rs.zipIdx.map fun r => { r.1 with due := f r.2 }

theorem spread_eq_retimed (rs : List MemReq) (start len v : Nat) :
    spread rs start len v = MemReq.retimed rs fun n => start + (n + v) % max 1 len := rfl

section
variable {rs : List MemReq} {f : Nat → Nat}

/-- What does not speak of the cycles stays true. -/
theorem MemReq.forall_mem_retimed {P : MemReq → Prop} (hP : ∀ x d, P x → P { x with due := d }) (h : ∀ x ∈ rs, P x) :
    ∀ x ∈ MemReq.retimed rs f, P x := by
  intro x hx
  obtain ⟨y, hy, rfl⟩ := List.mem_map.1 hx
  exact hP _ _ (h _ (List.fst_mem_of_mem_zipIdx hy))

theorem MemReq.writesOf_retimed (m : Mem) : writesOf (MemReq.retimed rs f) m = writesOf rs m := by
  have hp : MemReq.chunks (MemReq.retimed rs f) = MemReq.chunks rs :=
    calc (rs.zipIdx.map fun r => ({ r.1 with due := f r.2 } : MemReq)).flatMap (·.data)
        = rs.zipIdx.flatMap fun r => r.1.data := List.flatMap_map ..
      _ = (rs.zipIdx.map Prod.fst).flatMap (·.data) := (List.flatMap_map ..).symm
      _ = MemReq.chunks rs := by rw [List.zipIdx_map_fst, MemReq.chunks]
  rw [writesOf_eq_foldl, hp, ← writesOf_eq_foldl]

end

theorem forall_mem_spread {rs : List MemReq} {start len v : Nat} {P : MemReq → Prop} (hP : ∀ x d, P x → P { x with due := d })
    (h : ∀ x ∈ rs, P x) : ∀ x ∈ spread rs start len v, P x := by
  rw [spread_eq_retimed]
  exact MemReq.forall_mem_retimed hP h

theorem writesOf_spread (rs : List MemReq) (start len v : Nat) (m : Mem) : writesOf (spread rs start len v) m = writesOf rs m := by
  rw [spread_eq_retimed, MemReq.writesOf_retimed]

/-- The requests of a string leave it where it is to stand. -/
theorem MemReq.read_writesOf_writes (r : MemReq) (a : Nat) (bs : Bytes) (m : Mem) :
    Memory.read (writesOf (r.writes a bs) m) a bs.length = bs := by
  refine Memory.read_eq_of_get fun k hk => ?_
  rw [(MemReq.writesAt_writes r a bs).2, if_pos (by omega), Nat.add_sub_cancel_left]

/-- They leave what they do not reach. -/
theorem MemReq.read_writesOf_writes_apart (r : MemReq) {a b n : Nat} {bs : Bytes} (h : b + n ≤ a ∨ a + bs.length ≤ b) (m : Mem) :
    Memory.read (writesOf (r.writes a bs) m) b n = Memory.read m b n := by
  refine List.map_congr_left fun k hk => ?_
  have hk := List.mem_range.1 hk
  rw [(MemReq.writesAt_writes r a bs).2, if_neg (by omega)]

/-! ### The requests of values, a row at a time -/

section
variable {r : MemReq} {xs : List (Nat × Bytes)} {x : Nat}

/-- The rows hold the chunks of the values, each of them once or more. -/
theorem mem_chunks_valueWrites {w : Nat × Bytes} :
    w ∈ MemReq.chunks (valueWrites r xs) ↔ ∃ v ∈ xs, w ∈ MemReq.chunks (r.writes v.1 v.2) := by
  constructor
  · intro h
    obtain ⟨_, hrow, hw⟩ := List.mem_flatMap.1 h
    obtain ⟨row, -, rfl⟩ := List.mem_map.1 hrow
    obtain ⟨y, hy, hw⟩ := List.mem_flatMap.1 hw
    obtain ⟨v, hv, hy⟩ := List.mem_flatMap.1 (List.mem_filter.1 hy).1
    exact ⟨v, hv, List.mem_flatMap.2 ⟨y, hy, hw⟩⟩
  · rintro ⟨v, hv, h⟩
    obtain ⟨y, hy, hw⟩ := List.mem_flatMap.1 h
    have hpart : y ∈ xs.flatMap fun x => r.writes x.1 x.2 := List.mem_flatMap.2 ⟨v, hv, hy⟩
    exact List.mem_flatMap.2 ⟨_, List.mem_map.2 ⟨y.row, List.mem_eraseDups.2 (List.mem_map.2 ⟨y, hpart, rfl⟩), rfl⟩,
      List.mem_flatMap.2 ⟨y, List.mem_filter.2 ⟨hpart, decide_eq_true rfl⟩, hw⟩⟩

theorem get_valueWrites_of_not_gives (h : ∀ v ∈ xs, ¬ Chunk.gives v x) (m : Mem) :
    Memory.get (writesOf (valueWrites r xs) m) x = Memory.get m x := by
  refine get_writesOf_of_not_gives (fun w hw hx => ?_) m
  obtain ⟨v, hv, hw⟩ := mem_chunks_valueWrites.1 hw
  exact h v hv (MemReq.gives_of_mem_writes hw hx).1

/-- A byte that one value gives, and no other value gives otherwise. -/
theorem get_valueWrites_of_agree {v : Nat × Bytes} (hv : v ∈ xs) (hx : Chunk.gives v x)
    (h : ∀ y ∈ xs, Chunk.gives y x → Chunk.byte y x = Chunk.byte v x) (m : Mem) :
    Memory.get (writesOf (valueWrites r xs) m) x = Chunk.byte v x := by
  refine get_writesOf_of_agree (fun w hw hwx => ?_) ?_ m
  · obtain ⟨y, hy, hw⟩ := mem_chunks_valueWrites.1 hw
    obtain ⟨hyx, hbyte⟩ := MemReq.gives_of_mem_writes hw hwx
    exact hbyte.trans (h y hy hyx)
  · obtain ⟨w, hw, hwx⟩ := MemReq.exists_mem_writes (r := r) hx
    exact ⟨w, mem_chunks_valueWrites.2 ⟨v, hv, hw⟩, hwx⟩

end

end Sys2Proof.Machine
end

section
/-! R433, R443, R450, R453, R454, R456, R457, R834: plumb commands take their engine, a problem writes its rows and its record, and the last
problem of a batch frees the engine (O26). -/

namespace Sys2Proof.Machine

theorem exec_psolve (b c q : Nat) (s : State) : exec (.psolve b c q []) s = .next (settle s (psolveEffect b c q [] s)) := rfl
theorem exec_pbatch (b c q : Nat) (s : State) : exec (.pbatch b c q []) s = .next (settle s (pbatchEffect b c q [] s)) := rfl
theorem exec_pdelta (b c q : Nat) (s : State) : exec (.pdelta b c q []) s = .next (settle s (pdeltaEffect b c q [] s)) := rfl
theorem exec_solveComplete (b c : Nat) (s : State) : exec (.solveComplete b c) s = .next (settle s (solveCompleteEffect b c s)) := rfl

/-! ### What the start of a problem leaves (R456) -/

/-- What a job is of: its command, and how many problems of it have ended. -/
def PlbJob.order (j : PlbJob) : PlbKind × Nat × Nat × Nat × Nat := (j.kind, j.q, j.desc, j.count, j.done)

/-- The orders of a core's plumb engine. -/
def Core.plbOrder (k : Core) : Option (PlbKind × Nat × Nat × Nat × Nat) := k.plb.job.map PlbJob.order

section
variable {s : State} {b c p q : Nat}

/-- The requests of a phase leave the stores and the cores. -/
theorem State.phaseRequests_coreView {α : Type} (v : Core → α) (s : State) (e : PEng) (phase perIter total start len : Nat) :
    (s.phaseRequests e phase perIter total start len).coreView v = s.coreView v := State.ask_coreView v ..

theorem State.modPlb_plbOrder (s : State) (b c : Nat) {f : PlbJob → PlbJob} (hf : ∀ j, (f j).order = j.order) :
    (s.modPlb b c f).coreView Core.plbOrder = s.coreView Core.plbOrder := by
  refine s.modCore_coreView b c fun k => ?_
  simp only [Core.plbOrder, Option.map_map]
  exact congrArg (k.plb.job.map ·) (funext hf)

/-- The job at the start of a problem: its cycles, and the phases that it goes through. -/
def PlbJob.starting (t : PTime) (credit : Bool) (cap : Nat) (x : Solved) (start : Nat) (j : PlbJob) : PlbJob :=
  { j with running := true, begun := start, setup := t.setup, iters := t.iters, write := t.write, phase := 0, total := t.phases credit cap x
           live := t.phases true cap x, stopK := x.k, endAt := start + t.setup, wait := 0 }

/-- One engine of a problem starts it. -/
def State.startOn (es : List PEng) (batch credit : Bool) (start : Nat) (s : State) (e : PEng) : State :=
  let t := problemTime es batch
  let x := (s.problem es batch).sol
  (s.modPlb e.b e.c (PlbJob.starting t credit e.d.cap x start)).phaseRequests e 0 t.iters.length (t.phases credit e.d.cap x) (start + 1)
    (t.setup - 1)

theorem State.startProblem_eq (s : State) (es : List PEng) (batch credit : Bool) (start : Nat) :
    s.startProblem es batch credit start = es.foldl (State.startOn es batch credit start) s := rfl

theorem State.startProblem_plbOrder (s : State) (es : List PEng) (batch credit : Bool) (start : Nat) :
    (s.startProblem es batch credit start).coreView Core.plbOrder = s.coreView Core.plbOrder := by
  rw [State.startProblem_eq]
  refine foldl_keeps (view := State.coreView Core.plbOrder) (fun s e => ?_) es s
  exact (State.phaseRequests_coreView ..).trans (State.modPlb_plbOrder _ _ _ fun _ => rfl)

/-- An engine with a problem of its own runs. -/
theorem State.job_startProblem_alone {e : PEng} {j : PlbJob} (hcore : s.HasCore e.b e.c) (hj : (s.core e.b e.c).plb.job = some j)
    (batch credit : Bool) (start : Nat) : ∃ k : PlbJob, ((s.startProblem [e] batch credit start).core e.b e.c).plb.job = some k ∧
      k.order = j.order ∧ k.running = true :=
  ⟨_, (State.core_of_coreView_modCore (v := fun k => k.plb.job) (State.phaseRequests_coreView ..) hcore).trans
    (congrArg (Option.map _) hj), rfl, rfl⟩

end

/-! ### What the checks of a problem look at (R458) -/

/-- The activation store of a bench, and the flips that its words hold. -/
def Bench.actSight (x : Bench) : Mem × List Upset := (x.act, x.upsets)

section
variable {s t : State}

theorem State.actSeen_of_actSight (h : t.shows Bench.actSight = s.shows Bench.actSight) : t.actSeen = s.actSeen := by
  funext b a n
  obtain ⟨hact, hups⟩ := Prod.mk.inj (State.shown_of_shows h b)
  rw [State.actSeen, State.actRead, hact, hups, State.actSeen, State.actRead]

theorem State.descAt_of (hm : t.slotMaps = s.slotMaps) (h : t.shows Bench.actSight = s.shows Bench.actSight) (p b q a : Nat) :
    t.descAt p b q a = s.descAt p b q a := by
  rw [State.descAt, State.descAt, State.actSeen_of_actSight h, show t.actOff p b (ctxOf q) 0 = _ from State.reloc_of_slotMaps hm ..]
  rfl

theorem State.descFault_of (h : t.shows Bench.actSight = s.shows Bench.actSight) : t.descFault = s.descFault := by
  have hw : t.actWord = s.actWord := by
    funext b a
    rw [State.actWord, State.actSeen_of_actSight h, State.actWord]
  have hoff : t.csrOffsets = s.csrOffsets := by
    funext b a n
    simp only [State.csrOffsets, hw]
  have hrows : t.csrRows = s.csrRows := by
    funext b a n nnz
    simp only [State.csrRows, hw, State.actSeen_of_actSight h]
  have hok : t.csrOk = s.csrOk := by
    funext b a n nnz
    rw [State.csrOk, hoff, hrows]
    rfl
  funext b base d rows halo batch
  simp only [State.descFault, hok]

end

/-! ### PSOLVE and PBATCH (R433, R456) -/

section
variable {s : State} {b c q p op : Nat} {t : Task} {cmd : Cmd}

/-- The command has issued, and has its engine. -/
def State.plumbIssued (s : State) (p : Nat) (t : Task) (b c q : Nat) (cmd : Cmd) (j : PlbJob) : State :=
  (s.issue p t b c q cmd 0 .solve).takePlumb b c j

theorem State.plumbIssued_bytes (j : PlbJob) : sameBytes s (s.plumbIssued p t b c q cmd j) := State.sameBytes_modCore_issue ..

theorem State.plumbIssued_shows {α : Type} {f : Bench → α} (hf : Bench.Coreless f) (j : PlbJob) :
    (s.plumbIssued p t b c q cmd j).shows f = s.shows f := (State.modCore_shows hf ..).trans (s.issue_shows p t b c q cmd _ _ hf)

theorem State.plumbIssued_slotMaps (j : PlbJob) : (s.plumbIssued p t b c q cmd j).slotMaps = s.slotMaps :=
  (State.modCore_slotMaps ..).trans (State.issue_slotMaps ..)

theorem State.job_plumbIssued (h : s.mayIssue b c q op = some (p, t, cmd)) (j : PlbJob) :
    ((s.plumbIssued p t b c q cmd j).core b c).plb.job = some j :=
  congrArg (fun k => k.plb.job) ((State.hasCore_issue h ..).core_modCore _)

theorem State.hasCore_plumbIssued (h : s.mayIssue b c q op = some (p, t, cmd)) (j : PlbJob) :
    (s.plumbIssued p t b c q cmd j).HasCore b c := (State.hasCore_issue h ..).modCore ..

theorem psolve_takes_engine (h : s.mayIssue b c q 0xC0 = some (p, t, cmd)) (hf : s.psolveFault p b c q cmd = none) :
    ∃ u, exec (.psolve b c q []) s = .next u ∧
      ((u.core b c).plb.job.map fun j => (j.kind, j.q, j.desc)) = some (.solve, q, cmd.b 25 0) ∧ sameBytes s u := by
  obtain ⟨step, hview⟩ : ∃ step, (psolveEffect b c q [] s).coreView Core.plbOrder = (s.plumbIssued p t b c q cmd
      { kind := .solve, q := q, step := step, desc := cmd.b 25 0 }).coreView Core.plbOrder := by
    refine ⟨(s.queue b c q).stepHeads.length, ?_⟩
    simp only [psolveEffect, State.strike, List.foldl_nil, h, hf]
    exact view_ite _ (State.startProblem_plbOrder ..) rfl
  refine ⟨_, exec_psolve b c q s, ?_, ((State.plumbIssued_bytes _).trans (.of_coreView hview)).settle s⟩
  have hjob := State.core_of_coreView hview b c
  simp only [Core.plbOrder, State.job_plumbIssued h] at hjob
  obtain ⟨j, hj, horder⟩ := Option.map_eq_some_iff.1 hjob
  simp only [PlbJob.order, Prod.mk.injEq] at horder
  obtain ⟨hkind, hq, hdesc, -⟩ := horder
  rw [State.core_settle, hj, Option.map_some, hkind, hq, hdesc]

theorem State.startBatch_of_fits {a : Nat} {d : PDesc} (hd : s.descAt p b q a = some d)
    (hf : s.descFault b (s.actOff p b (ctxOf q) 0) d d.n 0 true = none) (credit : Bool) (start : Nat) :
    s.startBatch p b c q a credit start = s.startProblem [batchEng b c (s.actOff p b (ctxOf q) 0) a d] true credit start := by
  simp only [State.startBatch, hd, hf]

theorem State.pbatchFault_eq_none (h : s.pbatchFault p b q cmd = none) : ∃ d, s.descAt p b q (cmd.b 25 0) = some d ∧
    s.descFault b (s.actOff p b (ctxOf q) 0) d d.n 0 true = none := by
  unfold State.pbatchFault at h
  split at h
  · cases h
  split at h
  · cases h
  next d hd => exact ⟨d, hd, h⟩

/-- A batch whose first problem has no fault starts it: the checks see the same after the issue. -/
theorem pbatchEffect_of_accepted (h : s.mayIssue b c q 0xC1 = some (p, t, cmd)) (hf : s.pbatchFault p b q cmd = none) :
    ∃ step base d start, pbatchEffect b c q [] s = (s.plumbIssued p t b c q cmd
      { kind := .batch, q := q, step := step, desc := cmd.b 25 0, count := cmd.a 15 0 }).startProblem
        [batchEng b c base (cmd.b 25 0) d] true t.credit start := by
  obtain ⟨d, hd, hfit⟩ := State.pbatchFault_eq_none hf
  let u := s.plumbIssued p t b c q cmd
    { kind := .batch, q := q, step := (s.queue b c q).stepHeads.length, desc := cmd.b 25 0, count := cmd.a 15 0 }
  have hmaps : u.slotMaps = s.slotMaps := State.plumbIssued_slotMaps _
  have hact : u.shows Bench.actSight = s.shows Bench.actSight := State.plumbIssued_shows (fun _ _ _ => rfl) _
  have hbase : u.actOff p b (ctxOf q) 0 = s.actOff p b (ctxOf q) 0 := State.reloc_of_slotMaps hmaps ..
  have hstart := State.startBatch_of_fits (c := c) ((State.descAt_of hmaps hact ..).trans hd)
    (by rw [State.descFault_of hact, hbase]; exact hfit) t.credit u.now
  refine ⟨(s.queue b c q).stepHeads.length, u.actOff p b (ctxOf q) 0, d, u.now, ?_⟩
  simp only [pbatchEffect, State.strike, List.foldl_nil, h, hf]
  exact hstart

theorem pbatch_takes_engine (h : s.mayIssue b c q 0xC1 = some (p, t, cmd)) (hf : s.pbatchFault p b q cmd = none) :
    ∃ u, exec (.pbatch b c q []) s = .next u ∧
      ((u.core b c).plb.job.map fun j => (j.kind, j.q, j.desc, j.count, j.done, j.running)) =
        some (.batch, q, cmd.b 25 0, cmd.a 15 0, 0, true) ∧ sameBytes s u := by
  obtain ⟨step, base, d, start, hu⟩ := pbatchEffect_of_accepted h hf
  refine ⟨_, exec_pbatch b c q s, ?_⟩
  rw [hu, State.core_settle]
  refine ⟨?_, ((State.plumbIssued_bytes _).trans (.of_coreView (State.startProblem_plbOrder ..))).settle s⟩
  obtain ⟨k, hk, horder, hrun⟩ := State.job_startProblem_alone (e := batchEng b c base (cmd.b 25 0) d) (State.hasCore_plumbIssued h _)
    (State.job_plumbIssued h _) true t.credit start
  simp only [PlbJob.order, Prod.mk.injEq] at horder
  obtain ⟨hkind, hq, hdesc, hcount, hdone⟩ := horder
  rw [show ((State.startProblem _ [_] true t.credit start).core b c).plb.job = some k from hk, Option.map_some, hkind, hq, hdesc, hcount,
    hdone, hrun]

end

/-! ### PDELTA (R453, R454) -/

section
variable {r : Resident} {xs : List (Nat × Bytes)}

theorem lookup_filter_of_fst (p : Nat → Bool) (xs : List (Nat × Bytes)) {i : Nat} (hi : p i = true) :
    (xs.filter fun x => p x.1).lookup i = xs.lookup i := by
  induction xs with
  | nil => rfl
  | cons x xs ih =>
    obtain ⟨j, v⟩ := x
    by_cases hj : i = j
    · subst hj
      simp only [List.filter_cons, hi, if_true, List.lookup_cons, beq_self_eq_true]
    · have hne : (i == j) = false := beq_false_of_ne hj
      rw [List.lookup_cons, hne, ← ih, List.filter_cons]
      split
      · rw [List.lookup_cons, hne]
      · rfl

/-- The engine's own entries: each of its indices that the list names, with the last value that the list gives it. -/
theorem Resident.mem_own {y : Nat × Bytes} : y ∈ r.own xs ↔
    r.nzFirst ≤ y.1 ∧ y.1 < r.nzFirst + r.nzCount ∧ (∃ x ∈ xs, x.1 = y.1) ∧ y.2 = (xs.reverse.lookup y.1).getD [] := by
  have hlast {i : Nat} (h1 : r.nzFirst ≤ i) (h2 : i < r.nzFirst + r.nzCount) :
      ((xs.filter fun x => decide (r.nzFirst ≤ x.1) && decide (x.1 < r.nzFirst + r.nzCount)).reverse).lookup i = xs.reverse.lookup i := by
    rw [← List.filter_reverse]
    exact lookup_filter_of_fst (fun i => decide (r.nzFirst ≤ i) && decide (i < r.nzFirst + r.nzCount)) _ (by simp [h1, h2])
  simp only [Resident.own, List.mem_map, List.mem_eraseDups, List.mem_filter, Bool.and_eq_true, decide_eq_true_eq]
  constructor
  · rintro ⟨_, ⟨x, ⟨hx, h1, h2⟩, rfl⟩, rfl⟩
    exact ⟨h1, h2, ⟨x, hx, rfl⟩, by rw [hlast h1 h2]⟩
  · rintro ⟨h1, h2, ⟨x, hx, hxy⟩, hv⟩
    exact ⟨y.1, ⟨x, ⟨hx, hxy ▸ h1, hxy ▸ h2⟩, hxy⟩, by rw [hlast h1 h2, ← hv]⟩

/-- A request of a core's plumb engine. -/
def plumbReq (c : Nat) : MemReq := { port := 4 + c, who := .plumb c }

/-- The values to write, with their places. -/
def Resident.placed (r : Resident) (xs : List (Nat × Bytes)) : List (Nat × Bytes) := (r.own xs).map fun x => (r.valueAt x.1, x.2)

theorem mem_of_lookup_reverse {i : Nat} {v : Bytes} (h : xs.reverse.lookup i = some v) : (i, v) ∈ xs := by
  obtain ⟨ys, zs, hxs, -⟩ := List.lookup_eq_some_iff.1 h
  exact List.mem_reverse.1 (hxs ▸ List.mem_append_right _ List.mem_cons_self)

section
variable (hlen : ∀ x ∈ xs, x.2.length = 2)
include hlen

/-- What a placed value gives: bytes of the engine's own values, those of its index. -/
theorem Resident.gives_of_mem_placed {w : Nat × Bytes} {x : Nat} (hw : w ∈ r.placed xs) (hx : Chunk.gives w x) :
    ∃ i, r.nzFirst ≤ i ∧ i < r.nzFirst + r.nzCount ∧ w = (r.valueAt i, (xs.reverse.lookup i).getD []) ∧
      r.valueAt i ≤ x ∧ x < r.valueAt i + 2 := by
  obtain ⟨⟨i, v⟩, hy, rfl⟩ := List.mem_map.1 hw
  obtain ⟨h1, h2, -, hval⟩ := Resident.mem_own.1 hy
  obtain rfl : v = (xs.reverse.lookup i).getD [] := hval
  refine ⟨i, h1, h2, rfl, hx.1, Nat.lt_of_lt_of_le hx.2 (Nat.add_le_add_left ?_ _)⟩
  cases hv : xs.reverse.lookup i with
  | none => exact Nat.zero_le 2
  | some v => exact (hlen _ (mem_of_lookup_reverse hv)).le

/-- Each of the engine's own values that the list names is its last value. -/
theorem Resident.read_placed {k : MemReq} {i : Nat} {v : Bytes} (hv : xs.reverse.lookup i = some v) (h1 : r.nzFirst ≤ i)
    (h2 : i < r.nzFirst + r.nzCount) (m : Mem) : Memory.read (writesOf (valueWrites k (r.placed xs)) m) (r.valueAt i) 2 = v := by
  have hmem := mem_of_lookup_reverse hv
  have hl : v.length = 2 := hlen _ hmem
  have hplaced : (r.valueAt i, v) ∈ r.placed xs :=
    List.mem_map.2 ⟨(i, v), Resident.mem_own.2 ⟨h1, h2, ⟨_, hmem, rfl⟩, by rw [hv]; rfl⟩, rfl⟩
  rw [← hl]
  refine Memory.read_eq_of_get fun n hn => ?_
  have hbyte : v.getD n 0 = Chunk.byte (r.valueAt i, v) (r.valueAt i + n) := by rw [Chunk.byte, Nat.add_sub_cancel_left]
  rw [hbyte]
  refine get_valueWrites_of_agree hplaced ⟨Nat.le_add_right .., Nat.add_lt_add_left hn _⟩ (fun w hw hx => ?_) m
  obtain ⟨i', h3, -, rfl, h4, h5⟩ := Resident.gives_of_mem_placed hlen hw hx
  obtain rfl : i' = i := by
    unfold Resident.valueAt at h4 h5
    omega
  rw [hv]
  rfl

/-- Nothing but the engine's own values is written (R453). -/
theorem Resident.get_placed_of_outside {k : MemReq} {x : Nat} (h : x < r.at_ + r.vals ∨ r.at_ + r.vals + 2 * r.nzCount ≤ x) (m : Mem) :
    Memory.get (writesOf (valueWrites k (r.placed xs)) m) x = Memory.get m x := by
  refine get_valueWrites_of_not_gives (fun w hw hx => ?_) m
  obtain ⟨i, h1, h2, -, h3, h4⟩ := Resident.gives_of_mem_placed hlen hw hx
  unfold Resident.valueAt at h3 h4
  omega

end

end

section
variable {s : State} {b c q p : Nat} {t : Task} {cmd : Cmd}

theorem flipBits_length (a : Nat) (bs : Bytes) (us : List Upset) : (flipBits a bs us).length = bs.length :=
  foldl_keeps (view := List.length) (fun _ _ => view_ite _ (List.length_modify ..) rfl) us bs

theorem State.actSeen_length (s : State) (b a n : Nat) : (s.actSeen b a n).length = n := by
  rw [State.actSeen, flipBits_length, State.actRead, Memory.read, List.length_map, List.length_range]

theorem State.length_deltas (a n : Nat) : (s.deltas b a n).length = n := by
  rw [State.deltas, List.length_map, List.length_range]

theorem State.value_length_of_mem_deltas {a n : Nat} : ∀ x ∈ s.deltas b a n, x.2.length = 2 := by
  intro x hx
  obtain ⟨i, -, rfl⟩ := List.mem_map.1 hx
  exact s.actSeen_length ..

theorem State.ask_ask (s : State) (b : Nat) (rs ss : List MemReq) : (s.ask b rs).ask b ss = s.ask b (rs ++ ss) := by
  simp only [State.ask, State.modBench, List.modify_modify_eq, Function.comp_def, List.append_assoc]

/-- The job of a PDELTA whose indices are all in range (R457). -/
def State.deltaJob (s : State) (b c q : Nat) (cmd : Cmd) : PlbJob :=
  { kind := .delta, q := q, step := (s.queue b c q).stepHeads.length, desc := cmd.b 25 0, count := cmd.a 23 0, begun := s.now
    endAt := s.now + (ceilDiv (cmd.a 23 0) 16 + 24) }

/-- The requests of a PDELTA: for the n entries of its list at a, and for the values ws. -/
def deltaRequests (c a n start v : Nat) (ws : List (Nat × Bytes)) : List MemReq :=
  spread ((plumbReq c).reads a (8 * n)) start (ceilDiv n 16 + 24) v ++ spread (valueWrites (plumbReq c) ws) start (ceilDiv n 16 + 24) (v / 2)

theorem pdeltaEffect_of_accepted {r : Resident} {a n : Nat} (ha : s.actOff p b (ctxOf q) (cmd.b 25 0) = a) (hn : cmd.a 23 0 = n)
    (h : s.mayIssue b c q 0xC2 = some (p, t, cmd)) (hr : s.residentOf b c = some r) (hfit : actFits a (8 * n) 8 = true)
    (hin : ∀ x ∈ s.deltas b a n, x.1 < r.nnzTotal) : ∃ start v, pdeltaEffect b c q [] s =
      (s.plumbIssued p t b c q cmd (s.deltaJob b c q cmd)).fresh.2.ask b (deltaRequests c a n start v (r.placed (s.deltas b a n))) := by
  have hgood : ((s.deltas b a n).takeWhile fun x => decide (x.1 < r.nnzTotal)) = s.deltas b a n :=
    List.takeWhile_eq_self_iff.2 fun x hx => decide_eq_true (hin x hx)
  refine ⟨s.now, (s.plumbIssued p t b c q cmd (s.deltaJob b c q cmd)).fresh.1, ?_⟩
  rw [deltaRequests, ← State.ask_ask]
  simp only [pdeltaEffect, State.strike, List.foldl_nil, h, ha, hn, hfit, hr, hgood, State.length_deltas, Bool.not_true,
    Bool.false_eq_true, if_false, if_true]
  subst hn
  rfl

/-- Whose a request is. -/
def MemReq.owner (x : MemReq) : Nat × Bool × Who := (x.port, x.rack, x.who)

theorem owner_of_mem_deltaRequests {a n start v : Nat} {ws : List (Nat × Bytes)} :
    ∀ x ∈ deltaRequests c a n start v ws, x.owner = (plumbReq c).owner := by
  refine List.forall_mem_append.2 ⟨forall_mem_spread (fun _ _ h => h) fun x hx => ?_, forall_mem_spread (fun _ _ h => h) fun x hx => ?_⟩
  · obtain ⟨_, -, rfl⟩ := List.mem_map.1 hx
    rfl
  · obtain ⟨_, -, rfl⟩ := List.mem_map.1 hx
    rfl

theorem writesOf_deltaRequests (a n start v : Nat) (ws : List (Nat × Bytes)) (m : Mem) :
    writesOf (deltaRequests c a n start v ws) m = writesOf (valueWrites (plumbReq c) ws) m := by
  rw [deltaRequests, writesOf_append, writesOf_spread, writesOf_spread, writesOf_reads _ rfl]

theorem pdelta_writes_own {r : Resident} (h : s.mayIssue b c q 0xC2 = some (p, t, cmd)) (hr : s.residentOf b c = some r) :
    let n := cmd.a 23 0
    let a := s.actOff p b (ctxOf q) (cmd.b 25 0)
    let xs := s.deltas b a n
    actFits a (8 * n) 8 = true → (∀ x ∈ xs, x.1 < r.nnzTotal) →
      ∃ u rs, exec (.pdelta b c q []) s = .next u ∧ (u.core b c).plb.job.map (·.endAt) = some (s.now + ceilDiv n 16 + 24) ∧
        (u.bench b).reqs = (s.bench b).reqs ++ rs ∧ (∀ x ∈ rs, x.port = 4 + c ∧ x.rack = false ∧ x.who = .plumb c) ∧
        (∀ i v m, xs.reverse.lookup i = some v → r.nzFirst ≤ i → i < r.nzFirst + r.nzCount →
          Memory.read (writesOf rs m) (r.at_ + r.vals + 2 * (i - r.nzFirst)) 2 = v) ∧
        (∀ x m, x < r.at_ + r.vals ∨ r.at_ + r.vals + 2 * r.nzCount ≤ x → Memory.get (writesOf rs m) x = Memory.get m x) ∧
        sameBytes s u := by
  intro n a xs hfit hin
  obtain ⟨start, v, hu⟩ := pdeltaEffect_of_accepted rfl rfl h hr hfit hin
  let t₁ := s.plumbIssued p t b c q cmd (s.deltaJob b c q cmd)
  have hview {α : Type} (v : Core → α) (rs : List MemReq) : (t₁.fresh.2.ask b rs).coreView v = t₁.coreView v := State.ask_coreView v ..
  have hreqs : (t₁.bench b).reqs = (s.bench b).reqs :=
    State.shown_of_shows (f := Bench.reqs) (State.plumbIssued_shows (fun _ _ _ => rfl) _) b
  refine ⟨_, deltaRequests c a n start v (r.placed xs), exec_pdelta b c q s, ?_, ?_, fun x hx => ?_, fun i v m hv h1 h2 => ?_,
    fun x m hx => ?_, ?_⟩
  · rw [hu, State.core_settle, State.core_of_coreView (hview (fun k => k.plb.job) _), State.job_plumbIssued h]
    exact congrArg some (Nat.add_assoc ..).symm
  · rw [hu, State.bench_eq_of_benches (settle_benches ..), ← hreqs]
    exact State.ask_reqs (s := t₁.fresh.2) (State.hasCore_plumbIssued h _).bench _
  · simpa only [MemReq.owner, plumbReq, Prod.mk.injEq] using owner_of_mem_deltaRequests x hx
  · rw [writesOf_deltaRequests]
    exact Resident.read_placed State.value_length_of_mem_deltas hv h1 h2 m
  · rw [writesOf_deltaRequests]
    exact Resident.get_placed_of_outside State.value_length_of_mem_deltas hx m
  · rw [hu]
    exact ((State.plumbIssued_bytes _).trans (.of_coreView (hview (fun _ => ()) _))).settle s

end

/-! ### The write phase (R443, R450, R834) -/

section
variable (s : State) (o : Outcome) (start len lo : Nat) (e : PEng)

/-- The bytes of an engine's rows of the solution. -/
def PEng.rowBytes (e : PEng) (o : Outcome) (lo : Nat) : Bytes :=
  lx16Bytes (requantAll ((o.sol.x.drop lo).take e.rowCount) (e.d.eOut + 32)).1

/-- An engine's result record. -/
def PEng.record (e : PEng) (o : Outcome) (lo : Nat) : Bytes := resultRecord o ((o.reg.drop lo).take e.rowCount).sum

/-- The requests of an engine's write phase: its rows, then its record. -/
def PEng.solutionRequests (e : PEng) (o : Outcome) (start len lo v : Nat) : List MemReq :=
  spread ((plumbReq e.c).writes (e.base + e.d.xAddr) (e.rowBytes o lo)) start (len - 2) v ++
    MemReq.retimed ((plumbReq e.c).writes (e.base + e.d.resultAddr) (e.record o lo)) fun n => start + (len - 2) + n

theorem State.plumbCount_view {β : Type} {view : State → β} (h : ∀ s b c f, view (State.modCore s b c f) = view s) (s : State)
    (b c step status iters : Nat) : view (s.plumbCount b c step status iters) = view s :=
  (State.saturate_view h ..).trans ((State.saturate_view h ..).trans ((State.saturate_view h ..).trans (State.saturate_view h ..)))

/-- Of what the cores do not show, the write phase changes the requests only. -/
theorem State.writeSolution_view {β : Type} {view : State → β} (h : ∀ s b c f, view (State.modCore s b c f) = view s) :
    view (s.writeSolution o start len e lo) = view (s.fresh.2.ask e.b (e.solutionRequests o start len lo s.fresh.1)) :=
  (State.plumbCount_view h ..).trans (State.saturate_view h ..)

variable {s o start len lo e}

theorem resultRecord_length (mine : Nat) : (resultRecord o mine).length = 32 := by
  simp [resultRecord, la64Bytes_length]

theorem plumbWrite_of_mem_writes {c a : Nat} {bs : Bytes} :
    ∀ r ∈ (plumbReq c).writes a bs, r.port = 4 + c ∧ r.write = true ∧ r.rack = false := by
  intro r hr
  obtain ⟨_, -, rfl⟩ := List.mem_map.1 hr
  exact ⟨rfl, rfl, rfl⟩

theorem PEng.plumbWrite_of_mem_solutionRequests {v : Nat} :
    ∀ r ∈ e.solutionRequests o start len lo v, r.port = 4 + e.c ∧ r.write = true ∧ r.rack = false :=
  List.forall_mem_append.2 ⟨forall_mem_spread (fun _ _ h => h) plumbWrite_of_mem_writes,
    MemReq.forall_mem_retimed (fun _ _ h => h) plumbWrite_of_mem_writes⟩

theorem PEng.writesOf_solutionRequests (v : Nat) (m : Mem) : writesOf (e.solutionRequests o start len lo v) m =
    writesOf ((plumbReq e.c).writes (e.base + e.d.resultAddr) (e.record o lo))
      (writesOf ((plumbReq e.c).writes (e.base + e.d.xAddr) (e.rowBytes o lo)) m) := by
  rw [PEng.solutionRequests, writesOf_append, writesOf_spread, MemReq.writesOf_retimed]

theorem PEng.read_record (v : Nat) (m : Mem) :
    Memory.read (writesOf (e.solutionRequests o start len lo v) m) (e.base + e.d.resultAddr) 32 = e.record o lo := by
  have h := MemReq.read_writesOf_writes (plumbReq e.c) (e.base + e.d.resultAddr) (e.record o lo)
    (writesOf ((plumbReq e.c).writes (e.base + e.d.xAddr) (e.rowBytes o lo)) m)
  rwa [← PEng.writesOf_solutionRequests, PEng.record, resultRecord_length] at h

/-- The record is written behind the rows, which it leaves where it lies apart from them. -/
theorem PEng.read_rowBytes (v : Nat) (m : Mem) (h : e.base + e.d.xAddr + (e.rowBytes o lo).length ≤ e.base + e.d.resultAddr ∨
    e.base + e.d.resultAddr + 32 ≤ e.base + e.d.xAddr) :
    Memory.read (writesOf (e.solutionRequests o start len lo v) m) (e.base + e.d.xAddr) (e.rowBytes o lo).length = e.rowBytes o lo := by
  have hl : (e.record o lo).length = 32 := resultRecord_length _
  rw [PEng.writesOf_solutionRequests, MemReq.read_writesOf_writes_apart _ (by rwa [hl]), MemReq.read_writesOf_writes]

theorem writeSolution_writes (hb : e.b < s.benches.length) :
    let u := s.writeSolution o start len e lo
    let xs := lx16Bytes (requantAll ((o.sol.x.drop lo).take e.rowCount) (e.d.eOut + 32)).1
    let at_ := e.base + e.d.resultAddr
    ∃ rs, (u.bench e.b).reqs = (s.bench e.b).reqs ++ rs ∧ (∀ r ∈ rs, r.port = 4 + e.c ∧ r.write = true ∧ r.rack = false) ∧
      (∀ m, Memory.read (writesOf rs m) at_ 32 = resultRecord o ((o.reg.drop lo).take e.rowCount).sum) ∧
      (e.base + e.d.xAddr + xs.length ≤ at_ ∨ at_ + 32 ≤ e.base + e.d.xAddr → ∀ m,
        Memory.read (writesOf rs m) (e.base + e.d.xAddr) xs.length = xs) ∧ sameBytes s u := by
  intro u xs at_
  refine ⟨e.solutionRequests o start len lo s.fresh.1, ?_, PEng.plumbWrite_of_mem_solutionRequests, PEng.read_record _,
    fun h m => PEng.read_rowBytes _ m h, ?_⟩
  · have hreqs := State.shown_of_shows (State.writeSolution_view s o start len lo e (view := State.shows Bench.reqs)
      (State.modCore_shows fun _ _ _ => rfl)) e.b
    exact hreqs.trans (State.ask_reqs (s := s.fresh.2) hb _)
  · have hview := State.writeSolution_view s o start len lo e (view := State.coreView fun _ => ())
      fun s b c _ => s.modCore_coreView b c fun _ => rfl
    exact .of_coreView (hview.trans (State.ask_coreView ..))

end

/-! ### The last problem of a batch (R457) -/

section
variable {s : State} {b c p : Nat}

theorem Queue.on_ne_of_mem_settle {x : Queue} {w : Until} (hw : w ≠ .time) (n : Nat) : ∀ i ∈ (x.settle w n).inflight, i.on ≠ w := by
  intro i hi
  obtain ⟨y, -, rfl⟩ := List.mem_map.1 hi
  split
  · exact hw.symm
  · assumption

theorem State.queue_settleOn (hcore : s.HasCore b c) (w : Until) (n q : Nat) :
    (s.settleOn b c w n).queue b c q = (s.queue b c q).settle w n := by
  rw [State.queue, State.settleOn, hcore.core_modCore]
  exact List.getD_map (s.core b c).queues {} fun x : Queue => x.settle w n

/-- The engine is free, and nothing waits for it. -/
theorem State.plumbRest_frees (hcore : s.HasCore b c) (n : Nat) : ((s.plumbRest b c n).core b c).plb.job = none ∧
    (∀ q, ∀ i ∈ ((s.plumbRest b c n).queue b c q).inflight, i.on ≠ .solve) ∧ sameBytes s (s.plumbRest b c n) := by
  have hsettled : (s.settleOn b c .solve n).HasCore b c := hcore.modCore ..
  have hview : (s.plumbRest b c n).coreView Core.queues = (s.settleOn b c .solve n).coreView Core.queues :=
    State.modCore_coreView _ b c fun _ => rfl
  refine ⟨congrArg (fun k => k.plb.job) (hsettled.core_modCore _), fun q => ?_, (sameBytes.modCore ..).trans (.modCore ..)⟩
  have hq : (s.plumbRest b c n).queue b c q = (s.settleOn b c .solve n).queue b c q :=
    congrArg (·.getD q {}) (State.core_of_coreView hview b c)
  rw [hq, State.queue_settleOn hcore]
  exact Queue.on_ne_of_mem_settle (by decide) n

theorem solveCompleteEffect_of_last_problem {j : PlbJob} (hp : s.benchPart b = some p) (hj : (s.core b c).plb.job = some j)
    (hrun : j.running = true) (hk : j.kind = .batch) (hphase : j.total < j.phase) (hend : s.phaseEnd (s.runningEngs p b c j) j ≤ s.now)
    (hlast : j.count ≤ j.done + 1) : ∃ n, solveCompleteEffect b c s = (s.creditReturn b c (ctxOf j.q) 4 1).plumbRest b c n := by
  have hbusy : (!j.running || decide (j.kind = .delta) || decide (j.phase ≤ j.total) ||
      decide (s.now < s.phaseEnd (s.runningEngs p b c j) j)) = false := by
    simp [hrun, hk, hphase, hend]
  have hsolve : j.kind ≠ .solve := by rw [hk]; decide
  refine ⟨(s.creditReturn b c (ctxOf j.q) 4 1).now, ?_⟩
  simp only [solveCompleteEffect, hj, hp, hbusy, hsolve, hlast, Bool.false_eq_true, if_false, if_true]

theorem solveComplete_frees {j : PlbJob} (hp : s.benchPart b = some p) (hj : (s.core b c).plb.job = some j) (hrun : j.running = true)
    (hk : j.kind = .batch) (hphase : j.total < j.phase) (hend : s.phaseEnd (s.runningEngs p b c j) j ≤ s.now)
    (hlast : j.count ≤ j.done + 1) : ∃ u, exec (.solveComplete b c) s = .next u ∧ (u.core b c).plb.job = none ∧
      (∀ q, ∀ i ∈ (u.queue b c q).inflight, i.on ≠ .solve) ∧ sameBytes s u := by
  obtain ⟨n, hu⟩ := solveCompleteEffect_of_last_problem hp hj hrun hk hphase hend hlast
  have hcore : s.HasCore b c := State.hasCore_of (f := fun k => k.plb.job) (by rw [hj]; exact Option.some_ne_none j)
  have hcredit : (s.creditReturn b c (ctxOf j.q) 4 1).HasCore b c := hcore.modCore ..
  obtain ⟨hjob, hqueues, hbytes⟩ := State.plumbRest_frees hcredit n
  refine ⟨_, exec_solveComplete b c s, ?_⟩
  simp only [State.queue, State.core_settle, hu]
  exact ⟨hjob, hqueues, ((sameBytes.modCore ..).trans hbytes).settle s⟩

end

/-- Settles O26, command by command: PSOLVE, PBATCH and PDELTA, then the write phase, and the end of a batch. -/
theorem plumbCommandsStartAndEnd : Obligations.PlumbCommandsStartAndEnd :=
  ⟨fun _ _ _ _ _ _ _ => ⟨psolve_takes_engine, pbatch_takes_engine, fun _ => pdelta_writes_own⟩,
    fun _ _ _ _ _ _ => writeSolution_writes, fun _ _ _ _ _ => solveComplete_frees⟩

end Sys2Proof.Machine
end

section
/-! SUPPORT. The last act of a change of the ledger, the outputs of pages and erases, and a member's failure (O30, O31, O32, O43). -/

namespace Sys2Proof.Machine

/-! ### What is the ledger's after an event (R530, R536) -/

section
variable (s : State) (n : Nat)

@[simp] theorem State.ldgEvent_ldg : (s.ldgEvent n).ldg = { s.ldg with event := setBit s.ldg.event n } := State.raise_ldg ..
@[simp] theorem State.ldgEvent_fns : (s.ldgEvent n).fns = s.fns := State.raise_fns ..
@[simp] theorem State.ldgEvent_out : (s.ldgEvent n).out = s.out := State.raise_out ..
@[simp] theorem State.ldgEvent_parts : (s.ldgEvent n).parts = s.parts := State.raise_parts ..

/-- R532: FAILED, MEMBER_FAILED, a due anchor copy, and the end of what the member was rebuilding. -/
@[simp] theorem State.failMember_ldg (m : Nat) : (s.failMember m).ldg = { s.ldg with
    members := s.ldg.members.set m .failed, anchorDue := true, rebuild := s.ldg.rebuild.filter fun r => r.1 != m
    event := setBit s.ldg.event 0 } := by
  rw [State.failMember, State.ldgEvent_ldg, State.modLdg_ldg, State.setMember, State.modLdg_ldg]
  cases s.ldg.rebuild with
  | none => rfl
  | some r => by_cases h : r.1 = m <;> simp [Option.filter, h]

@[simp] theorem State.failMember_fns (m : Nat) : (s.failMember m).fns = s.fns := State.ldgEvent_fns ..

end

/-! ### After a change of the ledger (R530, R536, R610) -/

/-- t is s but for SEALED, the latched events and their record, and what the functions see; every event and every output of s stands. -/
def State.LedgerSettled (s t : State) : Prop :=
  (∃ z e r fs os i, t = { s with ldg := { s.ldg with sealed := z, event := e }, raised := r, fns := fs, out := os, irq := i }) ∧
    (∀ n, s.ldg.event.getLsbD n = true → t.ldg.event.getLsbD n = true) ∧ ∀ o ∈ s.out, o ∈ t.out

section
variable {s t u : State}

theorem State.LedgerSettled.refl (s : State) : s.LedgerSettled s := ⟨⟨_, _, _, _, _, _, rfl⟩, fun _ h => h, fun _ h => h⟩

theorem State.LedgerSettled.trans (h : s.LedgerSettled t) (k : t.LedgerSettled u) : s.LedgerSettled u := by
  obtain ⟨⟨z, e, r, fs, os, i, rfl⟩, hev, hout⟩ := h
  obtain ⟨⟨z', e', r', fs', os', i', rfl⟩, kev, kout⟩ := k
  exact ⟨⟨_, _, _, _, _, _, rfl⟩, fun n h => kev n (hev n h), fun o h => kout o (hout o h)⟩

theorem State.LedgerSettled.ite {c : Prop} [Decidable c] (h : s.LedgerSettled t) (k : s.LedgerSettled u) :
    s.LedgerSettled (if c then t else u) := by
  split
  · exact h
  · exact k

theorem State.LedgerSettled.ldgEvent (s : State) (n : Nat) : s.LedgerSettled (s.ldgEvent n) := by
  refine ⟨?_, fun k h => ?_, fun o h => ?_⟩
  · unfold State.ldgEvent State.raise
    split <;> exact ⟨_, _, _, _, _, _, rfl⟩
  · rw [State.ldgEvent_ldg]
    exact getLsbD_setBit_of_set n h
  · rwa [State.ldgEvent_out]

theorem State.LedgerSettled.sealed (s : State) : s.LedgerSettled (s.modLdg fun l => { l with sealed := true }) :=
  ⟨⟨_, _, _, _, _, _, rfl⟩, fun _ h => h, fun _ h => h⟩

theorem State.ledgerSettled_ldgSettle (a s : State) : s.LedgerSettled (State.ldgSettle a s) := by
  unfold State.ldgSettle
  extract_lets u v
  have hu : s.LedgerSettled u := .ite ((State.LedgerSettled.sealed s).trans (.ldgEvent _ 3)) (.refl s)
  have hv : u.LedgerSettled v := .ite (.ldgEvent u 4) (.refl u)
  exact (hu.trans hv).trans (.ite ⟨⟨_, _, _, _, _, _, rfl⟩, fun _ h => h, fun _ h => h⟩ (.refl v))

theorem State.ledgerSettled_settle (a s : State) : s.LedgerSettled (settle a s) := by
  refine ⟨?_, fun n h => by rwa [settle_ldg], fun o => mem_out_settle⟩
  obtain ⟨os, h | h⟩ := settle_cases a s <;> rw [h] <;> exact ⟨_, _, _, _, _, _, rfl⟩

/-- A command whose effect ends with the ledger's own last act. -/
theorem State.ledgerSettled_command (a b s : State) : s.LedgerSettled (settle a (State.ldgSettle b s)) :=
  (State.ledgerSettled_ldgSettle b s).trans (State.ledgerSettled_settle a _)

section
variable (h : s.LedgerSettled t)
include h

theorem State.LedgerSettled.ldg : t.ldg = { s.ldg with sealed := t.ldg.sealed, event := t.ldg.event } := by
  obtain ⟨⟨z, e, r, fs, os, i, rfl⟩, -⟩ := h; rfl
theorem State.LedgerSettled.parts : t.parts = s.parts := by obtain ⟨⟨z, e, r, fs, os, i, rfl⟩, -⟩ := h; rfl
theorem State.LedgerSettled.event {n : Nat} (k : s.ldg.event.getLsbD n = true) : t.ldg.event.getLsbD n = true := h.2.1 n k
theorem State.LedgerSettled.mem_out {o : Output} (k : o ∈ s.out) : o ∈ t.out := h.2.2 o k

end

end

/-! ### Pages and erases that go to the members (R504, R513) -/

/-- Outputs in turn, where no output depends on the earlier ones. -/
theorem foldl_emit {α : Type} {f : State → α → Output} (h : ∀ s os a, f { s with out := os } a = f s a) (xs : List α) (s : State) :
    xs.foldl (fun s a => s.emit (f s a)) s = { s with out := (xs.map (f s)).reverse ++ s.out } := by
  induction xs generalizing s with
  | nil => rfl
  | cons x xs ih =>
    have hf : f (s.emit (f s x)) = f s := funext fun a => h s _ a
    rw [List.foldl_cons, ih, hf, List.map_cons, List.reverse_cons, List.append_assoc]
    rfl

section
variable (s : State)

theorem State.programPages_eq (x : Stripe) (ms : List Nat) : s.programPages x ms =
    { s with out := (ms.map fun m => .nandProgram m x.row x.page (x.page_ m s.ldg.geometry.pageBytes)).reverse ++ s.out } :=
  foldl_emit (fun _ _ _ => rfl) ms s

@[simp] theorem State.programPages_ldg (x : Stripe) (ms : List Nat) : (s.programPages x ms).ldg = s.ldg := by
  rw [State.programPages_eq]

theorem State.mem_out_programPages (x : Stripe) {ms : List Nat} {m : Nat} (h : m ∈ ms) :
    Output.nandProgram m x.row x.page (x.page_ m s.ldg.geometry.pageBytes) ∈ (s.programPages x ms).out := by
  rw [State.programPages_eq]
  exact List.mem_append_left _ (List.mem_reverse.2 (List.mem_map.2 ⟨m, h, rfl⟩))

theorem State.beginErase_eq (why : EraseWhy) (ms : List Nat) : s.beginErase why ms =
    { s with ldg := { s.ldg with erase := some { why := why, members := ms, since := s.beat.periods } }
             out := (ms.map Output.nandErase).reverse ++ s.out } := by
  rw [State.beginErase, foldl_emit (f := fun _ m => .nandErase m) fun _ _ _ => rfl]
  rfl

theorem State.mem_out_beginErase (why : EraseWhy) {ms : List Nat} {m : Nat} (h : m ∈ ms) :
    Output.nandErase m ∈ (s.beginErase why ms).out := by
  rw [State.beginErase_eq]
  exact List.mem_append_left _ (List.mem_reverse.2 (List.mem_map_of_mem h))

end

theorem mem_insertSorted_self (x : Nat) (xs : List Nat) : x ∈ insertSorted x xs := by
  induction xs with
  | nil => exact List.mem_singleton_self x
  | cons y ys ih =>
    unfold insertSorted
    split
    · exact List.mem_cons_self
    · split
      next h => exact h ▸ List.mem_cons_self
      · exact List.mem_cons_of_mem _ ih

end Sys2Proof.Machine
end

section
/-! R495, R513, R516 to R519: a stripe of staged entries begins, its pages are programmed one after the other, and it joins the log or is
abandoned (O30). -/

namespace Sys2Proof.Machine

theorem exec_stripeStart (s : State) : exec .stripeStart s = .next (settle s (stripeStartEffect s)) := rfl
theorem exec_nandProgramDone (m : Nat) (pass : Bool) (s : State) :
    exec (.nandProgramDone m pass) s = .next (settle s (nandProgramDoneEffect m pass s)) := rfl

/-! ### STRIPE_START (R513, R516) -/

theorem Ledger.anchor_of_appends {l : Ledger} (h : l.appends = true) : l.anchor.isNone = false := by
  by_contra ha
  rw [Bool.not_eq_false] at ha
  simp [Ledger.appends, Ledger.status, ha] at h

theorem Ledger.status_of_appends {l : Ledger} (h : l.appends = true) : l.status ≠ 3 := by
  intro h3
  simp [Ledger.appends, h3] at h

/-- The pages that are issued at once, and those that follow, are the pages of all members that take programs. -/
theorem Ledger.order_append (l : Ledger) (n : Nat) : (l.order n).1 ++ (l.order n).2 = l.dataMembers n ++ l.parityMembers n :=
  List.take_append_drop ..

/-- R517: where a parity page follows, every data page is issued at once. -/
theorem Ledger.mem_order_of_mem_dataMembers {l : Ledger} {n m : Nat} (h : m ∈ l.dataMembers n) (hp : l.parityMembers n ≠ []) :
    m ∈ (l.order n).1 := by
  have hnow : (l.order n).1 = (l.dataMembers n ++ l.parityMembers n).take (max 1 (l.dataMembers n).length) := by
    simp [Ledger.order, hp]
  rw [hnow]
  exact List.mem_of_mem_take (i := (l.dataMembers n).length) (by simpa [List.take_take] using h)

section
variable {s : State} {r : Nat}

theorem State.newStripe_of_rowOpen (hr : s.ldg.curRow = some r) (ho : s.ldg.rowOpen = true) (ys : List Sector) (aux : Option Nat)
    (reserve : Bool) : s.newStripe ys aux reserve =
      some (s.modLdg fun l => { l with curPage := l.curPage + 1, nextStripe := l.nextStripe + 1 },
        { num := s.ldg.nextStripe, row := r, page := s.ldg.curPage, aux := aux, sectors := ys }) := by
  simp [State.newStripe, hr, ho]

/-- The stripe that the staged entries begin in row r. -/
def Ledger.nextStaged (l : Ledger) (r : Nat) : Stripe :=
  { num := l.nextStripe, row := r, page := l.curPage, sectors := entrySectors (l.staged.map (·.bytes)) }

/-- The next stripe's number and page are taken, and the staged entries belong to it. -/
def Ledger.takeStaged (l : Ledger) : Ledger := { l with
  curPage := l.curPage + 1, nextStripe := l.nextStripe + 1, abandoned := none
  stage := l.stage.map fun e =>
    { e with inStripe := if l.staged.any (fun y => y.stream = e.stream && y.seq = e.seq) then some l.nextStripe else e.inStripe } }

theorem State.stageStripe_begins (ha : s.ldg.abandoned = none) (hs : s.ldg.staged ≠ []) (hr : s.ldg.curRow = some r)
    (ho : s.ldg.rowOpen = true) : s.stageStripe = (s.modLdg Ledger.takeStaged).beginProgram { stripe := s.ldg.nextStaged r } := by
  simp only [State.stageStripe, List.isEmpty_iff, hs, if_false, ha, State.newStripe_of_rowOpen hr ho]
  rfl

/-- Nothing of higher rank on the media waits (R516, log entry 24). -/
theorem State.mediaStart_of_staged (hm : s.ldg.mounted = true) (hp : s.ldg.prog = none) (he : s.ldg.erase = none)
    (hd : s.ldg.anchorDue = false) (ha : s.ldg.appends = true) (ht : s.ldg.toRelocate = []) (hc : s.reclaimable = none) :
    s.mediaStart = s.stageStripe := by
  simp [State.mediaStart, hm, hp, he, hd, ha, ht, hc, Ledger.anchor_of_appends ha, Ledger.status_of_appends ha]

theorem State.beginProgram_ldg (g : StripeProg) : (s.beginProgram g).ldg = { s.ldg with
    prog := some { g with
      issued := (s.ldg.order g.stripe.num).1, rest := (s.ldg.order g.stripe.num).2, since := s.beat.periods } } := by
  rw [State.beginProgram, State.programPages_eq]
  rfl

theorem State.mem_out_beginProgram {g : StripeProg} {m : Nat} (h : m ∈ (s.ldg.order g.stripe.num).1) :
    Output.nandProgram m g.stripe.row g.stripe.page (g.stripe.page_ m s.ldg.geometry.pageBytes) ∈ (s.beginProgram g).out :=
  s.mem_out_programPages g.stripe h

end

/-! ### Pages that are done (R517, R518) -/

section
variable {s : State} {g : StripeProg} {m : Nat}

theorem nandProgramDoneEffect_pass (hg : s.ldg.prog = some g) (hm : m ∈ g.issued) : nandProgramDoneEffect m true s =
    State.ldgSettle s (s.continueProgram { g with issued := g.issued.erase m }) := by
  simp [nandProgramDoneEffect, hg, hm]

/-- The last of the pages in work is done. -/
theorem nandProgramDoneEffect_pass_last (hg : s.ldg.prog = some g) (h : g.issued = [m]) :
    nandProgramDoneEffect m true s = State.ldgSettle s (s.continueProgram { g with issued := [] }) := by
  rw [nandProgramDoneEffect_pass hg (h ▸ List.mem_singleton_self m), h, List.erase_cons_head]

theorem nandProgramDoneEffect_fail (hg : s.ldg.prog = some g) (hm : m ∈ g.issued) :
    nandProgramDoneEffect m false s = State.ldgSettle s (s.pageFailed g m true) := by
  simp [nandProgramDoneEffect, hg, hm]

theorem State.continueProgram_of_issued (h : g.issued ≠ []) : s.continueProgram g = s.modLdg fun l => { l with prog := some g } := by
  simp [State.continueProgram, h]

theorem State.continueProgram_of_rest {k : Nat} {r : List Nat} (hr : g.rest = k :: r) :
    s.continueProgram { g with issued := [] } = (s.programPages g.stripe [k]).modLdg fun l =>
      { l with prog := some { g with issued := [k], rest := r, since := s.beat.periods } } := by
  simp [State.continueProgram, hr]

theorem State.continueProgram_of_last (hr : g.rest = []) :
    s.continueProgram { g with issued := [] } = s.completeStripe { g with issued := [] } := by
  simp [State.continueProgram, hr]

end

/-! ### Durable entries (R495) -/

/-- A stream hears that an entry of its own is durable. -/
def Part.hear (x : Part) (e : StageEnt) : Part :=
  if x.stream.id = e.stream then
    { x with stream := { x.stream with durable := BitVec.ofNat 64 (max x.stream.durable.toNat e.seq) } }
  else x

section
variable {x : Part} {e : StageEnt}

theorem Part.hear_id (x : Part) (e : StageEnt) : (x.hear e).stream.id = x.stream.id := by
  unfold Part.hear
  split <;> rfl

theorem Part.hear_durable (hid : x.stream.id = e.stream) (hs : e.seq < 2 ^ 64) :
    (x.hear e).stream.durable.toNat = max x.stream.durable.toNat e.seq := by
  rw [Part.hear, if_pos hid, BitVec.toNat_ofNat, Nat.mod_eq_of_lt (max_lt x.stream.durable.isLt hs)]

theorem Part.durable_le_hear (hs : e.seq < 2 ^ 64) : x.stream.durable.toNat ≤ (x.hear e).stream.durable.toNat := by
  by_cases hid : x.stream.id = e.stream
  · rw [Part.hear_durable hid hs]
    exact le_max_left ..
  · rw [Part.hear, if_neg hid]

theorem Part.durable_le_foldl_hear {es : List StageEnt} (hs : ∀ e ∈ es, e.seq < 2 ^ 64) (x : Part) :
    x.stream.durable.toNat ≤ (es.foldl Part.hear x).stream.durable.toNat := by
  induction es generalizing x with
  | nil => exact le_rfl
  | cons e es ih =>
    obtain ⟨he, hes⟩ := List.forall_mem_cons.1 hs
    exact (Part.durable_le_hear he).trans (ih hes _)

theorem Part.seq_le_foldl_hear {es : List StageEnt} (hs : ∀ e ∈ es, e.seq < 2 ^ 64) (he : e ∈ es) (x : Part)
    (hid : x.stream.id = e.stream) : e.seq ≤ (es.foldl Part.hear x).stream.durable.toNat := by
  induction es generalizing x with
  | nil => cases he
  | cons a es ih =>
    obtain ⟨ha, hes⟩ := List.forall_mem_cons.1 hs
    rw [List.foldl_cons]
    obtain rfl | he := List.mem_cons.1 he
    · exact (Part.hear_durable hid ha ▸ le_max_right ..).trans (Part.durable_le_foldl_hear hes _)
    · exact ih hes he _ ((x.hear_id a).trans hid)

end

/-- Updates of every partition, one after the other. -/
theorem State.foldl_map_parts {α : Type} (f : Part → α → Part) (es : List α) (s : State) :
    es.foldl (fun s e => { s with parts := s.parts.map fun x => f x e }) s = { s with parts := s.parts.map fun x => es.foldl f x } := by
  induction es generalizing s with
  | nil => simp
  | cons e es ih => rw [List.foldl_cons, ih, List.map_map]; rfl

theorem State.makeDurable_eq (s : State) (n : Nat) : s.makeDurable n =
    { s with ldg := { s.ldg with stage := s.ldg.stage.filter fun e => e.inStripe != some n }
             parts := s.parts.map fun x => (s.ldg.stage.filter fun e => e.inStripe = some n).foldl Part.hear x } :=
  State.foldl_map_parts Part.hear _ _

/-- R495: what the stripe holds of a partition's stream is durable. -/
theorem State.makeDurable_durable {s : State} {n p : Nat} {e : StageEnt} (hs : ∀ e ∈ s.ldg.stage, e.seq < 2 ^ 64) (he : e ∈ s.ldg.stage)
    (hn : e.inStripe = some n) (hp : p < s.parts.length) (hid : (s.part p).stream.id = e.stream) :
    e.seq ≤ ((s.makeDurable n).part p).stream.durable.toNat := by
  have hpart : (s.makeDurable n).part p = (s.ldg.stage.filter fun e => e.inStripe = some n).foldl Part.hear (s.part p) := by
    rw [State.makeDurable_eq]
    simp [State.part, List.getD, hp]
  rw [hpart]
  exact Part.seq_le_foldl_hear (fun e h => hs e (List.mem_filter.1 h).1) (List.mem_filter.2 ⟨he, by simpa using hn⟩) _ hid

/-! ### A failed page (R519, R540) -/

/-- What a failed page of a stripe leaves besides: it counts as a grown bad row, and may be its member's last (R519, R532). -/
theorem State.pageFailed_ldg (s : State) {g : StripeProg} (h : g.anchor = none) (m : Nat) : ∃ b ms d r e,
    (s.pageFailed g m true).ldg =
        { (s.abandonStripe g).ldg with grownBad := b, members := ms, anchorDue := d, rebuild := r, event := e } ∧
      ∀ n, (s.abandonStripe g).ldg.event.getLsbD n = true → e.getLsbD n = true := by
  simp only [State.pageFailed, h, Bool.not_true, Bool.false_eq_true, if_false]
  split
  · exact ⟨_, _, _, _, _, State.failMember_ldg .., fun n hn => getLsbD_setBit_of_set 0 hn⟩
  · exact ⟨_, _, _, _, _, rfl, fun _ hn => hn⟩

/-- R519: no entry belongs to the abandoned stripe. -/
theorem Ledger.not_inStripe_of_freed {xs : List StageEnt} {n : Nat} :
    ∀ e ∈ xs.map fun e => if e.inStripe = some n then { e with inStripe := none } else e, e.inStripe ≠ some n := by
  intro e he
  obtain ⟨y, -, rfl⟩ := List.mem_map.1 he
  split
  · exact fun h => nomatch h
  next h => exact h

/-! ### The statement -/

section
variable {s : State} {g : StripeProg} {m : Nat}

theorem stripeStart_begins {r : Nat} (hm : s.ldg.mounted = true) (hp : s.ldg.prog = none) (he : s.ldg.erase = none)
    (hd : s.ldg.anchorDue = false) (ha : s.ldg.appends = true) (ht : s.ldg.toRelocate = []) (hc : s.reclaimable = none)
    (hb : s.ldg.abandoned = none) (hs : s.ldg.staged ≠ []) (hr : s.ldg.curRow = some r) (ho : s.ldg.rowOpen = true) :
    let x := s.ldg.nextStaged r
    ∃ t, exec .stripeStart s = .next t ∧
      (t.ldg.prog.map fun g => (g.stripe, g.issued ++ g.rest, g.anchor)) =
        some (x, s.ldg.dataMembers x.num ++ s.ldg.parityMembers x.num, none) ∧
      t.ldg.curPage = s.ldg.curPage + 1 ∧ t.ldg.nextStripe = s.ldg.nextStripe + 1 ∧ t.ldg.stripes = s.ldg.stripes ∧
      ∀ m ∈ s.ldg.dataMembers x.num, s.ldg.parityMembers x.num ≠ [] →
        Output.nandProgram m x.row x.page (x.page_ m s.ldg.geometry.pageBytes) ∈ t.out := by
  intro x
  have hu := (State.mediaStart_of_staged hm hp he hd ha ht hc).trans (State.stageStripe_begins hb hs hr ho)
  have hk := State.ledgerSettled_command s s s.mediaStart
  rw [hu] at hk
  refine ⟨_, (exec_stripeStart s).trans (by rw [stripeStartEffect, hu]), ?_⟩
  rw [hk.ldg, State.beginProgram_ldg]
  exact ⟨congrArg (fun ms => some (x, ms, none)) (s.ldg.order_append x.num), rfl, rfl, rfl, fun m hm hpar =>
    hk.mem_out (State.mem_out_beginProgram (Ledger.mem_order_of_mem_dataMembers (l := s.ldg) hm hpar))⟩

theorem nandProgramDone_waits_for_others (hg : s.ldg.prog = some g) (hm : m ∈ g.issued) (h : g.issued.erase m ≠ []) :
    ∃ t, exec (.nandProgramDone m true) s = .next t ∧
      t.ldg.prog = some { g with issued := g.issued.erase m } ∧ t.ldg.stripes = s.ldg.stripes ∧ t.ldg.stage = s.ldg.stage := by
  refine ⟨_, exec_nandProgramDone m true s, ?_⟩
  rw [nandProgramDoneEffect_pass hg hm, State.continueProgram_of_issued h, (State.ledgerSettled_command ..).ldg]
  exact ⟨rfl, rfl, rfl⟩

theorem nandProgramDone_goes_on {k : Nat} {r : List Nat} (hg : s.ldg.prog = some g) (h : g.issued = [m]) (hr : g.rest = k :: r) :
    ∃ t, exec (.nandProgramDone m true) s = .next t ∧
      t.ldg.prog = some { g with issued := [k], rest := r, since := s.beat.periods } ∧ t.ldg.stripes = s.ldg.stripes := by
  refine ⟨_, exec_nandProgramDone m true s, ?_⟩
  rw [nandProgramDoneEffect_pass_last hg h, State.continueProgram_of_rest hr, (State.ledgerSettled_command ..).ldg,
    State.modLdg_ldg, State.programPages_ldg]
  exact ⟨rfl, rfl⟩

theorem nandProgramDone_completes (hg : s.ldg.prog = some g) (h : g.issued = [m]) (hr : g.rest = []) (ha : g.anchor = none)
    (hs : ∀ e ∈ s.ldg.stage, e.seq < 2 ^ 64) : ∃ t, exec (.nandProgramDone m true) s = .next t ∧ t.ldg.prog = none ∧
      t.ldg.stripes = s.ldg.stripes ++ [g.stripe] ∧ t.ldg.tail = g.stripe.num ∧
      t.ldg.stage = (s.ldg.stage.filter fun e => e.inStripe != some g.stripe.num) ∧
      ∀ e ∈ s.ldg.stage, e.inStripe = some g.stripe.num → ∀ p, p < s.parts.length → (s.part p).stream.id = e.stream →
        e.seq ≤ (t.part p).stream.durable.toNat := by
  refine ⟨_, exec_nandProgramDone m true s, ?_⟩
  rw [nandProgramDoneEffect_pass_last hg h, State.continueProgram_of_last hr, State.completeStripe, ha]
  have hk := State.ledgerSettled_command s s
  refine ⟨?_, ?_, ?_, ?_, fun e he hn p hp hid => ?_⟩
  iterate 4 rw [(hk _).ldg, State.makeDurable_eq]; rfl
  rw [State.part_eq_of_parts (hk _).parts]
  exact State.makeDurable_durable hs he hn hp hid

theorem nandProgramDone_abandons (hg : s.ldg.prog = some g) (hm : m ∈ g.issued) (ha : g.anchor = none) :
    ∃ t, exec (.nandProgramDone m false) s = .next t ∧ t.ldg.prog = none ∧ t.ldg.stripes = s.ldg.stripes ∧
      g.stripe.row ∈ t.ldg.retired ∧ t.ldg.event.getLsbD 5 = true ∧
      (g.moves = none → t.ldg.abandoned = some g.stripe.num) ∧ (∀ n, g.moves = some n → n ∈ t.ldg.toRelocate.map (·.1)) ∧
      ∀ e ∈ t.ldg.stage, e.inStripe ≠ some g.stripe.num := by
  have hk := State.ledgerSettled_command s s (s.pageFailed g m true)
  obtain ⟨b, ms, d, r, e, hl, hev⟩ := s.pageFailed_ldg ha m
  have h5 : (s.abandonStripe g).ldg.event.getLsbD 5 = true := by
    rw [State.abandonStripe, State.ldgEvent_ldg]
    exact getLsbD_setBit_self _ (by decide)
  refine ⟨_, exec_nandProgramDone m false s, ?_⟩
  rw [nandProgramDoneEffect_fail hg hm]
  have hbit := hk.event (n := 5) (by rw [hl]; exact hev 5 h5)
  rw [hk.ldg, hl, State.abandonStripe, State.ldgEvent_ldg]
  refine ⟨rfl, rfl, mem_insertSorted_self .., hbit, fun h => ?_, fun n h => ?_, Ledger.not_inStripe_of_freed⟩
  · simp [h]
  · simp [h]

end

/-- Settles O30: the start of a stripe, and each report of one of its pages. -/
theorem stripesAreProgrammed : Obligations.StripesAreProgrammed :=
  fun _ => ⟨fun _ => stripeStart_begins, fun _ _ hg hm => ⟨nandProgramDone_waits_for_others hg hm,
    fun _ _ => nandProgramDone_goes_on hg, nandProgramDone_completes hg, nandProgramDone_abandons hg hm⟩⟩

end Sys2Proof.Machine
end

section
/-! R489, R526, R530 to R532, R543, R610: erases, members that fail, and what waits for the sealed ledger; the timers of the anchor and of
the bundles (O31). -/

namespace Sys2Proof.Machine

theorem exec_nandEraseDone (m : Nat) (pass : Bool) (s : State) :
    exec (.nandEraseDone m pass) s = .next (settle s (nandEraseDoneEffect m pass s)) := rfl
theorem exec_memberFailed (m : Nat) (s : State) : exec (.memberFailed m) s = .next (settle s (memberFailedEffect m s)) := rfl
theorem exec_anchorTimer (s : State) : exec .anchorTimer s = .next (settle s (anchorTimerEffect s)) := rfl
theorem exec_signatureTimer (p : Nat) (s : State) : exec (.signatureTimer p) s = .next (settle s (signatureTimerEffect p s)) := rfl

/-! ### Erases (R526, R543) -/

section
variable {s : State} {j : EraseJob} {m : Nat}

theorem nandEraseDoneEffect_waits (hj : s.ldg.erase = some j) (hm : m ∈ j.members) (h : j.members.erase m ≠ []) :
    nandEraseDoneEffect m true s =
      State.ldgSettle s (s.modLdg fun l => { l with erase := some { j with members := j.members.erase m } }) := by
  simp [nandEraseDoneEffect, hj, hm, h]

theorem nandEraseDoneEffect_last (hj : s.ldg.erase = some j) (h : j.members = [m]) :
    nandEraseDoneEffect m true s = State.ldgSettle s (s.eraseDone { j with members := [] }) := by
  simp [nandEraseDoneEffect, hj, h]

theorem nandEraseDone_waits_for_others (hj : s.ldg.erase = some j) (hm : m ∈ j.members) (h : j.members.erase m ≠ []) :
    ∃ t, exec (.nandEraseDone m true) s = .next t ∧
      t.ldg.erase = some { j with members := j.members.erase m } ∧ t.ldg.rows = s.ldg.rows := by
  refine ⟨_, exec_nandEraseDone m true s, ?_⟩
  rw [nandEraseDoneEffect_waits hj hm h, (State.ledgerSettled_command ..).ldg]
  exact ⟨rfl, rfl⟩

/-- R543: the reclaimed row is free, and the stripes that it held are gone. -/
theorem nandEraseDone_frees {row : Nat} (hj : s.ldg.erase = some j) (h : j.members = [m]) (hw : j.why = .reclaim row) :
    ∃ t, exec (.nandEraseDone m true) s = .next t ∧ t.ldg.erase = none ∧ t.ldg.rows = (s.ldg.rows.filter fun r => r.1 != row) ∧
      t.ldg.stripes = (s.ldg.stripes.filter fun x => x.row != row) ∧ t.ldg.anchorDue = true := by
  refine ⟨_, exec_nandEraseDone m true s, ?_⟩
  rw [nandEraseDoneEffect_last hj h, State.eraseDone, hw, (State.ledgerSettled_command ..).ldg]
  exact ⟨rfl, rfl, rfl, rfl⟩

end

/-! ### The ledger that seals (R530, R536, R610) -/

section
variable {a s : State}

theorem Ledger.status_of_sealed {l : Ledger} (ha : l.anchor.isSome = true) (h : l.sealed = true) : l.status = 3 := by
  simp [Ledger.status, Option.isNone_eq_false_iff.2 ha, h]

theorem Ledger.not_sealed_of_appends {l : Ledger} (h : l.appends = true) : l.sealed = false := by
  by_contra hs
  rw [Bool.not_eq_false] at hs
  exact Ledger.status_of_appends h (Ledger.status_of_sealed (Option.isNone_eq_false_iff.1 (Ledger.anchor_of_appends h)) hs)

/-- SEALED_DEGRADED is entered, and SEALED is raised (R536). -/
def State.sealNow (s : State) : State := (s.modLdg fun l => { l with sealed := true }).ldgEvent 3

theorem State.sealNow_ldg (s : State) : s.sealNow.ldg = { s.ldg with sealed := true, event := setBit s.ldg.event 3 } :=
  State.ldgEvent_ldg ..
theorem State.sealNow_fns (s : State) : s.sealNow.fns = s.fns := State.ldgEvent_fns ..

/-- What waits is posted where the ledger was not sealed before (R610). -/
theorem State.ldgSettle_enters (hm : s.ldg.mounted = true) (ha : s.ldg.anchor.isSome = true) (hd : s.ldg.mustSeal = true)
    (hs : s.ldg.sealed = false) (hp : a.ldg.status ≠ 3) : State.ldgSettle a s = s.sealNow.postHeld := by
  unfold State.ldgSettle
  extract_lets u v
  have hu : u = s.sealNow := if_pos (by simp [hm, ha, hd, hs])
  have hmount : u.ldg.mounted = true := by rw [hu, State.sealNow_ldg]; exact hm
  have hst : u.ldg.status = 3 := by rw [hu, State.sealNow_ldg]; exact Ledger.status_of_sealed ha rfl
  have hv : v = u := if_neg (by simp [hst])
  rw [hv, if_pos (by simp [hmount, hst, Ne.symm hp]), hu]

/-- R530: a ledger that must be sealed is sealed after its change. -/
theorem State.ldgSettle_sealed (hm : s.ldg.mounted = true) (ha : s.ldg.anchor.isSome = true) (hd : s.ldg.mustSeal = true) :
    (State.ldgSettle a s).ldg.sealed = true := by
  unfold State.ldgSettle
  extract_lets u v
  have hu : u.ldg.sealed = true := by
    show (State.ldg (if _ then _ else _)).sealed = true
    split
    · rw [State.ldgEvent_ldg]; rfl
    next h => simpa [hm, ha, hd] using h
  have hv : v.ldg.sealed = true := by
    show (State.ldg (if _ then _ else _)).sealed = true
    split
    · rwa [State.ldgEvent_ldg]
    · exact hu
  split <;> exact hv

/-- R610: a completion that waits for a staged entry of an audit-mode partition is posted, LEDGER_SEALED where it had no other status. -/
theorem Compl.unheld_of_audit {stage : List StageEnt} {e : StageEnt} {c : Compl} (he : e ∈ stage) (ha : e.audit = true)
    (hc : c.cond = .durable e.stream e.seq) (h0 : c.status = 0) : c.unheld stage = { c with cond := .ready, status := stSEALED } := by
  have hany : (stage.any fun y => y.audit && decide (y.stream = e.stream) && decide (y.seq = e.seq)) = true :=
    List.any_eq_true.2 ⟨e, he, by simp [ha]⟩
  simp [Compl.unheld, hc, hany, h0]

theorem State.mem_compl_postHeld {f : Nat} {c : Compl} (hc : c ∈ (s.fn f).compl) : c.unheld s.ldg.stage ∈ (s.postHeld.fn f).compl := by
  have hf : f < s.fns.length := by
    by_contra hf
    rw [State.fn_of_length_le (Nat.not_lt.1 hf)] at hc
    cases hc
  have hfn : (s.postHeld.fn f).compl = (s.fn f).compl.map (Compl.unheld s.ldg.stage) := by
    simp [State.postHeld, State.fn, List.getD, hf]
  rw [hfn]
  exact List.mem_map_of_mem hc

end

/-! ### MEMBER_FAILED (R532) -/

section
variable {s : State} {m : Nat}

/-- A member with no operation in work fails at once. -/
theorem memberFailedEffect_of_idle (ht : s.ldg.takes m = true) (hp : s.ldg.prog = none) (he : s.ldg.erase = none) :
    memberFailedEffect m s = State.ldgSettle s (s.failMember m) := by
  have hw : s.memberWaits m = false := by simp [State.memberWaits, hp, he]
  simp [memberFailedEffect, ht, hw, State.loseMember, hp, he]

theorem Ledger.mustSeal_of_down {l : Ledger} (h : 3 ≤ l.down.length) : l.mustSeal = true := by simp [Ledger.mustSeal, h]

/-- R610: the member whose failure seals the ledger posts what waits for staged entries of audit-mode partitions. -/
theorem failMember_posts_held {f : Nat} {e : StageEnt} {c : Compl} (hm : s.ldg.mounted = true) (ha : s.ldg.anchor.isSome = true)
    (hd : 3 ≤ (s.failMember m).ldg.down.length) (happ : s.ldg.appends = true) (he : e ∈ s.ldg.stage) (hau : e.audit = true)
    (hc : c ∈ (s.fn f).compl) (hcond : c.cond = .durable e.stream e.seq) (h0 : c.status = 0) :
    { c with cond := .ready, status := stSEALED } ∈ ((State.ldgSettle s (s.failMember m)).fn f).compl := by
  have hl := s.failMember_ldg m
  rw [State.ldgSettle_enters (by rw [hl]; exact hm) (by rw [hl]; exact ha) (Ledger.mustSeal_of_down hd)
    (by rw [hl]; exact Ledger.not_sealed_of_appends (l := s.ldg) happ) (Ledger.status_of_appends happ)]
  have hstage : (s.failMember m).sealNow.ldg.stage = s.ldg.stage := by rw [State.sealNow_ldg, hl]
  have hfns : (s.failMember m).sealNow.fns = s.fns := (State.sealNow_fns _).trans (s.failMember_fns m)
  rw [← Compl.unheld_of_audit he hau hcond h0, ← hstage]
  exact State.mem_compl_postHeld (by rwa [State.fn, hfns])

theorem memberFailed_fails (ht : s.ldg.takes m = true) (hp : s.ldg.prog = none) (he : s.ldg.erase = none) :
    ∃ t, exec (.memberFailed m) s = .next t ∧
      t.ldg.members = s.ldg.members.set m .failed ∧ t.ldg.event.getLsbD 0 = true ∧ t.ldg.anchorDue = true ∧
      t.ldg.rebuild = (s.ldg.rebuild.filter fun r => r.1 != m) ∧ t.ldg.stripes = s.ldg.stripes ∧
      (s.ldg.mounted = true → s.ldg.anchor.isSome = true → 3 ≤ t.ldg.down.length → t.ldg.sealed = true ∧
        (s.ldg.appends = true → ∀ f e c, e ∈ s.ldg.stage → e.audit = true → c ∈ (s.fn f).compl → c.cond = .durable e.stream e.seq →
          c.status = 0 → { c with cond := .ready, status := stSEALED } ∈ (t.fn f).compl)) := by
  have hk := State.ledgerSettled_command s s (s.failMember m)
  have hl := s.failMember_ldg m
  refine ⟨_, exec_memberFailed m s, ?_⟩
  rw [memberFailedEffect_of_idle ht hp he]
  refine ⟨?_, hk.event (by rw [hl]; exact getLsbD_setBit_self _ (by decide)), ?_, ?_, ?_, fun hm ha hd => ?_⟩
  iterate 4 rw [hk.ldg, hl]
  have hdown : 3 ≤ (s.failMember m).ldg.down.length := by rwa [hk.ldg] at hd
  refine ⟨?_, fun happ f e c hes hau hc hcond h0 => ?_⟩
  · rw [settle_ldg]
    exact State.ldgSettle_sealed (by rw [hl]; exact hm) (by rw [hl]; exact ha) (Ledger.mustSeal_of_down hdown)
  · rw [State.fn, settle_fns]
    exact failMember_posts_held hm ha hdown happ hes hau hc hcond h0

theorem memberFailed_waits (hw : s.memberWaits m = true) : exec (.memberFailed m) s = .next (settle s s) := by
  rw [exec_memberFailed, memberFailedEffect, hw, Bool.not_true, Bool.and_false, if_neg Bool.false_ne_true]

end

/-! ### The anchor's timer (R530) -/

theorem anchorTimer_due {s : State} {a : Anchor} (ha : s.ldg.anchor = some a) (hp : s.ldg.prog = none) (hm : s.ldg.mounted = true)
    (hage : s.ldg.age.toNat / 2 ^ 32 ≠ a.age.toNat / 2 ^ 32) :
    exec .anchorTimer s = .next (settle s { s with ldg := { s.ldg with anchorDue := true } }) := by
  have hn : s.ldg.newest = some a := by rw [Ledger.newest, hp, ha]
  have hdue : (s.ldg.mounted && s.ldg.age.toNat / 2 ^ 32 != a.age.toNat / 2 ^ 32) = true := by simpa [hm] using hage
  rw [exec_anchorTimer, anchorTimerEffect, hn]
  exact congrArg (fun t => Host.Outcome.next (settle s t)) (if_pos hdue)

/-! ### The bundle's timer (R489) -/

/-- The type of an entry is its first byte (R486). -/
theorem nat_entryBytes_type {ty : Nat} (h : ty < 256) (p stream seq : Nat) (prev body : Bytes) :
    Bytes.nat (entryBytes ty p stream seq prev body) 0 1 = ty := by
  simp [entryBytes, Bytes.nat, Bytes.sub, leBytes, leNat, Nat.mod_eq_of_lt h]

theorem State.part_lt_of_isOpen {s : State} {p : Nat} (h : (s.part p).stream.isOpen = true) : p < s.parts.length :=
  State.part_lt_of (f := fun x => x.stream.isOpen) (by rw [h]; decide)

/-- R486, R488: what an entry leaves of its stream. -/
theorem State.nextSeq_stageRaw {s : State} {p : Nat} (hp : p < s.parts.length) (ty : Nat) (body : Bytes) :
    ((s.stageRaw p ty body).part p).stream.nextSeq = (s.part p).stream.nextSeq + 1 := by
  rw [State.stageRaw, State.part_modPart]
  · show Stream.nextSeq (if _ then _ else _) + 1 = _
    split <;> rfl
  · exact hp

theorem State.stageSignature_adds {s : State} {p : Nat} (hp : p < s.parts.length) : ∃ e,
    (s.stageSignature p).ldg.stage = stageInsert e s.ldg.stage ∧ e.part = p ∧ e.seq = (s.part p).stream.nextSeq ∧
      Bytes.nat e.bytes 0 1 = 3 ∧ ((s.stageSignature p).part p).stream.bundleOpen = false ∧
      ((s.stageSignature p).part p).stream.nextSeq = (s.part p).stream.nextSeq + 1 := by
  have hlen (body : Bytes) : p < (s.stageRaw p 3 body).parts.length := by
    rw [State.stageRaw, State.modPart_parts, List.length_modify]
    exact hp
  refine ⟨_, rfl, rfl, rfl, nat_entryBytes_type (by decide) .., ?_, ?_⟩
  · rw [State.stageSignature, State.part_modPart _ _ _ (hlen _)]
  · rw [State.stageSignature, State.part_modPart _ _ _ (hlen _)]
    exact State.nextSeq_stageRaw hp ..

theorem signatureTimer_signs {s : State} {p : Nat} (ho : (s.part p).stream.isOpen = true) (hb : (s.part p).stream.bundleOpen = true)
    (hd : s.discards p = false) (hdue : (s.part p).stream.bundleBeat + 2 ^ 24 ≤ s.beat.periods) :
    ∃ t e, exec (.signatureTimer p) s = .next t ∧ t.ldg.stage = stageInsert e s.ldg.stage ∧ e.part = p ∧
      e.seq = (s.part p).stream.nextSeq ∧ Bytes.nat e.bytes 0 1 = 3 ∧ (t.part p).stream.bundleOpen = false ∧
      (t.part p).stream.nextSeq = (s.part p).stream.nextSeq + 1 := by
  have heff : signatureTimerEffect p s = s.stageSignature p := if_pos (by rw [ho, hb, hd]; simpa using hdue)
  obtain ⟨e, he⟩ := State.stageSignature_adds (State.part_lt_of_isOpen ho)
  refine ⟨_, e, exec_signatureTimer p s, ?_⟩
  rw [heff, settle_ldg, State.part_eq_of_parts (settle_parts ..)]
  exact he

/-- Settles O31: erases, the failure of a member, and the timers. -/
theorem erasesFailuresAndTimers : Obligations.ErasesFailuresAndTimers :=
  fun _ => ⟨fun _ _ hj hm => ⟨nandEraseDone_waits_for_others hj hm, fun _ => nandEraseDone_frees hj⟩, fun _ => memberFailed_fails,
    fun _ => memberFailed_waits, fun _ => anchorTimer_due, fun _ => signatureTimer_signs⟩

end Sys2Proof.Machine
end

section
/-! R525, R533, R535: the statement on rebuilds asks that the stripes stay as they are wherever every slot position can be reconstructed.
They do not where an earlier rebuild has left a LOST_FILL sector on the member: the slot is reconstructed now, and its mark goes (O32). -/

namespace Sys2Proof.Machine

theorem exec_rebuildStripe (pages : List PageRead) (s : State) :
    exec (.rebuildStripe pages) s = .next (settle s (rebuildStripeEffect pages s)) := rfl

/-- A rebuilt member holds none of the LOST_FILL sectors of a stripe in which no slot position is lost. -/
theorem Stripe.not_mem_fills_rebuilt (x : Stripe) (m j : Nat) : (m, j) ∉ (x.rebuilt m []).fills := by
  simp [Stripe.rebuilt]

/-- Stripe 5, LOST at an earlier rebuild of member 3, whose slot 0 (data sector 24) it left as a LOST_FILL sector. -/
def lostFillStripe : Stripe :=
  { num := 5, row := 2, lost := true, fills := [(3, 0)], sectors := (List.replicate 32 {}).set 24 { lost := true } }

/-- Member 3 has been replaced again and is rebuilt; every other member is ONLINE, so no slot position has more than one erasure. -/
def lostFillRebuilds : State :=
  { ldg := { mounted := true, stripes := [lostFillStripe], tail := 5, nextStripe := 6, lossMap := [5]
             members := (List.replicate 10 .online).set 3 .rebuilding, rebuild := some (3, 5, 5) } }

theorem lostFillRebuilds_meets_hypotheses : lostFillRebuilds.ldg.rebuild = some (3, 5, 5) ∧
    (lostFillRebuilds.ldg.log.find? fun x => decide (5 ≤ x.num)) = some lostFillStripe ∧ lostFillStripe.num ≤ 5 ∧
    lostFillRebuilds.ldg.lostSlots lostFillStripe [] = [] := by decide +kernel

theorem lostFillRebuilds_rebuilds :
    (rebuildStripeEffect [] lostFillRebuilds).ldg.stripes = [lostFillStripe.rebuilt 3 []] := by decide +kernel

/-- Refutes O32: the rebuild of a stripe without a lost slot position ends the LOST_FILL mark that the member's slot had. -/
theorem not_scrubReadsAndRebuilds : ¬ Obligations.ScrubReadsAndRebuilds := by
  intro h
  obtain ⟨hrebuild, hfind, hle, hlost⟩ := lostFillRebuilds_meets_hypotheses
  obtain ⟨t, ht, -, -, hkept, -⟩ := (h lostFillRebuilds []).2 3 5 5 lostFillStripe hrebuild hfind hle
  obtain rfl : settle _ _ = t := Host.Outcome.next.inj ((exec_rebuildStripe ..).symm.trans ht)
  obtain ⟨hstripes, -⟩ := hkept hlost
  rw [settle_ldg, lostFillRebuilds_rebuilds] at hstripes
  obtain hsame : lostFillStripe.rebuilt 3 [] = lostFillStripe := (List.cons.inj hstripes).1
  exact lostFillStripe.not_mem_fills_rebuilt 3 0 (by rw [hsame]; exact List.mem_singleton_self _)

end Sys2Proof.Machine
end

section
/-! R504, R533, R538, R542, R546 to R551: the ledger's packets (O43). -/

namespace Sys2Proof.Machine

theorem exec_ldgFormat (f : Nat) (media : MediaEnv) (s : State) :
    exec (.ldgFormat f media) s = .next (settle s (ldgFormatEffect f media s)) := rfl
theorem exec_ldgMemberReplace (f : Nat) (media : MediaEnv) (s : State) :
    exec (.ldgMemberReplace f media) s = .next (settle s (ldgMemberReplaceEffect f media s)) := rfl
theorem exec_ldgUnseal (f : Nat) (s : State) : exec (.ldgUnseal f) s = .next (settle s (ldgUnsealEffect f s)) := rfl
theorem exec_ldgRelease (f : Nat) (s : State) : exec (.ldgRelease f) s = .next (settle s (ldgReleaseEffect f s)) := rfl
theorem exec_ldgExport (f : Nat) (pages : List PageRead) (s : State) :
    exec (.ldgExport f pages) s = .next (settle s (ldgExportEffect f pages s)) := rfl

/-! ### Outputs of an admitted packet -/

theorem State.flushReserved_out (f n : Nat) (s : State) : (s.flushReserved f n).out = s.out := by
  induction n generalizing s with
  | zero => rfl
  | succ n ih =>
    unfold State.flushReserved
    split
    · split
      · rfl
      · exact ih _
    · rfl

section
variable {s : State} {f op i : Nat} {x : Pkt}

theorem mem_out_admitPkt {run : PktId → Nat → Pkt → State → State} {u : State} {o : Output} (h : s.admits f op i x)
    (hr : run (s.pktId f x) (x.part f) x (s.takePkt f i) = u) (ho : o ∈ u.out) : o ∈ (settle s (s.admitPkt f op run)).out := by
  rw [State.admitPkt_of_admits h, hr]
  exact mem_out_settle (by rwa [State.flushReserved_out])

end

/-! ### LDG_FORMAT (R504, R546, R547) -/

section
variable {s : State} {f i p : Nat} {x : Pkt} {id : PktId}

/-- A member group that R504 accepts. -/
theorem geometryOk_replicate {g : Geometry} (h1 : 1 ≤ g.luns) (h4 : g.luns ≤ 4) (hb : 16592 ≤ g.pageBytes) (n : Nat) :
    geometryOk g (List.replicate n g) = true := by
  simp [geometryOk, h1, h4, hb]

theorem State.formatAdmitted_begins {g : Geometry} {bad : List Nat} (hl : s.glue.value 2 = 0 ∨ s.ldg.anchor = none)
    (hu : s.parts.any (·.used) = false) (he : s.ldg.erase = none) (hp : s.ldg.prog = none) (hr : s.ldg.rebuild = none)
    (hg : geometryOk g (List.replicate 10 g) = true) : ∃ l,
      s.formatAdmitted { geometry := List.replicate 10 g, badRows := bad } id p x =
        (s.modLdg fun _ => l).beginErase (.format id) (List.range 10) ∧
      l.stripes = [] ∧ l.anchors = [none, none] ∧ l.retired = bad ∧ l.members = List.replicate 10 .online ∧ l.sealed = false := by
  have hlock : ¬(s.glue.value 2 != 0 && s.ldg.anchor.isSome) = true := by
    obtain h | h := hl <;> simp [h]
  have hfree : ¬(s.parts.any (·.used) || s.ldg.erase.isSome || s.ldg.prog.isSome || s.ldg.rebuild.isSome) = true := by
    simp [hu, he, hp, hr]
  have hgeo : ¬((List.replicate 10 g).length != 10 || !geometryOk g (List.replicate 10 g)) = true := by
    rw [hg, List.length_replicate]; decide
  refine ⟨_, (if_neg hlock).trans ((if_neg hfree).trans (if_neg hgeo)), rfl, rfl, rfl, rfl, rfl⟩

theorem ldgFormat_begins {g : Geometry} {bad : List Nat} (ha : s.admits f 0x28 i x) (hl : s.glue.value 2 = 0 ∨ s.ldg.anchor = none)
    (hu : s.parts.any (·.used) = false) (he : s.ldg.erase = none) (hp : s.ldg.prog = none) (hr : s.ldg.rebuild = none)
    (h1 : 1 ≤ g.luns) (h4 : g.luns ≤ 4) (hb : 16592 ≤ g.pageBytes) :
    ∃ t, exec (.ldgFormat f { geometry := List.replicate 10 g, badRows := bad }) s = .next t ∧ t.ldg.stripes = [] ∧
      t.ldg.anchors = [none, none] ∧ t.ldg.retired = bad ∧ t.ldg.members = List.replicate 10 .online ∧ t.ldg.sealed = false ∧
      t.ldg.erase = some { why := .format (s.pktId f x), members := List.range 10, since := s.beat.periods } ∧
      ∀ m < 10, Output.nandErase m ∈ t.out := by
  obtain ⟨l, hrun, hstripes, hanchors, hretired, hmembers, hsealed⟩ := State.formatAdmitted_begins (s := s.takePkt f i) (bad := bad)
    (id := s.pktId f x) (p := x.part f) (x := x) hl hu he hp hr (geometryOk_replicate h1 h4 hb 10)
  refine ⟨_, exec_ldgFormat .., ?_⟩
  have hldg := (State.admitPkt_answersMore ha hrun).ldg
  rw [State.beginErase_eq] at hldg
  rw [ldgFormatEffect, hldg]
  exact ⟨hstripes, hanchors, hretired, hmembers, hsealed, rfl, fun m hm =>
    mem_out_admitPkt ha hrun (State.mem_out_beginErase _ _ (List.mem_range.2 hm))⟩

/-! ### LDG_MEMBER_REPLACE (R504, R533) -/

theorem State.replaceAdmitted_begins {media : MediaEnv} (hm : x.u 0x20 1 < 10) (hlat : s.latched (16 + x.u 0x20 1) = false)
    (hst : s.ldg.members.getD (x.u 0x20 1) .online = .failed ∨ s.ldg.members.getD (x.u 0x20 1) .online = .absent)
    (hr : s.ldg.rebuild = none) (he : s.ldg.erase = none) (hg : media.geometry = [s.ldg.geometry])
    (hluns : s.ldg.geometry.luns ≤ s.glue.value 10) (hok : geometryOk s.ldg.geometry [s.ldg.geometry] = true) :
    s.replaceAdmitted media id p x = ((s.setMember (x.u 0x20 1) .rebuilding).modLdg fun l =>
      { l with grownBad := l.grownBad.set (x.u 0x20 1) 0 }).beginErase (.replace id) [x.u 0x20 1] := by
  have hdown : ¬(s.ldg.members.getD (x.u 0x20 1) .online != .failed && s.ldg.members.getD (x.u 0x20 1) .online != .absent) = true := by
    obtain h | h := hst <;> rw [h] <;> decide
  have hfree : ¬(s.ldg.rebuild.isSome || s.ldg.erase.isSome) = true := by simp [hr, he]
  have hgeo : ¬(media.geometry.any fun g => !geometryOk g [g] || g.blocks != s.ldg.geometry.blocks || g.pages != s.ldg.geometry.pages ||
      g.pageBytes != s.ldg.geometry.pageBytes || min g.luns (s.glue.value 10) != s.ldg.geometry.luns) = true := by
    simp [hg, hok, hluns]
  have hlat' : ¬s.latched (16 + x.u 0x20 1) = true := by simp [hlat]
  exact (if_neg (Nat.not_le.2 hm)).trans ((if_neg hlat').trans ((if_neg hdown).trans ((if_neg hfree).trans (if_neg hgeo))))

theorem ldgMemberReplace_begins {media : MediaEnv} (ha : s.admits f 0x29 i x) (hm : x.u 0x20 1 < 10)
    (hlat : s.latched (16 + x.u 0x20 1) = false)
    (hst : s.ldg.members.getD (x.u 0x20 1) .online = .failed ∨ s.ldg.members.getD (x.u 0x20 1) .online = .absent)
    (hr : s.ldg.rebuild = none) (he : s.ldg.erase = none) (hg : media.geometry = [s.ldg.geometry])
    (hluns : s.ldg.geometry.luns ≤ s.glue.value 10) (hok : geometryOk s.ldg.geometry [s.ldg.geometry] = true) :
    ∃ t, exec (.ldgMemberReplace f media) s = .next t ∧ t.ldg.members = s.ldg.members.set (x.u 0x20 1) .rebuilding ∧
      t.ldg.erase = some { why := .replace (s.pktId f x), members := [x.u 0x20 1], since := s.beat.periods } ∧
      Output.nandErase (x.u 0x20 1) ∈ t.out := by
  have hrun := State.replaceAdmitted_begins (s := s.takePkt f i) (id := s.pktId f x) (p := x.part f) hm hlat hst hr he hg hluns hok
  refine ⟨_, exec_ldgMemberReplace .., ?_⟩
  have hldg := (State.admitPkt_answersMore ha hrun).ldg
  rw [State.beginErase_eq] at hldg
  rw [ldgMemberReplaceEffect, hldg]
  exact ⟨rfl, rfl, mem_out_admitPkt ha hrun (State.mem_out_beginErase _ _ (List.mem_singleton_self _))⟩

/-! ### LDG_UNSEAL (R538) -/

theorem ldgUnseal_unseals (ha : s.admits f 0x2A i x) (h : s.ldg.mustSeal = false) :
    ∃ t, exec (.ldgUnseal f) s = .next t ∧ t.ldg = { s.ldg with sealed := false } ∧ t.answered (s.pktId f x) 0xFF 0 0 0 0 0 := by
  have hk : State.AnswersMore _ (settle s (ldgUnsealEffect f s)) :=
    State.admitPkt_answersMore ha (if_neg (c := s.ldg.mustSeal = true) (by rw [h]; exact Bool.false_ne_true))
  exact ⟨_, exec_ldgUnseal f s, hk.ldg, (State.hears_takePkt ha).answered_of _ _ _ _ _ _ hk rfl⟩

theorem ldgUnseal_refused (ha : s.admits f 0x2A i x) (h : s.ldg.mustSeal = true) :
    ∃ t, exec (.ldgUnseal f) s = .next t ∧ t.ldg = s.ldg ∧ t.answered (s.pktId f x) 0xFF 0x10 0 0 0 0 := by
  have hk : State.AnswersMore _ (settle s (ldgUnsealEffect f s)) := State.admitPkt_answersMore ha (if_pos h)
  exact ⟨_, exec_ldgUnseal f s, hk.ldg, (State.hears_takePkt ha).answered_of _ _ _ _ _ _ hk rfl⟩

end

/-! ### LDG_RELEASE (R542) -/

theorem leNat_lt (bs : Bytes) : leNat bs < 256 ^ bs.length := by
  induction bs with
  | nil => exact Nat.one_pos
  | cons b bs ih =>
    rw [leNat, List.length_cons, Nat.pow_succ']
    omega

theorem Bytes.nat_lt (bs : Bytes) (off n : Nat) : Bytes.nat bs off n < 256 ^ n := by
  simpa [Bytes.nat] using leNat_lt (Bytes.sub bs off n)

/-- The released SEQ of a stream rises to seq. -/
def Ledger.release (l : Ledger) (sid seq : Nat) : Ledger := { l with dir := l.dir.map fun d =>
  if d.1 = sid then (d.1, d.2.1, d.2.2.1, BitVec.ofNat 64 (max d.2.2.2.toNat seq)) else d }

/-- R542: the released SEQ never falls. -/
theorem Ledger.releasedOf_release {l : Ledger} {sid seq : Nat} (h : l.dir.any (fun d => d.1 = sid) = true) (hs : seq < 2 ^ 64) :
    (l.release sid seq).releasedOf sid = max (l.releasedOf sid) seq := by
  obtain ⟨d, hd⟩ := Option.isSome_iff_exists.1 (List.find?_isSome.2 (List.any_eq_true.1 h))
  have hid : d.1 = sid := by simpa using List.find?_some hd
  have hfind : (l.release sid seq).dir.find? (fun d => d.1 = sid) =
      some (d.1, d.2.1, d.2.2.1, BitVec.ofNat 64 (max d.2.2.2.toNat seq)) := by
    have hkey : ((fun d : Nat × Nat × Bool × W64 => decide (d.1 = sid)) ∘ fun d =>
        if d.1 = sid then (d.1, d.2.1, d.2.2.1, BitVec.ofNat 64 (max d.2.2.2.toNat seq)) else d) = fun d => decide (d.1 = sid) := by
      funext y
      by_cases hy : y.1 = sid <;> simp [hy]
    rw [Ledger.release, List.find?_map, hkey, hd, Option.map_some, if_pos hid]
  rw [Ledger.releasedOf, Ledger.releasedOf, hfind, hd]
  exact Nat.mod_eq_of_lt (max_lt d.2.2.2.isLt hs)

section
variable {s : State} {f i : Nat} {x : Pkt}

theorem ldgRelease_releases (ha : s.admits f 0x2B i x) (h : s.ldg.dir.any (fun d => d.1 = x.u 0x20 4) = true) :
    ∃ t, exec (.ldgRelease f) s = .next t ∧ s.ldg.releasedOf (x.u 0x20 4) ≤ t.ldg.releasedOf (x.u 0x20 4) ∧
      t.ldg.releasedOf (x.u 0x20 4) = max (s.ldg.releasedOf (x.u 0x20 4)) (x.u 0x28 8) ∧
      t.answered (s.pktId f x) 0xFF 0 0 (t.ldg.releasedOf (x.u 0x20 4)) 0 0 ∧ t.ldg.stripes = s.ldg.stripes := by
  have hk : State.AnswersMore _ (settle s (ldgReleaseEffect f s)) :=
    State.admitPkt_answersMore ha (if_neg (c := (!s.ldg.dir.any fun d => d.1 = x.u 0x20 4) = true) (by rw [h]; exact Bool.false_ne_true))
  have hldg : (settle s (ldgReleaseEffect f s)).ldg = s.ldg.release (x.u 0x20 4) (x.u 0x28 8) := hk.ldg
  have hmax := Ledger.releasedOf_release h (Bytes.nat_lt x.bytes 0x28 8)
  refine ⟨_, exec_ldgRelease f s, ?_⟩
  rw [hldg]
  exact ⟨hmax ▸ le_max_left .., hmax, (State.hears_takePkt ha).answered_of _ _ _ _ _ _ hk rfl, rfl⟩

end

/-! ### LDG_EXPORT (R548 to R551) -/

/-- Reads of stripes are counted, and may ask for relocations; they leave the log as it is (R523, R540). -/
theorem State.noteReads_cases (pages : List PageRead) (xs : List Stripe) (s : State) : ∃ a b c,
    xs.foldl (fun s x => s.noteRead x pages) s = s.modLdg fun l => { l with syncRetry := a, erasures := b, toRelocate := c } := by
  induction xs generalizing s with
  | nil => exact ⟨_, _, _, rfl⟩
  | cons x xs ih => exact ih (s.noteRead x pages)

/-- The entries that an LDG_EXPORT finds. -/
def Ledger.exportFound (l : Ledger) (x : Pkt) (pages : List PageRead) : List (Nat × Bytes) :=
  l.exported (x.u 0x20 4) (x.u 0x28 8) (x.u 0x28 8 + x.u 0x30 8 - 1) pages

/-- The partition of a stream, as the stream directory has it. -/
def Ledger.streamOwner (l : Ledger) (stream : Nat) : Nat := ((l.dir.find? fun d => d.1 = stream).map fun d => d.2.1).getD 0

/-- What an LDG_EXPORT writes: the entries that it finds, and GAP entries. -/
def Ledger.exportWritten (l : Ledger) (x : Pkt) (pages : List PageRead) : List Bytes :=
  withGaps (l.streamOwner (x.u 0x20 4)) (x.u 0x20 4) (x.u 0x28 8 + x.u 0x30 8 - 1) (x.u 0x28 8) (l.exportFound x pages)

section
variable {s : State} {f i p : Nat} {x : Pkt} {id : PktId} {pages : List PageRead}

/-- The target of the completion: a virtual function's partition, or none. -/
def exportTarget (f p : Nat) : Nat := if f = 0 then 0xFF else p

theorem State.exportAdmitted_of_foreign (hf : f ≠ 0) (h : (s.part p).stream.id ≠ x.u 0x20 4) :
    s.exportAdmitted pages f id p x = s.refuse id (exportTarget f p) stSHAPE 0x55 :=
  if_pos (by rw [Bool.and_eq_true, bne_iff_ne, bne_iff_ne]; exact ⟨hf, h⟩)

/-- The reply to an LDG_EXPORT that finds entries es and has to write all (R550); one whose buffer is too short is refused. -/
def State.replyExport (s : State) (id : PktId) (part : Nat) (x : Pkt) (es : List (Nat × Bytes)) (all : List Bytes) : State :=
  if x.u 0x40 8 < 256 * all.length then s.refuse id part stSHAPE 0x52
  else (if all.isEmpty then s else s.emit (.hostWrite id.pasid (x.u 0x38 8) all.flatten)).finish id part stOK 0 es.length
    (x.u 0x28 8 + x.u 0x30 8 - 1) (all.length - es.length)

/-- What an LDG_EXPORT that is not turned away finds and writes goes by the log as it was before its reads were counted. -/
theorem State.exportAdmitted_of_own (h : f = 0 ∨ (s.part p).stream.id = x.u 0x20 4) (hc : 0 < x.u 0x30 8) : ∃ a b c,
    s.exportAdmitted pages f id p x = (s.modLdg fun l => { l with syncRetry := a, erasures := b, toRelocate := c }).replyExport id
      (exportTarget f p) x (s.ldg.exportFound x pages) (s.ldg.exportWritten x pages) := by
  have hown : ¬(f != 0 && (s.part p).stream.id != x.u 0x20 4) = true := by
    rw [Bool.and_eq_true, bne_iff_ne, bne_iff_ne]
    exact fun hne => h.elim hne.1 hne.2
  unfold State.exportAdmitted
  extract_lets stream first count part u es owner all v
  obtain ⟨a, b, c, hu⟩ : ∃ a b c, u = s.modLdg fun l => { l with syncRetry := a, erasures := b, toRelocate := c } :=
    State.noteReads_cases pages _ s
  have hes : es = s.ldg.exportFound x pages := (if_neg hc.ne').trans (by rw [hu]; rfl)
  have howner : owner = s.ldg.streamOwner stream := by
    show Option.getD (Option.map _ (List.find? _ u.ldg.dir)) 0 = _
    rw [hu]
    rfl
  have hall : all = s.ldg.exportWritten x pages := (if_neg hc.ne').trans (by rw [hes, howner]; rfl)
  have hlast : (if count = 0 then 0 else first + count - 1) = first + count - 1 := if_neg hc.ne'
  refine ⟨a, b, c, ?_⟩
  rw [if_neg hown, hlast, ← hu, ← hes, ← hall]
  rfl

theorem ldgExport_foreign (ha : s.admits f 0x2C i x) (hf : f ≠ 0) (h : (s.part (x.part f)).stream.id ≠ x.u 0x20 4) :
    ∃ t, exec (.ldgExport f pages) s = .next t ∧ t.answered (s.pktId f x) (exportTarget f (x.part f)) 7 0x55 0 0 0 ∧ t.ldg = s.ldg := by
  have hk : State.AnswersMore _ (settle s (ldgExportEffect f pages s)) :=
    State.admitPkt_answersMore ha (State.exportAdmitted_of_foreign (s := s.takePkt f i) hf h)
  exact ⟨_, exec_ldgExport f pages s, (State.hears_takePkt ha).answered_of _ _ _ _ _ _ hk rfl, hk.ldg⟩

theorem ldgExport_too_long (ha : s.admits f 0x2C i x) (h : f = 0 ∨ (s.part (x.part f)).stream.id = x.u 0x20 4) (hc : 0 < x.u 0x30 8)
    (hl : x.u 0x40 8 < 256 * (s.ldg.exportWritten x pages).length) :
    ∃ t, exec (.ldgExport f pages) s = .next t ∧ t.answered (s.pktId f x) (exportTarget f (x.part f)) 7 0x52 0 0 0 := by
  obtain ⟨a, b, c, hrun⟩ := State.exportAdmitted_of_own (s := s.takePkt f i) (id := s.pktId f x) (pages := pages) h hc
  have hk : State.AnswersMore _ (settle s (ldgExportEffect f pages s)) := State.admitPkt_answersMore ha (hrun.trans (if_pos hl))
  exact ⟨_, exec_ldgExport f pages s, (State.hears_takePkt ha).answered_of _ _ _ _ _ _ hk rfl⟩

theorem ldgExport_writes (ha : s.admits f 0x2C i x) (h : f = 0 ∨ (s.part (x.part f)).stream.id = x.u 0x20 4) (hc : 0 < x.u 0x30 8)
    (hl : 256 * (s.ldg.exportWritten x pages).length ≤ x.u 0x40 8) :
    let es := s.ldg.exportFound x pages
    let all := s.ldg.exportWritten x pages
    ∃ t, exec (.ldgExport f pages) s = .next t ∧
      (all ≠ [] → Output.hostWrite (s.pktId f x).pasid (x.u 0x38 8) all.flatten ∈ t.out) ∧
      t.answered (s.pktId f x) (exportTarget f (x.part f)) 0 0 es.length (x.u 0x28 8 + x.u 0x30 8 - 1) (all.length - es.length) ∧
      t.ldg.stripes = s.ldg.stripes := by
  intro es all
  obtain ⟨a, b, c, hrun⟩ := State.exportAdmitted_of_own (s := s.takePkt f i) (id := s.pktId f x) (pages := pages) h hc
  have hrun := hrun.trans (if_neg (Nat.not_lt.2 hl))
  have hk : State.AnswersMore _ (settle s (ldgExportEffect f pages s)) := State.admitPkt_answersMore ha hrun
  refine ⟨_, exec_ldgExport f pages s, fun hne => mem_out_admitPkt ha hrun ?_, ?_, ?_⟩
  · split
    next hnil => exact absurd (List.isEmpty_iff.1 hnil) hne
    · exact List.mem_cons_self
  · refine (State.hears.answered_finish ?_ ..).of_answersMore hk
    split <;> exact State.hears_takePkt ha
  · rw [hk.ldg]
    split <;> rfl

end

/-- Settles O43, packet by packet. -/
theorem ledgerPacketsAndExport : Obligations.LedgerPacketsAndExport :=
  ⟨fun _ _ _ _ => ⟨fun _ _ => ldgFormat_begins, fun _ => ldgMemberReplace_begins,
      fun ha => ⟨ldgUnseal_unseals ha, ldgUnseal_refused ha⟩, ldgRelease_releases⟩,
    fun _ _ _ _ _ ha => ⟨ldgExport_foreign ha, fun h hc => ⟨ldgExport_too_long ha h hc, ldgExport_writes ha h hc⟩⟩⟩

end Sys2Proof.Machine
end

section
/-! R682, R686, R687, R691: the messages that end a command, an EOI and the unmasking of the vector, and the step that runs the front command
(O1, O3, O46). -/

namespace Sys2Proof.Machine

/-- Settles O1: a step on a queue that is not empty is the front command's arm. -/
theorem stepRunsFrontCommand : Obligations.StepRunsFrontCommand := by
  intro c rest s h
  unfold step
  rw [h]

/-! ### The messages of a command -/

/-- Messages of functions, sent one after the other. -/
theorem State.foldl_msix (fs : List Nat) (s : State) :
    fs.foldl (fun s f => s.emit (.msix f)) s = { s with out := fs.reverse.map Output.msix ++ s.out } := by
  induction fs generalizing s with
  | nil => rfl
  | cons f fs ih =>
    rw [List.foldl_cons, ih]
    simp [State.emit]

/-- The functions whose messages end a command, newest first: the physical one's vector, where it sends, after the virtual ones (R687, R691). -/
def messagesOf (s t : State) : List Nat :=
  (if t.irq.msixEnabled && t.irqPending && !s.irqPending then [0] else []) ++ (vfRaised s t).reverse

theorem settle_eq (s t : State) : settle s t =
    { t with out := (messagesOf s t).map Output.msix ++ t.out
             irq := { t.irq with msixPending := t.irq.msixPending || (!t.irq.msixEnabled && t.irqPending && !s.irqPending) } } := by
  rw [settle, State.foldl_msix]
  cases hp : t.irqPending && !s.irqPending with
  | false => simp [messagesOf, Bool.and_assoc, hp]
  | true =>
    cases he : t.irq.msixEnabled with
    | false => simp [messagesOf, hp, he, State.pfMessage, State.modIrq]
    | true =>
      simp only [messagesOf, hp, he, State.pfMessage, State.emit, Bool.true_and, Bool.not_true, Bool.false_and, Bool.or_false, if_true,
        List.map_cons, List.map_reverse, List.cons_append, List.nil_append]
      rw [← he]

/-- R691: the virtual functions whose BAD_DOORBELL or FETCH_FAULT rose. -/
theorem mem_vfRaised {s t : State} {f : Nat} : f ∈ vfRaised s t ↔ f ≠ 0 ∧ f ≤ 6 ∧
    ((!(s.fn f).badDoorbell && (t.fn f).badDoorbell) || (!(s.fn f).fetchFault && (t.fn f).fetchFault)) = true := by
  simp only [vfRaised, List.mem_filterMap, List.mem_range]
  constructor
  · rintro ⟨p, hp, h⟩
    split at h
    next hr =>
      obtain rfl := Option.some.inj h
      exact ⟨p.succ_ne_zero, hp, hr⟩
    · cases h
  · rintro ⟨h0, h6, hr⟩
    obtain ⟨p, rfl⟩ := Nat.exists_eq_succ_of_ne_zero h0
    exact ⟨p, h6, if_pos hr⟩

/-- Settles O3: the messages are those of messagesOf. -/
theorem settleSendsMessagesOnly : Obligations.SettleSendsMessagesOnly := by
  refine fun s t => ⟨messagesOf s t, settle_eq s t, fun f hf => ?_, ?_⟩
  · have h0 : f ∉ (if t.irq.msixEnabled && t.irqPending && !s.irqPending then [0] else []) := by split <;> simp [hf]
    rw [messagesOf, List.mem_append, or_iff_right h0, List.mem_reverse, mem_vfRaised, and_iff_right hf]
  · have h0 : 0 ∉ (vfRaised s t).reverse := by simp [mem_vfRaised]
    rw [messagesOf, List.mem_append, or_iff_left h0]
    split <;> simp_all

/-! ### The EOI and the unmasking of the vector (R686, R687) -/

theorem exec_irqEoi (fn : Nat) (w : W32) (s : State) : exec (.irqEoi fn w) s = .next (settle s (irqEoiEffect fn w s)) := rfl
theorem exec_msixVectorUnmask (s : State) : exec .msixVectorUnmask s = .next (settle s (msixUnmaskEffect s)) := rfl

theorem irqEoiEffect_of_none {fn : Nat} {w : W32} {s : State} (h : fn ≠ 0 ∨ w.getLsbD 0 = false ∨ s.irqPending = false) :
    irqEoiEffect fn w s = s := by
  refine if_neg ?_
  rcases h with h | h | h <;> simp [h, -BitVec.getLsbD_eq_getElem]

theorem irqEoiEffect_of_pending {w : W32} {s : State} (hs : s.running = true) (hw : w.getLsbD 0 = true) (hp : s.irqPending = true) :
    irqEoiEffect 0 w s = s.pfMessage := by
  simp [irqEoiEffect, hs, hw, hp]

/-- A message and its Pending Bit are no cause of an interrupt. -/
theorem settle_pfMessage (s : State) : settle s s.pfMessage = s.pfMessage := by
  obtain h | h := pfMessage_cases s <;> rw [h] <;> exact settle_of_causes_eq rfl rfl

/-- Settles O46: an EOI is the vector's message where an interrupt is pending, and an unmasking sends the held one. -/
theorem eoiAndUnmaskSendMessages : Obligations.EoiAndUnmaskSendMessages := by
  refine fun s => ⟨fun w hs hw => ⟨fun hp he => ?_, fun hp he => ?_, fun hp => ?_⟩, fun w hw => ?_, fun fn w hfn => ?_,
    _, exec_msixVectorUnmask s, ?_⟩
  · rw [exec_irqEoi, irqEoiEffect_of_pending hs hw hp, settle_pfMessage, State.pfMessage, if_pos he]
    rfl
  · rw [exec_irqEoi, irqEoiEffect_of_pending hs hw hp, settle_pfMessage, State.pfMessage, if_neg (by simp [he])]
    rfl
  · rw [exec_irqEoi, irqEoiEffect_of_none (.inr (.inr hp)), settle_self]
  · rw [exec_irqEoi, irqEoiEffect_of_none (.inr (.inl hw)), settle_self]
  · rw [exec_irqEoi, irqEoiEffect_of_none (.inl hfn), settle_self]
  · cases hp : s.irq.msixPending with
    | false =>
      have h : msixUnmaskEffect s = s.modIrq fun i => { i with msixEnabled := true, msixPending := false } := by simp [msixUnmaskEffect, hp]
      rw [settle_of_causes_eq (b := msixUnmaskEffect s) (by rw [h]; rfl) (by rw [h]; rfl), h]
      exact ⟨rfl, rfl, rfl, rfl⟩
    | true =>
      have h : msixUnmaskEffect s = (s.modIrq fun i => { i with msixEnabled := true, msixPending := false }).emit (.msix 0) := by
        simp [msixUnmaskEffect, hp]
      rw [settle_of_causes_eq (b := msixUnmaskEffect s) (by rw [h]; rfl) (by rw [h]; rfl), h]
      exact ⟨rfl, rfl, rfl, rfl⟩

end Sys2Proof.Machine
end

section
/-! The state after reset: its canonical form and its units (O58), and what the physical function reads of it (O55). -/

namespace Sys2Proof.Machine

/-- Settles O58. -/
theorem resetMeetsTheInvariant : Obligations.ResetMeetsTheInvariant := by
  refine ⟨?_, ?_, ?_⟩ <;> decide +kernel

/-- Settles O55. -/
theorem resetValuesRead : Obligations.ResetValuesRead := by
  refine ⟨?_, ?_, ?_, ?_⟩ <;> decide +kernel

end Sys2Proof.Machine
end

section
/-! SUPPORT. What every event but an update of the settings leaves alone: the commands that wait, the fuses, and the one-time slots that have
been used (O56). One lemma for each event, in the order of the model. -/

namespace Sys2Proof.Machine

/-! ### The stock and its rules -/

/-- The commands that wait, the fuses, and the one-time slots that each setting has used. -/
def State.stock (s : State) : List Instr × Fuses × List Nat := (s.pending, s.fuses, s.glue.used)

/-- The stock of a state in which other fields have been set. -/
@[simp] theorem State.stock_mk (pending : List Instr) (life : Life) (start : StartEnv) (fuses : Fuses) (beat : Beat) (irq : Irq)
    (fns : List Aivia) (hiLatch : List (List (Nat × W32))) (ring : Ring) (parts : List Part) (benches : List Bench) (hbm : Mem)
    (bar2Wait : List (Nat × Nat × Bar2)) (doorbells : List (Nat × Nat × Nat × Nat × Nat × Nat)) (ldg : Ledger)
    (sessions : List Session) (ports : List StorePort) (glue : Glue) (gpio : Gpio) (mgmt : Mgmt) (glb : Glb) (out : List Output)
    (raised : List (Nat × W32)) (invals : List (Nat × List (Nat × Nat × Nat))) (freeCtr : Nat) :
    (State.mk pending life start fuses beat irq fns hiLatch ring parts benches hbm bar2Wait doorbells ldg sessions ports glue gpio mgmt
      glb out raised invals freeCtr).stock = (pending, fuses, glue.used) := (rfl)

@[simp] theorem State.stock_eta (s : State) : (s.pending, s.fuses, s.glue.used) = s.stock := (rfl)

@[simp] theorem State.stock_ite (c : Prop) [Decidable c] (s t : State) : (if c then s else t).stock = if c then s.stock else t.stock :=
  apply_ite _ _ _ _

section
variable {α : Type}

/-- Steps that each keep the stock keep it together. -/
@[simp] theorem State.stock_foldl {f : State → α → State} (h : ∀ s a, (f s a).stock = s.stock) (xs : List α) (s : State) :
    (xs.foldl f s).stock = s.stock := by
  induction xs generalizing s with
  | nil => rfl
  | cons x xs ih => exact (ih (f s x)).trans (h s x)

theorem State.stock_foldl_fst {β : Type} {f : State × β → α → State × β} (h : ∀ a x, (f a x).1.stock = a.1.stock) (xs : List α)
    (a : State × β) : (xs.foldl f a).1.stock = a.1.stock := by
  induction xs generalizing a with
  | nil => rfl
  | cons x xs ih => exact (ih (f a x)).trans (h a x)

theorem State.stock_foldl_snd {β : Type} {f : β × State → α → β × State} (h : ∀ a x, (f a x).2.stock = a.2.stock) (xs : List α)
    (a : β × State) : (xs.foldl f a).2.stock = a.2.stock := by
  induction xs generalizing a with
  | nil => rfl
  | cons x xs ih => exact (ih (f a x)).trans (h a x)

@[simp] theorem State.stock_repeat {f : State → State} (h : ∀ s, (f s).stock = s.stock) (n : Nat) (s : State) :
    (Nat.repeat f n s).stock = s.stock := by
  induction n with
  | zero => rfl
  | succ n ih => exact (h _).trans ih

end

section
variable (s : State)

@[simp] theorem State.modGpio_stock (f : Gpio → Gpio) : (s.modGpio f).stock = s.stock := (rfl)
@[simp] theorem State.modBench_stock (b : Nat) (f : Bench → Bench) : (s.modBench b f).stock = s.stock := (rfl)
@[simp] theorem State.modCore_stock (b c : Nat) (f : Core → Core) : (s.modCore b c f).stock = s.stock := (rfl)
@[simp] theorem State.modQueue_stock (b c q : Nat) (f : Queue → Queue) : (s.modQueue b c q f).stock = s.stock := (rfl)
@[simp] theorem State.modSlot_stock (b c i : Nat) (f : Slot → Slot) : (s.modSlot b c i f).stock = s.stock := (rfl)
@[simp] theorem State.modPart_stock (p : Nat) (f : Part → Part) : (s.modPart p f).stock = s.stock := (rfl)
@[simp] theorem State.modRing_stock (f : Ring → Ring) : (s.modRing f).stock = s.stock := (rfl)
@[simp] theorem State.modGlb_stock (f : Glb → Glb) : (s.modGlb f).stock = s.stock := (rfl)
@[simp] theorem State.modLdg_stock (f : Ledger → Ledger) : (s.modLdg f).stock = s.stock := (rfl)
@[simp] theorem State.modMgmt_stock (f : Mgmt → Mgmt) : (s.modMgmt f).stock = s.stock := (rfl)
@[simp] theorem State.modSession_stock (i : Nat) (f : Session → Session) : (s.modSession i f).stock = s.stock := (rfl)
@[simp] theorem State.emit_stock (o : Output) : (s.emit o).stock = s.stock := (rfl)
@[simp] theorem State.fresh_stock : s.fresh.2.stock = s.stock := (rfl)
@[simp] theorem State.raise_stock (key n : Nat) : (s.raise key n).stock = s.stock := by unfold State.raise; split <;> rfl

@[simp] theorem State.modFn_stock (f : Nat) (g : Aivia → Aivia) : (s.modFn f g).stock = s.stock := (rfl)
@[simp] theorem State.modBeat_stock (f : Beat → Beat) : (s.modBeat f).stock = s.stock := (rfl)
@[simp] theorem State.modIrq_stock (f : Irq → Irq) : (s.modIrq f).stock = s.stock := (rfl)

/-- An update of the settings that uses no slot. -/
@[simp] theorem State.modGlue_stock {f : Glue → Glue} (h : ∀ g, (f g).used = g.used) : (s.modGlue f).stock = s.stock :=
  congrArg (fun u => (s.pending, s.fuses, u)) (h s.glue)

end

/-! ### The start of a cycle: signals, credit returns and the movers -/

@[simp] theorem State.ctxError_stock (s : State) (b c ctx : Nat) : (s.ctxError b c ctx).stock = s.stock := by simp [State.ctxError]

@[simp] theorem State.abort_stock (s : State) (p : Nat) (e : Ending) : (s.abort p e).stock = s.stock := by simp [State.abort]

@[simp] theorem State.applyTally_stock (s : State) (b c i : Nat) (xs : List Signal) : (s.applyTally b c i xs).stock = s.stock := by
  simp only [State.applyTally]
  (repeat' split) <;> simp

@[simp] theorem State.applySignals_stock (s : State) (b c : Nat) : (s.applySignals b c).stock = s.stock := by simp [State.applySignals]

@[simp] theorem State.applyReturn_stock (s : State) (b c ctx link n : Nat) : (s.applyReturn b c ctx link n).stock = s.stock := by
  unfold State.applyReturn
  (repeat' split) <;> simp

@[simp] theorem State.applyReturns_stock (s : State) (b c : Nat) : (s.applyReturns b c).stock = s.stock := by simp [State.applyReturns]

@[simp] theorem State.noteIdle_stock (s : State) (p : Nat) : (s.noteIdle p).stock = s.stock := by
  unfold State.noteIdle
  split <;> simp

@[simp] theorem State.shareSplice_stock (s : State) (p off n : Nat) (m : Mem) : (s.shareSplice p off n m).stock = s.stock := by
  simp [State.shareSplice]

@[simp] theorem State.startMovers_stock (s : State) (p : Nat) : (s.startMovers p).stock = s.stock := by
  unfold State.startMovers
  split <;> simp

@[simp] theorem State.startCycle_stock (s : State) : s.startCycle.stock = s.stock := by simp [State.startCycle]

/-! ### The end of startup, and what a beat begins with -/

@[simp] theorem State.endTest_stock (s : State) (b : Nat) (pass : Bool) (st : BState) : (s.endTest b pass st).stock = s.stock := by
  simp [State.endTest]

@[simp] theorem State.makeSpare_stock (s : State) (b : Nat) : (s.makeSpare b).stock = s.stock := by simp [State.makeSpare]

@[simp] theorem State.startBench_stock (s : State) (b : Nat) : (s.startBench b).stock = s.stock := by simp [State.startBench]

@[simp] theorem State.ldgEvent_stock (s : State) (n : Nat) : (s.ldgEvent n).stock = s.stock := by simp [State.ldgEvent]

@[simp] theorem State.postHeld_stock (s : State) : s.postHeld.stock = s.stock := by
  simp [State.postHeld]

@[simp] theorem State.ldgSettle_stock (before : State) (s : State) : (State.ldgSettle before s).stock = s.stock := by simp [State.ldgSettle]

@[simp] theorem State.mount_stock (s : State) : s.mount.stock = s.stock := by simp [State.mount]

@[simp] theorem State.finishStart_stock (s : State) : s.finishStart.stock = s.stock := by simp [State.finishStart]

@[simp] theorem State.countStart_stock (s : State) : s.countStart.stock = s.stock := by
  unfold State.countStart
  split <;> simp

@[simp] theorem State.mark_stock (s : State) (p bit : Nat) : (s.mark p bit).stock = s.stock := by simp [State.mark]

@[simp] theorem State.markHoldover_stock (s : State) : s.markHoldover.stock = s.stock := by simp [State.markHoldover]

@[simp] theorem State.touchShare_stock (s : State) (p a n : Nat) : (s.touchShare p a n).stock = s.stock := by simp [State.touchShare]

@[simp] theorem State.bar2Serve_stock (s : State) (fn off : Nat) (acc : Bar2) : (s.bar2Serve fn off acc).stock = s.stock := by
  unfold State.bar2Serve
  (repeat' split) <;> simp

@[simp] theorem State.bar2Flush_stock (s : State) (n : Nat) : (s.bar2Flush n).stock = s.stock := by
  induction n generalizing s with
  | zero => rfl
  | succ n ih =>
    unfold State.bar2Flush
    split
    · simp [ih]
    · rfl

@[simp] theorem gpioFilterChangeEffect_stock (pin : Nat) (s : State) : (gpioFilterChangeEffect pin s).stock = s.stock := by
  simp [gpioFilterChangeEffect]

@[simp] theorem State.filterChanges_stock (s : State) : s.filterChanges.stock = s.stock := by simp [State.filterChanges]

/-! ### The close of a splice window -/

@[simp] theorem State.ringEvent_stock (s : State) (n : Nat) : (s.ringEvent n).stock = s.stock := by simp [State.ringEvent]

@[simp] theorem State.post_stock (s : State) (c : Compl) : (s.post c).stock = s.stock := (rfl)

@[simp] theorem State.finish_stock (s : State) (id : PktId) (part status detail : Nat) (r0 r1 : Nat) (r2 : Nat) :
    (s.finish id part status detail r0 r1 r2).stock = s.stock := by
  simp [State.finish]

@[simp] theorem State.closeCreate_stock (s : State) (p : Nat) (id : Option PktId) : (s.closeCreate p id).stock = s.stock := by
  unfold State.closeCreate
  split <;> simp

@[simp] theorem State.closeResize_stock (s : State) (p first count : Nat) (released : List Nat) (id : Option PktId) :
    (s.closeResize p first count released id).stock = s.stock := by
  unfold State.closeResize
  split <;> simp

@[simp] theorem State.refuse_stock (s : State) (id : PktId) (p status detail : Nat) : (s.refuse id p status detail).stock = s.stock := by
  simp [State.refuse]

@[simp] theorem State.glueEvent_stock (s : State) (n : Nat) : (s.glueEvent n).stock = s.stock := by simp [State.glueEvent]

@[simp] theorem State.writeLocked_stock (s : State) (off fn : Nat) : (s.writeLocked off fn).stock = s.stock :=
  (State.glueEvent_stock _ _).trans (State.modGlue_stock _ fun g => by split <;> rfl)

theorem State.decideJob_stock {s t : State} {j : GlueJob} (h : s.decideJob j = some t) : t.stock = s.stock := by
  suffices hs : ∀ t ∈ s.decideJob j, t.stock = s.stock from hs t h
  simp only [State.decideJob]
  (repeat' split) <;> simp

@[simp] theorem State.emptyRing_stock (s : State) (p : Nat) : (s.emptyRing p).stock = s.stock := by
  unfold State.emptyRing
  split <;> simp

@[simp] theorem State.setPhases_stock (s : State) (p step : Nat) : (s.setPhases p step).stock = s.stock :=
  State.stock_foldl (fun s b => by split <;> simp) _ s

@[simp] theorem State.setSlotPage_stock (s : State) (p k i : Nat) (m : Mem) : (s.setSlotPage p k i m).stock = s.stock := by
  simp [State.setSlotPage]

@[simp] theorem State.buddyLoad_stock (s : State) (p k : Nat) (pages : List Nat) : (s.buddyLoad p k pages).stock = s.stock := by
  simp [State.buddyLoad]

@[simp] theorem State.beginLoad_stock (s : State) (p k : Nat) (pages : List Nat) (kind : Nat) :
    (s.beginLoad p k pages kind).stock = s.stock := by
  simp [State.beginLoad]

@[simp] theorem State.dropLoad_stock (s : State) (p : Nat) : (s.dropLoad p).stock = s.stock := by
  unfold State.dropLoad
  split <;> simp

@[simp] theorem State.unload_stock (s : State) (p : Nat) : (s.unload p).stock = s.stock := by simp [State.unload]

@[simp] theorem State.abortAndDrop_stock (s : State) (p detail : Nat) : (s.abortAndDrop p detail).stock = s.stock := by
  simp [State.abortAndDrop]

@[simp] theorem State.closeBypass_stock (s : State) (p lost : Nat) : (s.closeBypass p lost).stock = s.stock := by
  simp only [State.closeBypass]
  (repeat' split) <;> simp

/-! ### What a gate does with the stores, the comparisons and the drains -/

@[simp] theorem State.gateScrub_stock (s : State) : s.gateScrub.stock = s.stock := by simp [State.gateScrub]

@[simp] theorem State.admitDoorbell_stock (s : State) (d : Nat × Nat × Nat × Nat × Nat × Nat) : (s.admitDoorbell d).stock = s.stock := by
  simp [State.admitDoorbell]

@[simp] theorem State.supplyGate_stock (s : State) (env : GateEnv) : (s.supplyGate env).stock = s.stock := by simp [State.supplyGate]

@[simp] theorem State.setDisagreed_stock (s : State) (kind unit n : Nat) : (s.setDisagreed kind unit n).stock = s.stock := by
  simp [State.setDisagreed]

@[simp] theorem State.loseSpare_stock (s : State) : s.loseSpare.stock = s.stock := by simp [State.loseSpare]

@[simp] theorem State.ckpEvent_stock (s : State) (p n : Nat) : (s.ckpEvent p n).stock = s.stock := by simp [State.ckpEvent]

@[simp] theorem State.failDrain_stock (s : State) (p status : Nat) : (s.failDrain p status).stock = s.stock := by simp [State.failDrain]

@[simp] theorem State.dropClamp_stock (s : State) (p : Nat) : (s.dropClamp p).stock = s.stock := by
  unfold State.dropClamp
  split <;> simp

@[simp] theorem State.requestSplice_stock (s : State) (q : SpliceReq) : (s.requestSplice q).stock = s.stock := by simp [State.requestSplice]

@[simp] theorem State.endTests_stock (s : State) : s.endTests.stock = s.stock := by simp [State.endTests]

@[simp] theorem State.abandonTest_stock (s : State) : s.abandonTest.1.stock = s.stock := by
  simp only [State.abandonTest, State.fresh]
  split <;> simp

@[simp] theorem State.startTakeover_stock (s : State) (p b : Nat) : (s.startTakeover p b).stock = s.stock := by simp [State.startTakeover]

@[simp] theorem State.recover_stock (s : State) (p b : Nat) : (s.recover p b).stock = s.stock := by simp [State.recover]

@[simp] theorem State.fence_stock (s : State) (b : Nat) : (s.fence b).stock = s.stock := by
  simp only [State.fence]
  (repeat' split) <;> simp

@[simp] theorem State.setMember_stock (s : State) (m : Nat) (st : MState) : (s.setMember m st).stock = s.stock := by simp [State.setMember]

@[simp] theorem State.failMember_stock (s : State) (m : Nat) : (s.failMember m).stock = s.stock := by simp [State.failMember]

@[simp] theorem State.programPages_stock (s : State) (x : Stripe) (ms : List Nat) : (s.programPages x ms).stock = s.stock := by
  simp [State.programPages]

@[simp] theorem State.beginProgram_stock (s : State) (g : StripeProg) : (s.beginProgram g).stock = s.stock := by simp [State.beginProgram]

@[simp] theorem State.makeDurable_stock (s : State) (n : Nat) : (s.makeDurable n).stock = s.stock := by simp [State.makeDurable]

@[simp] theorem State.completeStripe_stock (s : State) (g : StripeProg) : (s.completeStripe g).stock = s.stock := by
  unfold State.completeStripe
  (repeat' split) <;> simp

@[simp] theorem State.continueProgram_stock (s : State) (g : StripeProg) : (s.continueProgram g).stock = s.stock := by
  unfold State.continueProgram
  (repeat' split) <;> simp

@[simp] theorem State.abandonStripe_stock (s : State) (g : StripeProg) : (s.abandonStripe g).stock = s.stock := by simp [State.abandonStripe]

@[simp] theorem State.pageFailed_stock (s : State) (g : StripeProg) (m : Nat) (status : Bool) : (s.pageFailed g m status).stock = s.stock := by
  unfold State.pageFailed
  split <;> simp

@[simp] theorem State.beginErase_stock (s : State) (why : EraseWhy) (ms : List Nat) : (s.beginErase why ms).stock = s.stock := by
  simp [State.beginErase]

@[simp] theorem State.beginAnchor_stock (s : State) (id : Option PktId) : (s.beginAnchor id).stock = s.stock := by
  simp only [State.beginAnchor]
  (repeat' split) <;> simp

@[simp] theorem State.eraseDone_stock (s : State) (j : EraseJob) : (s.eraseDone j).stock = s.stock := by
  unfold State.eraseDone
  split <;> simp

@[simp] theorem State.loseMember_stock (s : State) (m : Nat) : (s.loseMember m).stock = s.stock := by
  simp only [State.loseMember]
  (repeat' split) <;> simp

@[simp] theorem State.sessionDown_stock (s : State) (i status : Nat) : (s.sessionDown i status).stock = s.stock := by
  simp only [State.sessionDown]
  (repeat' split) <;> simp

@[simp] theorem State.takeOut_stock (s : State) (kind unit : Nat) : (s.takeOut kind unit).stock = s.stock := by simp [State.takeOut]

@[simp] theorem State.latchUnit_stock (s : State) (kind unit mgmt data : Nat) : (s.latchUnit kind unit mgmt data).stock = s.stock := by
  simp [State.latchUnit]

@[simp] theorem State.compareUnit_stock (s : State) (env : GateEnv) (kind unit : Nat) : (s.compareUnit env kind unit).stock = s.stock := by
  simp [State.compareUnit]

@[simp] theorem State.compareAll_stock (s : State) (env : GateEnv) : (s.compareAll env).stock = s.stock := by simp [State.compareAll]

@[simp] theorem State.endWake_stock (s : State) : s.endWake.stock = s.stock := by simp [State.endWake]

@[simp] theorem State.commitGen_stock (s : State) (p : Nat) (d : Drain) : (s.commitGen p d).stock = s.stock := by simp [State.commitGen]

@[simp] theorem State.drainCompletion_stock (s : State) (p status : Nat) : (s.drainCompletion p status).stock = s.stock := by
  unfold State.drainCompletion
  split <;> simp

@[simp] theorem State.storeGate_stock (s : State) (i : Nat) : (s.storeGate i).stock = s.stock := by
  simp only [State.storeGate]
  (repeat' split) <;> simp

theorem State.drainIssue_stock {s t : State} {p : Nat} (h : s.drainIssue p = some t) : t.stock = s.stock := by
  suffices hs : ∀ t ∈ s.drainIssue p, t.stock = s.stock from hs t h
  simp only [State.drainIssue]
  (repeat' split) <;> simp

@[simp] theorem State.drainAll_stock (s : State) (p n : Nat) : (s.drainAll p n).stock = s.stock := by
  induction n generalizing s with
  | zero => rfl
  | succ n ih =>
    unfold State.drainAll
    split
    next h => exact (ih _).trans (State.drainIssue_stock h)
    next => rfl

@[simp] theorem State.drainGate_stock (s : State) (p : Nat) : (s.drainGate p).stock = s.stock := by
  unfold State.drainGate
  (repeat' split) <;> simp

@[simp] theorem State.modTile_stock (s : State) (b c slot num : Nat) (f : Tile → Tile) : (s.modTile b c slot num f).stock = s.stock := by
  simp [State.modTile]

@[simp] theorem State.feedRows_stock (s : State) (b c slot n : Nat) : (s.feedRows b c slot n).stock = s.stock := by
  induction n generalizing s with
  | zero => rfl
  | succ n ih =>
    simp only [State.feedRows]
    split
    · split
      · rfl
      · split
        · exact ih _
        · rfl
    · rfl

@[simp] theorem State.ask_stock (s : State) (b : Nat) (rs : List MemReq) : (s.ask b rs).stock = s.stock := by simp [State.ask]

@[simp] theorem State.tileZeros_stock (s : State) (p b c slot : Nat) (t : Tile) : (s.tileZeros p b c slot t).stock = s.stock := by
  simp [State.tileZeros]

@[simp] theorem State.modReq_stock (s : State) (b c id : Nat) (f : Req → Req) : (s.modReq b c id f).stock = s.stock := by simp [State.modReq]

@[simp] theorem State.writeLocal_stock (s : State) (p b c : Nat) (r : Req) : (s.writeLocal p b c r).stock = s.stock := by
  simp [State.writeLocal]

@[simp] theorem State.gateTile_stock (s : State) (p b c i : Nat) (t : Tile) : (s.gateTile p b c i t).stock = s.stock := by
  unfold State.gateTile
  split <;> simp

@[simp] theorem State.deadline_stock (s : State) (b c n : Nat) : (s.deadline b c n).stock = s.stock := by simp [State.deadline]

@[simp] theorem State.gateDowel_stock (s : State) (p b c : Nat) (r : Req) : (s.gateDowel p b c r).stock = s.stock := by
  unfold State.gateDowel
  split <;> simp

@[simp] theorem State.gateTiles_stock (s : State) (p : Nat) : (s.gateTiles p).stock = s.stock := by
  refine State.stock_foldl (fun s bc => ?_) _ s
  refine (State.stock_foldl (fun s r => s.gateDowel_stock p _ _ r) _ _).trans ?_
  exact State.stock_foldl (fun s i => State.stock_foldl (fun s t => s.gateTile_stock p _ _ i t) _ s) _ s

@[simp] theorem State.refuseHeader_stock (s : State) (id : PktId) (detail : Nat) : (s.refuseHeader id detail).stock = s.stock := by
  simp [State.refuseHeader]

@[simp] theorem State.wakeForRun_stock (s : State) (f : Nat) : (s.wakeForRun f).stock = s.stock := by
  unfold State.wakeForRun
  split <;> simp

/-! ### What waits for a gate: launches, power states, tests, sleep -/

@[simp] theorem State.launchDecided_stock (s : State) (f : Nat) : (s.launchDecided f).stock = s.stock := by simp [State.launchDecided]

@[simp] theorem State.refuseRun_stock (s : State) (id : PktId) (p status detail : Nat) : (s.refuseRun id p status detail).stock = s.stock := by
  simp [State.refuseRun]

@[simp] theorem State.unreserve_stock (s : State) : s.unreserve.stock = s.stock := by simp [State.unreserve]

@[simp] theorem State.benchRunStart_stock (s : State) (p b : Nat) : (s.benchRunStart p b).stock = s.stock := by simp [State.benchRunStart]

@[simp] theorem State.resetHurdles_stock (s : State) (p : Nat) : (s.resetHurdles p).stock = s.stock := by simp [State.resetHurdles]

@[simp] theorem State.launchRun_stock (s : State) (p : Nat) (t : Task) : (s.launchRun p t).stock = s.stock := by simp [State.launchRun]

@[simp] theorem startLaunchEffect_stock (p : Nat) (s : State) : (startLaunchEffect p s).stock = s.stock := by
  unfold startLaunchEffect
  split <;> simp

@[simp] theorem State.beginTest_stock (s : State) (b : Nat) (why : TestWhy) : (s.beginTest b why).stock = s.stock := by simp [State.beginTest]

@[simp] theorem State.startTest_stock (s : State) (b : Nat) (why : TestWhy) : (s.startTest b why).stock = s.stock := by simp [State.startTest]

@[simp] theorem deferredSelfTestStartEffect_stock (b : Nat) (s : State) : (deferredSelfTestStartEffect b s).stock = s.stock := by
  simp [deferredSelfTestStartEffect]

@[simp] theorem benchPowerTransitionEffect_stock (b : Nat) (s : State) : (benchPowerTransitionEffect b s).stock = s.stock := by
  simp [benchPowerTransitionEffect]

@[simp] theorem State.dropWork_stock (s : State) (p : Nat) : (s.dropWork p).stock = s.stock := by simp [State.dropWork]

@[simp] theorem packageSleepEntryEffect_stock (s : State) : (packageSleepEntryEffect s).stock = s.stock := by simp [packageSleepEntryEffect]

@[simp] theorem spliceWindowOpenEffect_stock (s : State) : (spliceWindowOpenEffect s).stock = s.stock := by simp [spliceWindowOpenEffect]

@[simp] theorem State.endBenchMove_stock (s : State) (b : Nat) : (s.endBenchMove b).stock = s.stock := by
  unfold State.endBenchMove
  split <;> simp

@[simp] theorem State.wakePackage_stock (s : State) : s.wakePackage.stock = s.stock :=
  State.stock_foldl (fun s b => by split <;> simp) _ (s.modGlb _)

@[simp] theorem State.endSleepMove_stock (s : State) : s.endSleepMove.stock = s.stock := by
  simp only [State.endSleepMove]
  (repeat' split) <;> simp

/-! ### The issue of commands -/

@[simp] theorem State.faultAbort_stock (s : State) (b c q detail cause : Nat) : (s.faultAbort b c q detail cause).stock = s.stock := by
  unfold State.faultAbort
  split <;> simp

@[simp] theorem badEntryEffect_stock (b c q : Nat) (s : State) : (badEntryEffect b c q s).stock = s.stock := by
  unfold badEntryEffect
  split <;> simp

@[simp] theorem State.modHurdle_stock (s : State) (p h : Nat) (f : Hurdle → Hurdle) : (s.modHurdle p h f).stock = s.stock := by
  simp [State.modHurdle]

@[simp] theorem State.acknowledge_stock (s : State) (p b c q h : Nat) : (s.acknowledge p b c q h).stock = s.stock := by
  simp [State.acknowledge]

@[simp] theorem State.issue_stock (s : State) (p : Nat) (t : Task) (b c q : Nat) (cmd : Cmd) (doneAt : Nat) (on : Until) :
    (s.issue p t b c q cmd doneAt on).stock = s.stock := by
  simp [State.issue]

@[simp] theorem nopEffect_stock (b c q : Nat) (s : State) : (nopEffect b c q s).stock = s.stock := by
  unfold nopEffect
  split <;> simp

@[simp] theorem State.busy_stock (s : State) (b c e until_ : Nat) : (s.busy b c e until_).stock = s.stock := by simp [State.busy]

@[simp] theorem jogEffect_stock (b c q : Nat) (s : State) : (jogEffect b c q s).stock = s.stock := by
  unfold jogEffect
  split <;> simp

@[simp] theorem endEffect_stock (b c q : Nat) (s : State) : (endEffect b c q s).stock = s.stock := by
  unfold endEffect
  split <;> simp

@[simp] theorem State.strike_stock (s : State) (us : List Upset) : (s.strike us).stock = s.stock := by simp [State.strike]

@[simp] theorem State.arithAbort_stock (s : State) (b c q bit op : Nat) : (s.arithAbort b c q bit op).stock = s.stock := by
  simp [State.arithAbort]

@[simp] theorem State.mxAbort_stock (s : State) (b c q op : Nat) (x : MxFault) : (s.mxAbort b c q op x).stock = s.stock := by
  unfold State.mxAbort
  split <;> simp

@[simp] theorem State.loadOn_stock (s : State) (eb ec q : Nat) (cmd : Cmd) (from_ : Nat) : (s.loadOn eb ec q cmd from_).stock = s.stock := by
  simp [State.loadOn]

@[simp] theorem State.addJob_stock (s : State) (b : Nat) (j : Job) : (s.addJob b j).stock = s.stock := by simp [State.addJob]

@[simp] theorem mloadEffect_stock (b c q : Nat) (errs : List Upset) (s : State) : (mloadEffect b c q errs s).stock = s.stock := by
  simp only [mloadEffect]
  (repeat' split) <;> simp

@[simp] theorem State.rowsNone_stock (s : State) (b c q : Nat) (cmd : Cmd) : (s.rowsNone b c q cmd).stock = s.stock := by simp [State.rowsNone]

@[simp] theorem State.streamOn_stock (s : State) (eb ec : Nat) (cmd : Cmd) (from_ : Nat) : (s.streamOn eb ec cmd from_).stock = s.stock := by
  simp [State.streamOn]

@[simp] theorem State.streamIssue_stock (s : State) (p : Nat) (t : Task) (b c q : Nat) (cmd : Cmd) (kind : JobKind) (gens : List (Option Nat)) :
    (s.streamIssue p t b c q cmd kind gens).stock = s.stock := by
  simp [State.streamIssue]

@[simp] theorem mstreamEffect_stock (b c q : Nat) (errs : List Upset) (s : State) : (mstreamEffect b c q errs s).stock = s.stock := by
  simp only [mstreamEffect]
  (repeat' split) <;> simp

@[simp] theorem mconvEffect_stock (b c q : Nat) (errs : List Upset) (s : State) : (mconvEffect b c q errs s).stock = s.stock := by
  simp only [mconvEffect]
  (repeat' split) <;> simp

@[simp] theorem mgenEffect_stock (b c q : Nat) (errs : List Upset) (s : State) : (mgenEffect b c q errs s).stock = s.stock := by
  simp only [mgenEffect]
  (repeat' split) <;> simp

@[simp] theorem State.dmaFault_stock (s : State) (b c q cause slot addr : Nat) (pasid : Option Nat) :
    (s.dmaFault b c q cause slot addr pasid).stock = s.stock := by
  simp [State.dmaFault]

@[simp] theorem sstartEffect_stock (b c q : Nat) (s : State) : (sstartEffect b c q s).stock = s.stock := by
  simp only [sstartEffect]
  (repeat' split) <;> simp

@[simp] theorem State.settleOn_stock (s : State) (b c : Nat) (u : Until) (at_ : Nat) : (s.settleOn b c u at_).stock = s.stock := by
  simp [State.settleOn]

@[simp] theorem State.slotIdle_stock (s : State) (b c i : Nat) : (s.slotIdle b c i).stock = s.stock := by simp [State.slotIdle]

@[simp] theorem State.slotRest_stock (s : State) (b c i : Nat) : (s.slotRest b c i).stock = s.stock := by simp [State.slotRest]

@[simp] theorem State.drainSlot_stock (s : State) (b c i : Nat) : (s.drainSlot b c i).stock = s.stock := by simp [State.drainSlot]

@[simp] theorem sdrainEffect_stock (b c q : Nat) (s : State) : (sdrainEffect b c q s).stock = s.stock := by
  unfold sdrainEffect
  split <;> simp

@[simp] theorem srearmEffect_stock (b c q : Nat) (s : State) : (srearmEffect b c q s).stock = s.stock := by
  simp only [srearmEffect]
  (repeat' split) <;> simp

@[simp] theorem dowelEffect_stock (b c q : Nat) (errs : List Upset) (s : State) : (dowelEffect b c q errs s).stock = s.stock := by
  simp only [dowelEffect]
  (repeat' split) <;> simp

@[simp] theorem blapEffect_stock (b c q : Nat) (errs : List Upset) (s : State) : (blapEffect b c q errs s).stock = s.stock := by
  simp only [blapEffect]
  (repeat' split) <;> simp

@[simp] theorem State.plumbAbort_stock (s : State) (b c q op : Nat) (x : PlbFault) : (s.plumbAbort b c q op x).stock = s.stock := by
  unfold State.plumbAbort
  split <;> simp

@[simp] theorem State.takePlumb_stock (s : State) (b c : Nat) (j : PlbJob) : (s.takePlumb b c j).stock = s.stock := by simp [State.takePlumb]

@[simp] theorem State.phaseRequests_stock (s : State) (e : PEng) (phase perIter total start len : Nat) :
    (s.phaseRequests e phase perIter total start len).stock = s.stock := by
  simp [State.phaseRequests]

@[simp] theorem State.modPlb_stock (s : State) (b c : Nat) (f : PlbJob → PlbJob) : (s.modPlb b c f).stock = s.stock := by simp [State.modPlb]

@[simp] theorem State.startProblem_stock (s : State) (es : List PEng) (batch credit : Bool) (start : Nat) :
    (s.startProblem es batch credit start).stock = s.stock := by
  simp [State.startProblem]

@[simp] theorem psolveEffect_stock (b c q : Nat) (errs : List Upset) (s : State) : (psolveEffect b c q errs s).stock = s.stock := by
  simp only [psolveEffect]
  (repeat' split) <;> simp

@[simp] theorem State.startBatch_stock (s : State) (p b c q a : Nat) (credit : Bool) (start : Nat) :
    (s.startBatch p b c q a credit start).stock = s.stock := by
  simp only [State.startBatch]
  (repeat' split) <;> simp

@[simp] theorem pbatchEffect_stock (b c q : Nat) (errs : List Upset) (s : State) : (pbatchEffect b c q errs s).stock = s.stock := by
  simp only [pbatchEffect]
  (repeat' split) <;> simp

@[simp] theorem pdeltaEffect_stock (b c q : Nat) (errs : List Upset) (s : State) : (pdeltaEffect b c q errs s).stock = s.stock := by
  simp only [pdeltaEffect]
  (repeat' split) <;> simp

@[simp] theorem vecEffect_stock (op b c q : Nat) (errs : List Upset) (s : State) : (vecEffect op b c q errs s).stock = s.stock := by
  simp only [vecEffect]
  (repeat' split) <;> simp

@[simp] theorem State.issueHead_stock (s : State) (b c q : Nat) : (s.issueHead b c q).stock = s.stock := by
  unfold State.issueHead
  split <;> simp

@[simp] theorem State.engineIssues_stock (s : State) (p b c e : Nat) : (s.engineIssues p b c e).stock = s.stock := by
  unfold State.engineIssues
  (repeat' split) <;> simp

/-! ### The streams' tiles -/

@[simp] theorem State.noteCapture_stock (s : State) (b c slot num : Nat) : (s.noteCapture b c slot num).stock = s.stock := by
  unfold State.noteCapture
  split <;> simp

@[simp] theorem State.creditReturn_stock (s : State) (b c ctx link n : Nat) : (s.creditReturn b c ctx link n).stock = s.stock := by
  simp [State.creditReturn]

@[simp] theorem State.ringCredit_stock (s : State) (b c slot num : Nat) : (s.ringCredit b c slot num).stock = s.stock := by
  simp [State.ringCredit]

@[simp] theorem State.tileIndexed_stock (s : State) (p b c slot num : Nat) (words : List Nat) :
    (s.tileIndexed p b c slot num words).stock = s.stock := by
  simp only [State.tileIndexed]
  (repeat' split) <;> simp

@[simp] theorem State.startTile_stock (s : State) (p b c slot : Nat) (t : Task) : (s.startTile p b c slot t).stock = s.stock := by
  simp [State.startTile]

@[simp] theorem streamTileStartEffect_stock (b c slot : Nat) (errs : List Upset) (s : State) :
    (streamTileStartEffect b c slot errs s).stock = s.stock := by
  simp only [streamTileStartEffect]
  (repeat' split) <;> simp

@[simp] theorem State.coreBegins_stock (s : State) (p b c : Nat) : (s.coreBegins p b c).stock = s.stock := by simp [State.coreBegins]

/-! ### The ring's legs and laps -/

@[simp] theorem State.eachLeg_stock (s : State) (p : Nat) {f : State → Leg → State} (h : ∀ s x, (f s x).stock = s.stock) :
    (State.eachLeg s p f).stock = s.stock := State.stock_foldl (fun s id => by split <;> simp [h]) _ s

@[simp] theorem State.signal_stock (s : State) (b c key tally delta ctx : Nat) : (s.signal b c key tally delta ctx).stock = s.stock := by
  simp [State.signal]

@[simp] theorem State.signalArrival_stock (s : State) (p b : Nat) (ccw : Bool) : (s.signalArrival p b ccw).stock = s.stock := by
  simp only [State.signalArrival]
  (repeat' split) <;> simp

@[simp] theorem State.boundary_stock (s : State) (p : Nat) (ends : Bool) : (s.boundary p ends).stock = s.stock := by simp [State.boundary]

@[simp] theorem State.legEnds_stock (s : State) (p : Nat) (l : Leg) : (s.legEnds p l).stock = s.stock := by simp [State.legEnds]

@[simp] theorem State.ringArrivals_stock (s : State) (p : Nat) : (s.ringArrivals p).stock = s.stock := by simp [State.ringArrivals]

@[simp] theorem State.addLegs_stock (s : State) (p : Nat) (ls : List Leg) : (s.addLegs p ls).stock = s.stock := by simp [State.addLegs]

@[simp] theorem State.startLap_stock (s : State) (p b : Nat) (l : Lap) : (s.startLap p b l).stock = s.stock := by simp [State.startLap]

@[simp] theorem lapStartEffect_stock (b : Nat) (s : State) : (lapStartEffect b s).stock = s.stock := by
  simp only [lapStartEffect]
  (repeat' split) <;> simp

/-! ### The dowels' requests -/

@[simp] theorem State.shareWrite_stock (s : State) (p off : Nat) (bs : Bytes) : (s.shareWrite p off bs).stock = s.stock := by
  simp [State.shareWrite]

@[simp] theorem State.hbmWrite_stock (s : State) (p off : Nat) (bs : Bytes) : (s.hbmWrite p off bs).stock = s.stock := by simp [State.hbmWrite]

@[simp] theorem State.writeFar_stock (s : State) (p b c : Nat) (r : Req) : (s.writeFar p b c r).stock = s.stock := by
  unfold State.writeFar
  (repeat' split) <;> simp

@[simp] theorem State.readSource_stock (s : State) (p b c due : Nat) (r : Req) : (s.readSource p b c due r).stock = s.stock := by
  simp [State.readSource]

@[simp] theorem State.issueReq_stock (s : State) (p b c cls slot : Nat) (r : Req) (used : Option AtcEnt) :
    (s.issueReq p b c cls slot r used).stock = s.stock := by
  simp [State.issueReq]

@[simp] theorem State.askTranslation_stock (s : State) (b c slot : Nat) (r : Req) (a : Nat) :
    (s.askTranslation b c slot r a).stock = s.stock := by
  simp [State.askTranslation]

@[simp] theorem State.dmaCycle_stock (s : State) (b c : Nat) : (s.dmaCycle b c).stock = s.stock := by
  simp only [State.dmaCycle]
  (repeat' split) <;> simp

@[simp] theorem State.modLeg_stock (s : State) (p id : Nat) (f : Leg → Leg) : (s.modLeg p id f).stock = s.stock := by simp [State.modLeg]

@[simp] theorem State.takeSlot_stock (s : State) (p : Nat) (l : Leg) : (s.takeSlot p l).stock = s.stock := by simp [State.takeSlot]

@[simp] theorem State.landFlits_stock (s : State) (p : Nat) (l : Leg) : (s.landFlits p l).stock = s.stock := by
  unfold State.landFlits
  split <;> simp

@[simp] theorem State.legLands_stock (s : State) (p : Nat) (l : Leg) : (s.legLands p l).stock = s.stock := by
  simp only [State.legLands]
  (repeat' split) <;> simp

@[simp] theorem State.laneSends_stock (s : State) (p place : Nat) (ccw : Bool) : (s.laneSends p place ccw).stock = s.stock := by
  simp only [State.laneSends]
  (repeat' split) <;> simp

@[simp] theorem State.ringAsk_stock (s : State) (p : Nat) : (s.ringAsk p).stock = s.stock := by simp [State.ringAsk]

@[simp] theorem State.partBegins_stock (s : State) (p : Nat) : (s.partBegins p).stock = s.stock := by simp [State.partBegins]

/-! ### Jobs, and what the stores' ports serve -/

@[simp] theorem State.eachJob_stock (s : State) (p : Nat) {f : State → Job → State} (h : ∀ s x, (f s x).stock = s.stock) :
    (State.eachJob s p f).stock = s.stock := State.stock_foldl (fun s id => by split <;> simp [h]) _ s

@[simp] theorem State.modJob_stock (s : State) (b id : Nat) (f : Job → Job) : (s.modJob b id f).stock = s.stock := by simp [State.modJob]

@[simp] theorem State.vecAsk_stock (s : State) (b : Nat) (j : Job) : (s.vecAsk b j).stock = s.stock := by simp [State.vecAsk]

@[simp] theorem State.gatherRow_stock (s : State) (b : Nat) (j : Job) (row : Bytes) : (s.gatherRow b j row).stock = s.stock := by
  simp [State.gatherRow]

@[simp] theorem State.matrixAsk_stock (s : State) (b : Nat) (j : Job) : (s.matrixAsk b j).stock = s.stock := by
  unfold State.matrixAsk
  extract_lets ask
  (repeat' split) <;> simp only [ask, State.ask_stock, State.modJob_stock, State.gatherRow_stock]

@[simp] theorem State.jobsAsk_stock (s : State) (b : Nat) : (s.jobsAsk b).stock = s.stock := by simp [State.jobsAsk]

@[simp] theorem State.askWriteBack_stock (s : State) (b : Nat) (w : Nat × Nat × Nat) : (s.askWriteBack b w).stock = s.stock := by
  simp [State.askWriteBack]

@[simp] theorem State.writeBacks_stock (s : State) (b : Nat) : (s.writeBacks b).stock = s.stock := by simp [State.writeBacks]

@[simp] theorem State.markWaits_stock (s : State) (b : Nat) (denied : List MemReq) : (s.markWaits b denied).stock = s.stock := by
  simp only [State.markWaits]
  (repeat' split) <;> simp

@[simp] theorem State.spdEvent_stock (s : State) (b n : Nat) : (s.spdEvent b n).stock = s.stock := by simp [State.spdEvent]

@[simp] theorem State.portClash_stock (s : State) (b bank row first second : Nat) (ww : Bool) :
    (s.portClash b bank row first second ww).stock = s.stock := by
  simp [State.portClash]

@[simp] theorem State.clashes_stock (s : State) (b : Nat) (served denied : List MemReq) (r : MemReq) :
    (s.clashes b served denied r).stock = s.stock := by
  simp only [State.clashes]
  (repeat' split) <;> simp

@[simp] theorem State.leaseBreach_stock (s : State) (b bank port : Nat) : (s.leaseBreach b bank port).stock = s.stock := by
  unfold State.leaseBreach
  split <;> simp

@[simp] theorem State.rackCorrected_stock (s : State) (b port bank row word : Nat) :
    (s.rackCorrected b port bank row word).stock = s.stock := by
  simp [State.rackCorrected]

@[simp] theorem State.rackBroken_stock (s : State) (b port bank row word : Nat) : (s.rackBroken b port bank row word).stock = s.stock := by
  simp [State.rackBroken]

@[simp] theorem State.parityRerun_stock (s : State) (b : Nat) : (s.parityRerun b).stock = s.stock := by
  unfold State.parityRerun
  (repeat' split) <;> simp

@[simp] theorem State.parityError_stock (s : State) (b port bank row word : Nat) : (s.parityError b port bank row word).stock = s.stock := by
  simp [State.parityError]

@[simp] theorem State.readWord_stock (s : State) (b port a : Nat) (bs : Bytes) (us : List Upset) :
    (s.readWord b port a bs us).2.stock = s.stock := by
  unfold State.readWord
  split
  · rfl
  · split
    · split
      · simp
      · split
        · simp
        · dsimp only
          split <;> simp
    · simp

@[simp] theorem State.readSpan_stock (s : State) (b port : Nat) (rack : Bool) (a n : Nat) : (s.readSpan b port rack a n).2.stock = s.stock := by
  unfold State.readSpan
  dsimp only
  split
  · rfl
  · exact State.stock_foldl_snd (fun acc o => acc.2.readWord_stock b port a acc.1 _) _ _

@[simp] theorem State.readReq_stock (s : State) (b : Nat) (r : MemReq) : (s.readReq b r).2.stock = s.stock := by
  refine State.stock_foldl_snd (fun acc x => ?_) _ ([], s)
  exact acc.2.readSpan_stock b r.port r.rack x.1 x.2

@[simp] theorem State.writeBackDone_stock (s : State) (b : Nat) (r : MemReq) : (s.writeBackDone b r).stock = s.stock := by
  unfold State.writeBackDone
  split <;> simp

@[simp] theorem State.rackStore_stock (s : State) (b a : Nat) (bs : Bytes) : (s.rackStore b a bs).stock = s.stock := by simp [State.rackStore]

@[simp] theorem State.touchStore_stock (s : State) (b : Nat) (rack : Bool) (a n : Nat) : (s.touchStore b rack a n).stock = s.stock := by
  unfold State.touchStore
  split <;> simp

@[simp] theorem State.rackWrite_stock (s : State) (b a : Nat) (bs : Bytes) : (s.rackWrite b a bs).stock = s.stock := by simp [State.rackWrite]

@[simp] theorem State.actWrite_stock (s : State) (b a : Nat) (bs : Bytes) : (s.actWrite b a bs).stock = s.stock := by simp [State.actWrite]

@[simp] theorem State.writeReq_stock (s : State) (b : Nat) (r : MemReq) : (s.writeReq b r).stock = s.stock := by
  unfold State.writeReq
  split <;> simp

@[simp] theorem State.serveBench_stock (s : State) (b : Nat) : (s.serveBench b).1.stock = s.stock := by
  unfold State.serveBench
  dsimp only
  split
  · rfl
  · refine (State.stock_foldl (fun s r => by simp) _ _).trans ((State.stock_foldl_fst (fun acc r => acc.1.readReq_stock b r) _ _).trans ?_)
    simp

@[simp] theorem State.dowelRest_stock (s : State) (b c id : Nat) : (s.dowelRest b c id).stock = s.stock := by simp [State.dowelRest]

@[simp] theorem State.reqEnd_stock (s : State) (b c : Nat) (r : Req) : (s.reqEnd b c r).stock = s.stock := by
  simp only [State.reqEnd]
  (repeat' split) <;> simp

@[simp] theorem State.sourceCame_stock (s : State) (p b c : Nat) (r : Req) : (s.sourceCame p b c r).stock = s.stock := by
  simp [State.sourceCame]

@[simp] theorem State.dmaServed_stock (s : State) (x b c id : Nat) (m : MemReq) (bs : List Bytes) :
    (s.dmaServed x b c id m bs).stock = s.stock := by
  simp only [State.dmaServed]
  (repeat' split) <;> simp

@[simp] theorem State.indexCame_stock (s : State) (b c slot num : Nat) (spans : List (Nat × Nat)) (bs : List Bytes) :
    (s.indexCame b c slot num spans bs).stock = s.stock := by
  simp only [State.indexCame]
  (repeat' split) <;> simp

@[simp] theorem State.flitServed_stock (s : State) (p id : Nat) (m : MemReq) (bs : List Bytes) : (s.flitServed p id m bs).stock = s.stock := by
  unfold State.flitServed
  split <;> simp

@[simp] theorem State.deliver_stock (s : State) (b : Nat) (x : Served) : (s.deliver b x).stock = s.stock := by
  unfold State.deliver
  split <;> simp

@[simp] theorem State.serveAll_stock (s : State) : s.serveAll.stock = s.stock := by simp [State.serveAll]

/-! ### The end of a cycle: hurdles, engines, tiles and legs -/

@[simp] theorem State.releaseRound_stock (s : State) (p h : Nat) (last : List Nat) : (s.releaseRound p h last).stock = s.stock := by
  simp [State.releaseRound]

@[simp] theorem State.moveEarly_stock (s : State) (p h : Nat) : (s.moveEarly p h).stock = s.stock := by simp [State.moveEarly]

@[simp] theorem earlyArrivalMoveEffect_stock (p h : Nat) (s : State) : (earlyArrivalMoveEffect p h s).stock = s.stock := by
  unfold earlyArrivalMoveEffect
  split <;> simp

@[simp] theorem State.saturate_stock (s : State) (b c step kind n : Nat) : (s.saturate b c step kind n).stock = s.stock := by
  simp [State.saturate]

@[simp] theorem State.vecAdvance_stock (s : State) (b : Nat) (j : Job) : (s.vecAdvance b j).stock = s.stock := by simp [State.vecAdvance]

@[simp] theorem State.loadStep_stock (s : State) (b : Nat) (j : Job) : (s.loadStep b j).stock = s.stock := by simp [State.loadStep]

@[simp] theorem State.rowOn_stock (s : State) (b : Nat) (job : Job) (j due : Nat) (row : List Int) (ag : Nat × Nat × Int) :
    (s.rowOn b job j due row ag).stock = s.stock := by
  simp [State.rowOn]

@[simp] theorem State.rowIn_stock (s : State) (b : Nat) (job : Job) (j due : Nat) (row : List Int) :
    (s.rowIn b job j due row).stock = s.stock := by
  simp [State.rowIn]

@[simp] theorem State.waveStep_stock (s : State) (b : Nat) (j : Job) : (s.waveStep b j).stock = s.stock := by simp [State.waveStep]

@[simp] theorem State.matrixAdvance_stock (s : State) (b : Nat) (j : Job) : (s.matrixAdvance b j).stock = s.stock := by
  unfold State.matrixAdvance
  (repeat' split) <;> simp

@[simp] theorem State.enterStep_stock (s : State) (b : Nat) (j : Job) : (s.enterStep b j).stock = s.stock := by
  unfold State.enterStep
  split <;> simp

@[simp] theorem State.jobsAdvance_stock (s : State) (b : Nat) : (s.jobsAdvance b).stock = s.stock := by simp [State.jobsAdvance]

@[simp] theorem State.feederPush_stock (s : State) (b c a : Nat) : (s.feederPush b c a).stock = s.stock := by
  simp only [State.feederPush]
  (repeat' split) <;> simp

@[simp] theorem State.plumbRest_stock (s : State) (b c at_ : Nat) : (s.plumbRest b c at_).stock = s.stock := by simp [State.plumbRest]

@[simp] theorem State.deltaFault_stock (s : State) (p b c : Nat) (j : PlbJob) (i : Nat) : (s.deltaFault p b c j i).stock = s.stock := by
  unfold State.deltaFault
  split <;> simp

@[simp] theorem State.plumbCount_stock (s : State) (b c step status iters : Nat) : (s.plumbCount b c step status iters).stock = s.stock := by
  simp [State.plumbCount]

@[simp] theorem State.writeSolution_stock (s : State) (o : Outcome) (start len : Nat) (e : PEng) (lo : Nat) :
    (s.writeSolution o start len e lo).stock = s.stock := by
  simp [State.writeSolution]

@[simp] theorem State.writeProblem_stock (s : State) (p : Nat) (es : List PEng) (batch : Bool) (start len : Nat) :
    (s.writeProblem p es batch start len).stock = s.stock :=
  State.stock_foldl_fst (fun a e => a.1.writeSolution_stock _ start len e a.2) es (s, 0)

@[simp] theorem State.nextPhase_stock (s : State) (p : Nat) (es : List PEng) (j : PlbJob) : (s.nextPhase p es j).stock = s.stock := by
  simp [State.nextPhase]

@[simp] theorem State.phasesEnd_stock (p b c n : Nat) (s : State) : (State.phasesEnd p b c n s).stock = s.stock := by
  induction n generalizing s with
  | zero => rfl
  | succ n ih =>
    unfold State.phasesEnd
    (repeat' split) <;> simp [ih]

@[simp] theorem solveCompleteEffect_stock (b c : Nat) (s : State) : (solveCompleteEffect b c s).stock = s.stock := by
  unfold solveCompleteEffect
  split <;> simp

@[simp] theorem State.plumbCycle_stock (s : State) (b c : Nat) : (s.plumbCycle b c).stock = s.stock := by
  unfold State.plumbCycle
  split <;> simp

@[simp] theorem State.rowsFed_stock (s : State) (b c : Nat) : (s.rowsFed b c).stock = s.stock := by simp [State.rowsFed]

@[simp] theorem deadlineMissEffect_stock (b c slot : Nat) (s : State) : (deadlineMissEffect b c slot s).stock = s.stock := by
  simp only [deadlineMissEffect]
  (repeat' split) <;> simp

@[simp] theorem tileLandEffect_stock (b c slot : Nat) (s : State) : (tileLandEffect b c slot s).stock = s.stock := by
  simp only [tileLandEffect]
  (repeat' split) <;> simp

@[simp] theorem State.dropHeld_stock (s : State) (b c : Nat) : (s.dropHeld b c).stock = s.stock := by
  unfold State.dropHeld
  split <;> simp

@[simp] theorem State.coreEnds_stock (s : State) (b c : Nat) : (s.coreEnds b c).stock = s.stock := by simp [State.coreEnds]

@[simp] theorem State.jobsEnd_stock (s : State) (b : Nat) : (s.jobsEnd b).stock = s.stock := by simp [State.jobsEnd]

@[simp] theorem State.batonLate_stock (s : State) (p : Nat) (l : Leg) : (s.batonLate p l).stock = s.stock := by simp [State.batonLate]

@[simp] theorem State.ringDue_stock (s : State) (p : Nat) : (s.ringDue p).stock = s.stock := by simp [State.ringDue]

@[simp] theorem State.forwardLeg_stock (s : State) (p : Nat) (l : Leg) : (s.forwardLeg p l).stock = s.stock := by simp [State.forwardLeg]

@[simp] theorem State.ringForward_stock (s : State) (p : Nat) : (s.ringForward p).stock = s.stock := by simp [State.ringForward]

@[simp] theorem State.hurdleFault_stock (s : State) (p bit h slot c q : Nat) : (s.hurdleFault p bit h slot c q).stock = s.stock := by
  simp [State.hurdleFault]

@[simp] theorem State.setArrival_stock (s : State) (b c q h : Nat) (held : Bool) (freeAt : Option Nat) :
    (s.setArrival b c q h held freeAt).stock = s.stock := by
  simp [State.setArrival]

@[simp] theorem State.poison_stock (s : State) (p h b c q : Nat) : (s.poison p h b c q).stock = s.stock := by simp [State.poison]

@[simp] theorem State.arrive_stock (s : State) (p b c q h : Nat) : (s.arrive p b c q h).stock = s.stock := by simp [State.arrive]

@[simp] theorem State.arriveNow_stock (s : State) (b c q : Nat) : (s.arriveNow b c q).stock = s.stock := by
  unfold State.arriveNow
  split <;> simp

@[simp] theorem hurdleArrivalEffect_stock (b c q : Nat) (s : State) : (hurdleArrivalEffect b c q s).stock = s.stock := by
  unfold hurdleArrivalEffect
  split <;> simp

@[simp] theorem completeEffect_stock (b c q : Nat) (s : State) : (completeEffect b c q s).stock = s.stock := by
  simp only [completeEffect]
  (repeat' split) <;> simp

@[simp] theorem State.queuesEnd_stock (s : State) (b c : Nat) : (s.queuesEnd b c).stock = s.stock := by simp [State.queuesEnd]

@[simp] theorem State.partEnds_stock (s : State) (p : Nat) : (s.partEnds p).stock = s.stock := by simp [State.partEnds]

/-! ### The ledger -/

@[simp] theorem State.stageRaw_stock (s : State) (p ty : Nat) (body : Bytes) : (s.stageRaw p ty body).stock = s.stock := by
  simp [State.stageRaw]

@[simp] theorem State.stageSignature_stock (s : State) (p : Nat) : (s.stageSignature p).stock = s.stock := by simp [State.stageSignature]

@[simp] theorem signatureTimerEffect_stock (p : Nat) (s : State) : (signatureTimerEffect p s).stock = s.stock := by simp [signatureTimerEffect]

@[simp] theorem keepAliveEffect_stock (i : Nat) (s : State) : (keepAliveEffect i s).stock = s.stock := by simp [keepAliveEffect]

@[simp] theorem State.keepAlives_stock (s : State) : s.keepAlives.stock = s.stock := by simp [State.keepAlives]

theorem State.newStripe_stock {s : State} {sectors : List Sector} {aux : Option Nat} {reserve : Bool} {t : State × Stripe}
    (h : s.newStripe sectors aux reserve = some t) : t.1.stock = s.stock := by
  unfold State.newStripe at h
  dsimp only at h
  split at h <;> obtain ⟨r, -, rfl⟩ := Option.map_eq_some_iff.1 h <;> rfl

@[simp] theorem State.relocate_stock (s : State) (n : Nat) (ys : List Sector) : (s.relocate n ys).stock = s.stock := by
  simp only [State.relocate]
  split
  · simp
  · split
    · simp
    next h => simp [State.newStripe_stock h]

@[simp] theorem State.stageStripe_stock (s : State) : s.stageStripe.stock = s.stock := by
  simp only [State.stageStripe]
  split
  · rfl
  · split
    · rfl
    next h => simp [State.newStripe_stock h]

@[simp] theorem State.mediaStart_stock (s : State) : s.mediaStart.stock = s.stock := by
  simp only [State.mediaStart]
  (repeat' split) <;> simp

@[simp] theorem stripeStartEffect_stock (s : State) : (stripeStartEffect s).stock = s.stock := by simp [stripeStartEffect]

@[simp] theorem anchorTimerEffect_stock (s : State) : (anchorTimerEffect s).stock = s.stock := by
  unfold anchorTimerEffect
  split <;> simp

@[simp] theorem State.ledgerActs_stock (s : State) : s.ledgerActs.stock = s.stock := by simp [State.ledgerActs]

/-! ### The end of a step: checkpoints, commits, clamps, reruns -/

@[simp] theorem State.buddyCopy_stock (s : State) (p : Nat) : (s.buddyCopy p).stock = s.stock := by simp [State.buddyCopy]

@[simp] theorem State.loadEnd_stock (s : State) (p : Nat) : (s.loadEnd p).stock = s.stock := by
  unfold State.loadEnd
  split <;> simp

@[simp] theorem State.endAwait_stock (s : State) (p : Nat) : (s.endAwait p).stock = s.stock := by
  unfold State.endAwait
  split <;> simp

@[simp] theorem buddyPauseEndEffect_stock (p : Nat) (s : State) : (buddyPauseEndEffect p s).stock = s.stock := by
  unfold buddyPauseEndEffect
  (repeat' split) <;> simp

@[simp] theorem State.freeOutputs_stock (s : State) (p : Nat) : (s.freeOutputs p).2.stock = s.stock := by
  unfold State.freeOutputs
  split
  · rfl
  · split
    · rfl
    · refine State.stock_foldl_snd (fun acc r => ?_) _ ([], s)
      rfl

@[simp] theorem State.recordStep_stock (s : State) (p k : Nat) : (s.recordStep p k).stock = s.stock := by simp [State.recordStep]

@[simp] theorem State.splitRecord_stock (s : State) (p : Nat) (x : Layer) : (s.splitRecord p x).stock = s.stock := by
  unfold State.splitRecord
  split <;> simp

@[simp] theorem State.dropEntry_stock (s : State) : s.dropEntry.stock = s.stock := by simp [State.dropEntry]

@[simp] theorem State.endTask_stock (s : State) (p : Nat) (t : Task) (outcome status detail : Nat) (r1 : Nat) (postIt : Bool) :
    (s.endTask p t outcome status detail r1 postIt).stock = s.stock := by
  simp [State.endTask]

@[simp] theorem State.modArc_stock (s : State) (p : Nat) (f : Bench → Bench) : (s.modArc p f).stock = s.stock := by simp [State.modArc]

@[simp] theorem State.quietRun_stock (s : State) (p : Nat) : (s.quietRun p).stock = s.stock := by simp [State.quietRun]

@[simp] theorem State.closeTask_stock (s : State) (p outcome status detail r1 : Nat) (postIt : Bool) (final : PState) :
    (s.closeTask p outcome status detail r1 postIt final).stock = s.stock := by
  unfold State.closeTask
  split <;> simp

@[simp] theorem State.clampStep_stock (s : State) (p k : Nat) (t : Task) : (s.clampStep p k t).stock = s.stock := by simp [State.clampStep]

@[simp] theorem State.commitNow_stock (s : State) (p : Nat) (t : Task) (last : Bool) (hostOut : List Bytes) :
    (s.commitNow p t last hostOut).stock = s.stock := by
  simp [State.commitNow]

@[simp] theorem stepCommitEffect_stock (p : Nat) (hostOut : List Bytes) (s : State) : (stepCommitEffect p hostOut s).stock = s.stock := by
  unfold stepCommitEffect
  split <;> simp

@[simp] theorem taskAbortCompleteEffect_stock (p : Nat) (s : State) : (taskAbortCompleteEffect p s).stock = s.stock := by
  unfold taskAbortCompleteEffect
  split <;> simp

@[simp] theorem State.undoLaps_stock (s : State) (p : Nat) (snaps : List CoreSnap) : (s.undoLaps p snaps).stock = s.stock := by
  simp [State.undoLaps]

@[simp] theorem State.backToStep_stock (s : State) (p : Nat) (t : Task) (resumeAt : Nat) : (s.backToStep p t resumeAt).stock = s.stock := by
  simp [State.backToStep]

@[simp] theorem State.modArcCores_stock (s : State) (p : Nat) (f : Core → Core) : (s.modArcCores p f).stock = s.stock := by
  simp [State.modArcCores]

@[simp] theorem State.shiftRun_stock (s : State) (p d : Nat) : (s.shiftRun p d).stock = s.stock := by simp [State.shiftRun]

@[simp] theorem State.resumeAfterLoad_stock (s : State) (p : Nat) (t : Task) (kind : Nat) : (s.resumeAfterLoad p t kind).stock = s.stock := by
  simp only [State.resumeAfterLoad]
  (repeat' split) <;> simp

@[simp] theorem buddyLoadDoneEffect_stock (p : Nat) (s : State) : (buddyLoadDoneEffect p s).stock = s.stock := by
  simp only [buddyLoadDoneEffect]
  (repeat' split) <;> simp

@[simp] theorem lateTileResumeEffect_stock (p : Nat) (s : State) : (lateTileResumeEffect p s).stock = s.stock := by
  unfold lateTileResumeEffect
  split <;> simp

@[simp] theorem stepRerunEffect_stock (p : Nat) (s : State) : (stepRerunEffect p s).stock = s.stock := by
  unfold stepRerunEffect
  split <;> simp

@[simp] theorem clampDoneEffect_stock (p : Nat) (s : State) : (clampDoneEffect p s).stock = s.stock := by
  simp only [clampDoneEffect]
  (repeat' split) <;> simp

@[simp] theorem State.stepEnds_stock (s : State) (p : Nat) : (s.stepEnds p).stock = s.stock := by simp [State.stepEnds]

@[simp] theorem State.coreCounts_stock (s : State) (b c : Nat) : (s.coreCounts b c).stock = s.stock := by simp [State.coreCounts]

/-! ### Admission, settings, tests, doorbells -/

@[simp] theorem State.takePkt_stock (s : State) (f i : Nat) : (s.takePkt f i).stock = s.stock := (rfl)

@[simp] theorem State.flushReserved_stock (f n : Nat) (s : State) : (s.flushReserved f n).stock = s.stock := by
  induction n generalizing s with
  | zero => rfl
  | succ n ih =>
    unfold State.flushReserved
    split
    · split
      · rfl
      · simp [ih]
    · rfl

/-- The admission of a packet keeps the stock where its opcode does (R666). -/
@[simp] theorem State.admitPkt_stock (s : State) (f op : Nat) {run : PktId → Nat → Pkt → State → State}
    (h : ∀ id p x t, (run id p x t).stock = t.stock) : (s.admitPkt f op run).stock = s.stock := by
  unfold State.admitPkt
  (repeat' split) <;> simp [h]

@[simp] theorem State.setGlue_stock (s : State) (n v : Nat) : (s.setGlue n v).stock = s.stock := by simp [State.setGlue]

/-- A start-up gives no slot back (R722). -/
@[simp] theorem Glue.restart_used (g : Glue) (por : Bool) : (g.restart por).used = g.used := rfl

@[simp] theorem State.nameTest_stock (s : State) (b : Nat) : (s.nameTest b).1.stock = s.stock := by
  unfold State.nameTest
  (repeat' split) <;> simp

@[simp] theorem State.gateDoorbells_stock (s : State) : s.gateDoorbells.stock = s.stock :=
  State.stock_foldl State.admitDoorbell_stock _ _

/-! ### Flags and messages -/

@[simp] theorem State.beatEvent_stock (s : State) (n : Nat) : (s.beatEvent n).stock = s.stock := by simp [State.beatEvent]

@[simp] theorem State.mgmtEvent_stock (s : State) (n : Nat) : (s.mgmtEvent n).stock = s.stock := by simp [State.mgmtEvent]

@[simp] theorem State.pfMessage_stock (s : State) : (s.pfMessage).stock = s.stock := by simp [State.pfMessage]

/-! ### The ledger's stage -/

@[simp] theorem State.stageOpen_stock (s : State) (p : Nat) : (s.stageOpen p).stock = s.stock := by simp [State.stageOpen]

@[simp] theorem State.stageClose_stock (s : State) (p : Nat) : (s.stageClose p).stock = s.stock := by simp [State.stageClose]

/-! ### Commands of the queues -/

@[simp] theorem queueDoorbellEffect_stock (fn b c q : Nat) (word : W32) (s : State) :
    (queueDoorbellEffect fn b c q word s).stock = s.stock := by simp [queueDoorbellEffect]

/-! ### Saturations -/

@[simp] theorem satClearEffect_stock (fn b c : Nat) (s : State) : (satClearEffect fn b c s).stock = s.stock := by simp [satClearEffect]

/-! ### Matrix arrays -/

@[simp] theorem feederPushEffect_stock (b c a : Nat) (s : State) : (feederPushEffect b c a s).stock = s.stock := by simp [feederPushEffect]

@[simp] theorem arrayGateEffect_stock (b c a : Nat) (s : State) : (arrayGateEffect b c a s).stock = s.stock := by simp [arrayGateEffect]

/-! ### Streams -/

@[simp] theorem State.unresolvable_stock (s : State) (b c q slot addr : Nat) (pasid : Option Nat) :
    (s.unresolvable b c q slot addr pasid).stock = s.stock := by simp [State.unresolvable]

@[simp] theorem State.readReturn_stock (s : State) (b c id : Nat) (x : Xfer) : (s.readReturn b c id x).stock = s.stock := by
  unfold State.readReturn
  (repeat' split) <;> simp

@[simp] theorem readDataReturnEffect_stock (b c id : Nat) (x : Xfer) (errs : List Upset) (s : State) :
    (readDataReturnEffect b c id x errs s).stock = s.stock := by simp [readDataReturnEffect]

@[simp] theorem completionTimeoutEffect_stock (b c id : Nat) (s : State) : (completionTimeoutEffect b c id s).stock = s.stock := by
  unfold completionTimeoutEffect
  split <;> simp

@[simp] theorem writeCompleteEffect_stock (b c id : Nat) (s : State) : (writeCompleteEffect b c id s).stock = s.stock := by
  unfold writeCompleteEffect
  split <;> simp

@[simp] theorem State.finishWrite_stock (s : State) (p b c : Nat) (r : Req) : (s.finishWrite p b c r).stock = s.stock := by
  simp only [State.finishWrite]
  (repeat' split) <;> simp

@[simp] theorem State.finishWrites_stock (s : State) (p : Nat) : (s.finishWrites p).stock = s.stock := by simp [State.finishWrites]

@[simp] theorem State.transFails_stock (s : State) (b c : Nat) (t : Trans) : (s.transFails b c t).stock = s.stock := by
  simp only [State.transFails]
  (repeat' split) <;> simp

@[simp] theorem State.pageRequest_stock (s : State) (p b c : Nat) (t : Trans) :
    (s.pageRequest p b c t).stock = s.stock := by simp [State.pageRequest]

@[simp] theorem atsCompletionEffect_stock (b c pasid iova : Nat) (r : AtsResult) (s : State) :
    (atsCompletionEffect b c pasid iova r s).stock = s.stock := by
  unfold atsCompletionEffect
  (repeat' split) <;> simp

@[simp] theorem priResponseEffect_stock (b c pasid iova : Nat) (r : PriResult) (s : State) :
    (priResponseEffect b c pasid iova r s).stock = s.stock := by
  unfold priResponseEffect
  (repeat' split) <;> simp

@[simp] theorem translationTimeoutEffect_stock (b c pasid iova : Nat) (s : State) :
    (translationTimeoutEffect b c pasid iova s).stock = s.stock := by
  unfold translationTimeoutEffect
  split <;> simp

@[simp] theorem atsInvalidateEffect_stock (f pasid base len : Nat) (s : State) :
    (atsInvalidateEffect f pasid base len s).stock = s.stock := by simp [atsInvalidateEffect]

@[simp] theorem atsInvalidateCompleteEffect_stock (f : Nat) (s : State) : (atsInvalidateCompleteEffect f s).stock = s.stock := by
  unfold atsInvalidateCompleteEffect
  split <;> simp

/-! ### The ring -/

@[simp] theorem batonArrivalEffect_stock (p : Nat) (errs : List Upset) (s : State) : (batonArrivalEffect p errs s).stock = s.stock := by
  simp only [batonArrivalEffect]
  (repeat' split) <;> simp

@[simp] theorem linkRetryEffect_stock (b dir : Nat) (again : Bool) (s : State) : (linkRetryEffect b dir again s).stock = s.stock := by
  unfold linkRetryEffect
  split <;> simp

@[simp] theorem rackWritebackEffect_stock (b bank : Nat) (s : State) : (rackWritebackEffect b bank s).stock = s.stock := by
  unfold rackWritebackEffect
  split <;> simp

/-! ### Stealing -/

@[simp] theorem State.issueAway_stock (s : State) (p ob oc oq : Nat) (cmd : Cmd) (on : Until) :
    (s.issueAway p ob oc oq cmd on).stock = s.stock := by
  unfold State.issueAway
  split <;> simp

@[simp] theorem State.countSteal_stock (s : State) (b c e ob oc : Nat) :
    (s.countSteal b c e ob oc).stock = s.stock := by simp [State.countSteal]

@[simp] theorem State.stealRail_stock (s : State) (p : Nat) (t : Task) (b c ob oc oq : Nat) (cmd : Cmd) :
    (s.stealRail p t b c ob oc oq cmd).stock = s.stock := by simp [State.stealRail]

@[simp] theorem State.stealMatrix_stock (s : State) (p : Nat) (t : Task) (b c ob oc oq : Nat) (l : Cmd) :
    (s.stealMatrix p t b c ob oc oq l).stock = s.stock := by
  simp only [State.stealMatrix]
  (repeat' split) <;> simp

@[simp] theorem commandStealEffect_stock (b c ob oc oq : Nat) (errs : List Upset) (s : State) :
    (commandStealEffect b c ob oc oq errs s).stock = s.stock := by
  simp only [commandStealEffect]
  (repeat' split) <;> simp

/-! ### Packets -/

@[simp] theorem aiviaNopEffect_stock (f : Nat) (s : State) : (aiviaNopEffect f s).stock = s.stock := by simp [aiviaNopEffect]

/-! ### Runs -/

@[simp] theorem State.runAdmitted_stock (hostIn : List Bytes) (id : PktId) (p : Nat) (x : Pkt) (s : State) :
    (State.runAdmitted hostIn id p x s).stock = s.stock := by
  unfold State.runAdmitted
  split <;> simp

@[simp] theorem runEffect_stock (f : Nat) (hostIn : List Bytes) (s : State) : (runEffect f hostIn s).stock = s.stock := by simp [runEffect]

/-! ### Programs -/

@[simp] theorem State.loadAdmitted_stock (host : Xfer) (id : PktId) (p : Nat) (x : Pkt) (s : State) :
    (State.loadAdmitted host id p x s).stock = s.stock := by
  unfold State.loadAdmitted
  (repeat' split) <;> simp

@[simp] theorem programLoadEffect_stock (f : Nat) (host : Xfer) (s : State) :
    (programLoadEffect f host s).stock = s.stock := by simp [programLoadEffect]

@[simp] theorem State.writeStores_stock (s : State) (img : Bytes) (k b : Nat) :
    (s.writeStores img k b).stock = s.stock := by simp [State.writeStores]

@[simp] theorem State.writeShare_stock (s : State) (p : Nat) (img : Bytes) :
    (s.writeShare p img).stock = s.stock := by simp [State.writeShare]

@[simp] theorem State.setUpSlots_stock (s : State) (p : Nat) (img : Bytes) :
    (s.setUpSlots p img).stock = s.stock := by simp [State.setUpSlots]

@[simp] theorem State.copyAll_stock (s : State) (p : Nat) : (s.copyAll p).stock = s.stock := by simp [State.copyAll]

@[simp] theorem programLoadDoneEffect_stock (p : Nat) (s : State) : (programLoadDoneEffect p s).stock = s.stock := by
  unfold programLoadDoneEffect
  split <;> simp

@[simp] theorem State.buddyAdmitted_stock (id : PktId) (p : Nat) (x : Pkt) (s : State) :
    (State.buddyAdmitted id p x s).stock = s.stock := by simp [State.buddyAdmitted]

@[simp] theorem buddySetEffect_stock (f : Nat) (s : State) : (buddySetEffect f s).stock = s.stock := by simp [buddySetEffect]

@[simp] theorem State.balanceAdmitted_stock (id : PktId) (p : Nat) (x : Pkt) (s : State) :
    (State.balanceAdmitted id p x s).stock = s.stock := by simp [State.balanceAdmitted]

@[simp] theorem partBalanceEffect_stock (f : Nat) (s : State) : (partBalanceEffect f s).stock = s.stock := by simp [partBalanceEffect]

@[simp] theorem State.cancelLaunch_stock (s : State) (p : Nat) : (s.cancelLaunch p).stock = s.stock := by
  unfold State.cancelLaunch
  split <;> simp

@[simp] theorem State.preemptAdmitted_stock (id : PktId) (p : Nat) (x : Pkt) (s : State) :
    (State.preemptAdmitted id p x s).stock = s.stock := by simp [State.preemptAdmitted]

@[simp] theorem partPreemptEffect_stock (f : Nat) (s : State) : (partPreemptEffect f s).stock = s.stock := by simp [partPreemptEffect]

/-! ### Partitions -/

@[simp] theorem State.createAdmitted_stock (id : PktId) (p : Nat) (x : Pkt) (s : State) :
    (State.createAdmitted id p x s).stock = s.stock := by
  unfold State.createAdmitted
  split <;> simp

@[simp] theorem partCreateEffect_stock (f : Nat) (s : State) : (partCreateEffect f s).stock = s.stock := by simp [partCreateEffect]

@[simp] theorem State.resizeAdmitted_stock (id : PktId) (p : Nat) (x : Pkt) (s : State) :
    (State.resizeAdmitted id p x s).stock = s.stock := by simp [State.resizeAdmitted]

@[simp] theorem partResizeEffect_stock (f : Nat) (s : State) : (partResizeEffect f s).stock = s.stock := by simp [partResizeEffect]

@[simp] theorem State.dropPackets_stock (s : State) (p : Nat) : (s.dropPackets p).stock = s.stock := by simp [State.dropPackets]

@[simp] theorem State.destroyAdmitted_stock (id : PktId) (p : Nat) (_x : Pkt) (s : State) :
    (State.destroyAdmitted id p _x s).stock = s.stock := by simp [State.destroyAdmitted]

@[simp] theorem partDestroyEffect_stock (f : Nat) (s : State) : (partDestroyEffect f s).stock = s.stock := by simp [partDestroyEffect]

@[simp] theorem partitionZeroedEffect_stock (p : Nat) (s : State) : (partitionZeroedEffect p s).stock = s.stock := by
  unfold partitionZeroedEffect
  split <;> simp

@[simp] theorem ringRejoinEffect_stock (f : Nat) (s : State) : (ringRejoinEffect f s).stock = s.stock := by simp [ringRejoinEffect]

/-! ### The ledger -/

@[simp] theorem State.loseStripe_stock (s : State) (n : Nat) : (s.loseStripe n).stock = s.stock := by simp [State.loseStripe]

@[simp] theorem nandProgramDoneEffect_stock (m : Nat) (pass : Bool) (s : State) : (nandProgramDoneEffect m pass s).stock = s.stock := by
  unfold nandProgramDoneEffect
  split <;> simp

@[simp] theorem State.eraseFailed_stock (s : State) (why : EraseWhy) (m : Nat) : (s.eraseFailed why m).stock = s.stock := by
  unfold State.eraseFailed
  split <;> simp

@[simp] theorem nandEraseDoneEffect_stock (m : Nat) (pass : Bool) (s : State) : (nandEraseDoneEffect m pass s).stock = s.stock := by
  unfold nandEraseDoneEffect
  split <;> simp

@[simp] theorem memberFailedEffect_stock (m : Nat) (s : State) : (memberFailedEffect m s).stock = s.stock := by simp [memberFailedEffect]

@[simp] theorem State.noteRead_stock (s : State) (x : Stripe) (pages : List PageRead) :
    (s.noteRead x pages).stock = s.stock := by simp [State.noteRead]

@[simp] theorem scrubReadEffect_stock (pages : List PageRead) (s : State) : (scrubReadEffect pages s).stock = s.stock := by
  simp only [scrubReadEffect]
  (repeat' split) <;> simp

@[simp] theorem State.rebuildNext_stock (s : State) (m next tail : Nat) :
    (s.rebuildNext m next tail).stock = s.stock := by simp [State.rebuildNext]

@[simp] theorem rebuildStripeEffect_stock (pages : List PageRead) (s : State) : (rebuildStripeEffect pages s).stock = s.stock := by
  unfold rebuildStripeEffect
  (repeat' split) <;> simp

@[simp] theorem State.formatAdmitted_stock (media : MediaEnv) (id : PktId) (_p : Nat) (_x : Pkt) (s : State) :
    (State.formatAdmitted media id _p _x s).stock = s.stock := by simp [State.formatAdmitted]

@[simp] theorem ldgFormatEffect_stock (f : Nat) (media : MediaEnv) (s : State) :
    (ldgFormatEffect f media s).stock = s.stock := by simp [ldgFormatEffect]

@[simp] theorem State.replaceAdmitted_stock (media : MediaEnv) (id : PktId) (_p : Nat) (x : Pkt) (s : State) :
    (State.replaceAdmitted media id _p x s).stock = s.stock := by simp [State.replaceAdmitted]

@[simp] theorem ldgMemberReplaceEffect_stock (f : Nat) (media : MediaEnv) (s : State) :
    (ldgMemberReplaceEffect f media s).stock = s.stock := by simp [ldgMemberReplaceEffect]

@[simp] theorem ldgUnsealEffect_stock (f : Nat) (s : State) : (ldgUnsealEffect f s).stock = s.stock := by simp [ldgUnsealEffect]

@[simp] theorem ldgReleaseEffect_stock (f : Nat) (s : State) : (ldgReleaseEffect f s).stock = s.stock := by simp [ldgReleaseEffect]

@[simp] theorem State.exportAdmitted_stock (pages : List PageRead) (f : Nat) (id : PktId) (p : Nat) (x : Pkt) (s : State) :
    (State.exportAdmitted pages f id p x s).stock = s.stock := by simp [State.exportAdmitted]

@[simp] theorem ldgExportEffect_stock (f : Nat) (pages : List PageRead) (s : State) :
    (ldgExportEffect f pages s).stock = s.stock := by simp [ldgExportEffect]

/-! ### Checkpoints and store sessions -/

@[simp] theorem State.armAdmitted_stock (found : Container) (id : PktId) (p : Nat) (x : Pkt) (s : State) :
    (State.armAdmitted found id p x s).stock = s.stock := by
  unfold State.armAdmitted
  split <;> simp

@[simp] theorem ckpArmEffect_stock (f : Nat) (found : Container) (s : State) :
    (ckpArmEffect f found s).stock = s.stock := by simp [ckpArmEffect]

@[simp] theorem ckpDisarmEffect_stock (f : Nat) (s : State) : (ckpDisarmEffect f s).stock = s.stock := by simp [ckpDisarmEffect]

@[simp] theorem State.setScopePage_stock (s : State) (p q : Nat) (m : Mem) :
    (s.setScopePage p q m).stock = s.stock := by simp [State.setScopePage]

@[simp] theorem State.restoreAdmitted_stock (found : Container) (id : PktId) (p : Nat) (_x : Pkt) (s : State) :
    (State.restoreAdmitted found id p _x s).stock = s.stock := by
  unfold State.restoreAdmitted
  split <;> simp

@[simp] theorem ckpRestoreEffect_stock (f : Nat) (found : Container) (s : State) :
    (ckpRestoreEffect f found s).stock = s.stock := by simp [ckpRestoreEffect]

@[simp] theorem State.tearDrain_stock (s : State) (p : Nat) : (s.tearDrain p).stock = s.stock := by
  simp only [State.tearDrain]
  (repeat' split) <;> simp

@[simp] theorem nvmeCompletionEffect_stock (i status : Nat) (s : State) :
    (nvmeCompletionEffect i status s).stock = s.stock := by simp [nvmeCompletionEffect]

@[simp] theorem storePortSetEffect_stock (f : Nat) (s : State) : (storePortSetEffect f s).stock = s.stock := by simp [storePortSetEffect]

@[simp] theorem storeConnectEffect_stock (f : Nat) (s : State) : (storeConnectEffect f s).stock = s.stock := by simp [storeConnectEffect]

@[simp] theorem storeSessionConnectedEffect_stock (i : Nat) (r : Connect) (s : State) :
    (storeSessionConnectedEffect i r s).stock = s.stock := by
  unfold storeSessionConnectedEffect
  (repeat' split) <;> simp

@[simp] theorem storeDisconnectEffect_stock (f : Nat) (s : State) :
    (storeDisconnectEffect f s).stock = s.stock := by simp [storeDisconnectEffect]

@[simp] theorem sessionCloseEffect_stock (i : Nat) (why : CloseWhy) (s : State) :
    (sessionCloseEffect i why s).stock = s.stock := by simp [sessionCloseEffect]

@[simp] theorem keepAliveTimeoutEffect_stock (i : Nat) (s : State) :
    (keepAliveTimeoutEffect i s).stock = s.stock := by simp [keepAliveTimeoutEffect]

/-! ### Windows, completions, BAR2 -/

@[simp] theorem aiviaDoorbellEffect_stock (fn f : Nat) (word : W32) (s : State) :
    (aiviaDoorbellEffect fn f word s).stock = s.stock := by simp [aiviaDoorbellEffect]

@[simp] theorem packetCaptureEffect_stock (f : Nat) (cap : Capture) (s : State) : (packetCaptureEffect f cap s).stock = s.stock := by
  unfold packetCaptureEffect
  (repeat' split) <;> simp

@[simp] theorem aiviaEnableEffect_stock (fn f : Nat) (s : State) : (aiviaEnableEffect fn f s).stock = s.stock := by simp [aiviaEnableEffect]

@[simp] theorem aiviaDisableEffect_stock (fn f : Nat) (s : State) :
    (aiviaDisableEffect fn f s).stock = s.stock := by simp [aiviaDisableEffect]

@[simp] theorem completionPostEffect_stock (f : Nat) (s : State) : (completionPostEffect f s).stock = s.stock := by
  simp only [completionPostEffect]
  (repeat' split) <;> simp

@[simp] theorem completionQueueFreeEffect_stock (fn f : Nat) (word : W32) (s : State) :
    (completionQueueFreeEffect fn f word s).stock = s.stock := by simp [completionQueueFreeEffect]

@[simp] theorem bar2AccessEffect_stock (fn off : Nat) (acc : Bar2) (s : State) :
    (bar2AccessEffect fn off acc s).stock = s.stock := by simp [bar2AccessEffect]

@[simp] theorem identCertEffect_stock (f : Nat) (s : State) : (identCertEffect f s).stock = s.stock := by simp [identCertEffect]

/-! ### Self-test, calibration, firmware, the two views -/

@[simp] theorem State.selfTestAdmitted_stock (id : PktId) (_p : Nat) (x : Pkt) (s : State) :
    (State.selfTestAdmitted id _p x s).stock = s.stock := by
  unfold State.selfTestAdmitted
  extract_lets mask
  split
  · simp
  · rw [State.endTests_stock, State.modGlb_stock]
    refine State.stock_foldl_fst ?_ _ (s, false)
    exact fun a b => a.1.nameTest_stock b

@[simp] theorem selfTestEffect_stock (f : Nat) (s : State) : (selfTestEffect f s).stock = s.stock := by simp [selfTestEffect]

@[simp] theorem selfTestDoneEffect_stock (b : Nat) (pass : Bool) (s : State) : (selfTestDoneEffect b pass s).stock = s.stock := by
  unfold selfTestDoneEffect
  split <;> simp

@[simp] theorem State.beginCal_stock (s : State) (j : CalJob) : (s.beginCal j).stock = s.stock := by simp [State.beginCal]

@[simp] theorem State.calibrateAdmitted_stock (id : PktId) (_p : Nat) (x : Pkt) (s : State) :
    (State.calibrateAdmitted id _p x s).stock = s.stock := by simp [State.calibrateAdmitted]

@[simp] theorem calibrateEffect_stock (f : Nat) (s : State) : (calibrateEffect f s).stock = s.stock := by simp [calibrateEffect]

@[simp] theorem calibrateStartEffect_stock (s : State) : (calibrateStartEffect s).stock = s.stock := by
  unfold calibrateStartEffect
  split <;> simp

@[simp] theorem calibrateDoneEffect_stock (s : State) : (calibrateDoneEffect s).stock = s.stock := by
  unfold calibrateDoneEffect
  (repeat' split) <;> simp

@[simp] theorem State.bootFirmware_stock (s : State) : (s.bootFirmware).stock = s.stock := by
  unfold State.bootFirmware
  split <;> simp

@[simp] theorem State.fwStageAdmitted_stock (image : Xfer) (id : PktId) (_p : Nat) (x : Pkt) (s : State) :
    (State.fwStageAdmitted image id _p x s).stock = s.stock := by
  unfold State.fwStageAdmitted
  split <;> simp

@[simp] theorem fwStageEffect_stock (f : Nat) (image : Xfer) (s : State) :
    (fwStageEffect f image s).stock = s.stock := by simp [fwStageEffect]

@[simp] theorem supplyMonitorTripEffect_stock (b : Nat) (s : State) :
    (supplyMonitorTripEffect b s).stock = s.stock := by simp [supplyMonitorTripEffect]

@[simp] theorem State.reconcileAdmitted_stock (mgmt data : Nat) (id : PktId) (_p : Nat) (x : Pkt) (s : State) :
    (State.reconcileAdmitted mgmt data id _p x s).stock = s.stock := by simp [State.reconcileAdmitted]

@[simp] theorem reconcileEffect_stock (f mgmt data : Nat) (s : State) :
    (reconcileEffect f mgmt data s).stock = s.stock := by simp [reconcileEffect]

/-! ### Pins, temperatures, SMBus, interrupt outputs -/

@[simp] theorem gpioOutWriteEffect_stock (fn : Nat) (value : W64) (s : State) :
    (gpioOutWriteEffect fn value s).stock = s.stock := by simp [gpioOutWriteEffect]

@[simp] theorem gpioFuncEnWriteEffect_stock (fn group : Nat) (value : W32) (s : State) :
    (gpioFuncEnWriteEffect fn group value s).stock = s.stock := by simp [gpioFuncEnWriteEffect]

@[simp] theorem gpioDebounceWriteEffect_stock (fn pin : Nat) (value : W32) (s : State) :
    (gpioDebounceWriteEffect fn pin value s).stock = s.stock := by simp [gpioDebounceWriteEffect]

@[simp] theorem gpioIntModeWriteEffect_stock (fn half : Nat) (value : W32) (s : State) :
    (gpioIntModeWriteEffect fn half value s).stock = s.stock := by simp [gpioIntModeWriteEffect]

@[simp] theorem tempSampleEffect_stock (bench hbm : List (BitVec 16)) (s : State) :
    (tempSampleEffect bench hbm s).stock = s.stock := by simp [tempSampleEffect]

@[simp] theorem State.smbusRead_stock (s : State) (pecError : Bool) (data : Bytes) :
    (s.smbusRead pecError data).stock = s.stock := by simp [State.smbusRead]

@[simp] theorem smbusIdentEffect_stock (pec : Bool) (s : State) : (smbusIdentEffect pec s).stock = s.stock := by simp [smbusIdentEffect]

@[simp] theorem smbusFwStatusEffect_stock (pec : Bool) (s : State) :
    (smbusFwStatusEffect pec s).stock = s.stock := by simp [smbusFwStatusEffect]

@[simp] theorem smbusAssetTagEffect_stock (pec : Bool) (s : State) :
    (smbusAssetTagEffect pec s).stock = s.stock := by simp [smbusAssetTagEffect]

@[simp] theorem smbusStatusEffect_stock (pec : Bool) (s : State) : (smbusStatusEffect pec s).stock = s.stock := by simp [smbusStatusEffect]

@[simp] theorem smbusTempMaxEffect_stock (pec : Bool) (s : State) :
    (smbusTempMaxEffect pec s).stock = s.stock := by simp [smbusTempMaxEffect]

@[simp] theorem State.smbusUnlisted_stock (s : State) : (s.smbusUnlisted).stock = s.stock := by simp [State.smbusUnlisted]

@[simp] theorem smbusBenchTempEffect_stock (k : Nat) (pec : Bool) (s : State) :
    (smbusBenchTempEffect k pec s).stock = s.stock := by simp [smbusBenchTempEffect]

@[simp] theorem smbusHbmTempEffect_stock (k : Nat) (pec : Bool) (s : State) :
    (smbusHbmTempEffect k pec s).stock = s.stock := by simp [smbusHbmTempEffect]

@[simp] theorem irqEoiEffect_stock (fn : Nat) (word : W32) (s : State) : (irqEoiEffect fn word s).stock = s.stock := by simp [irqEoiEffect]

@[simp] theorem msixUnmaskEffect_stock (s : State) : (msixUnmaskEffect s).stock = s.stock := by simp [msixUnmaskEffect]

/-! ### Resets and power -/

@[simp] theorem State.blank_stock (s : State) (stage : Bool) : (s.blank stage).stock = s.stock := by simp [State.blank]

@[simp] theorem State.startUp_stock (s : State) (env : StartEnv) (last : Nat) :
    (s.startUp env last).stock = s.stock := (State.bootFirmware_stock _).trans rfl

@[simp] theorem porEffect_stock (env : StartEnv) (s : State) : (porEffect env s).stock = s.stock := by simp [porEffect]

@[simp] theorem State.finishPages_stock (s : State) : (s.finishPages).stock = s.stock := by
  unfold State.finishPages
  split <;> simp

@[simp] theorem State.finishSlot_stock (s : State) : (s.finishSlot).stock = s.stock := by
  unfold State.finishSlot
  split <;> simp

@[simp] theorem State.packageReset_stock (s : State) (env : StartEnv) (last : Nat) :
    (s.packageReset env last).stock = s.stock := by simp [State.packageReset]

@[simp] theorem perstAssertEffect_stock (env : StartEnv) (s : State) :
    (perstAssertEffect env s).stock = s.stock := by simp [perstAssertEffect]

@[simp] theorem State.cutTask_stock (s : State) (p : Nat) (cores : List (Nat × Nat)) (detail : Nat) :
    (s.cutTask p cores detail).stock = s.stock := by simp [State.cutTask]

@[simp] theorem State.withdrawSplices_stock (s : State) (p : Nat) : (s.withdrawSplices p).stock = s.stock := by simp [State.withdrawSplices]

@[simp] theorem State.reprogram_stock (s : State) (p b : Nat) : (s.reprogram p b).stock = s.stock := by simp [State.reprogram]

@[simp] theorem State.reloadBench_stock (s : State) (p b from_ : Nat) : (s.reloadBench p b from_).stock = s.stock := by
  simp only [State.reloadBench]
  (repeat' split) <;> simp

@[simp] theorem State.clearHurdles_stock (s : State) (p : Nat) : (s.clearHurdles p).stock = s.stock := by simp [State.clearHurdles]

@[simp] theorem State.markReset_stock (s : State) (rank : Nat) : (s.markReset rank).stock = s.stock := by simp [State.markReset]

@[simp] theorem State.resetBench_stock (s : State) (b : Nat) : (s.resetBench b).stock = s.stock := by
  simp only [State.resetBench]
  (repeat' split) <;> simp

@[simp] theorem State.writeResetFields_stock (s : State) (w : W32) :
    (s.writeResetFields w).stock = s.stock := by simp [State.writeResetFields]

@[simp] theorem State.resetEngine_stock (s : State) (b c e : Nat) : (s.resetEngine b c e).stock = s.stock := by
  unfold State.resetEngine
  (repeat' split) <;> simp

@[simp] theorem State.writeResetControl_stock (s : State) (w : W32) (env : StartEnv) :
    (s.writeResetControl w env).stock = s.stock := by simp [State.writeResetControl]

@[simp] theorem pkgResetEffect_stock (fn : Nat) (word : W32) (env : StartEnv) (s : State) :
    (pkgResetEffect fn word env s).stock = s.stock := by simp [pkgResetEffect]

@[simp] theorem benchResetEffect_stock (fn : Nat) (word : W32) (s : State) :
    (benchResetEffect fn word s).stock = s.stock := by simp [benchResetEffect]

@[simp] theorem engineResetEffect_stock (fn : Nat) (word : W32) (s : State) :
    (engineResetEffect fn word s).stock = s.stock := by simp [engineResetEffect]

@[simp] theorem State.dropLaunch_stock (s : State) (p : Nat) : (s.dropLaunch p).stock = s.stock := by
  unfold State.dropLaunch
  split <;> simp

@[simp] theorem flrEffect_stock (p : Nat) (s : State) : (flrEffect p s).stock = s.stock := by simp [flrEffect]

@[simp] theorem pfFlrEffect_stock (s : State) : (pfFlrEffect s).stock = s.stock := by simp [pfFlrEffect]

@[simp] theorem State.writePkgPower_stock (s : State) (w : W32) : (s.writePkgPower w).stock = s.stock := by simp [State.writePkgPower]

@[simp] theorem sleepExitEffect_stock (fn : Nat) (word : W32) (s : State) :
    (sleepExitEffect fn word s).stock = s.stock := by simp [sleepExitEffect]

@[simp] theorem powerTransitionDoneEffect_stock (b : Option Nat) (s : State) : (powerTransitionDoneEffect b s).stock = s.stock := by
  unfold powerTransitionDoneEffect
  split <;> simp

@[simp] theorem State.halt_stock (s : State) (l : Life) : (s.halt l).stock = s.stock := (rfl)

@[simp] theorem thermalTripEffect_stock (s : State) : (thermalTripEffect s).stock = s.stock := by simp [thermalTripEffect]

/-! ### Gates, and what rests end -/

@[simp] theorem State.epochEdgeNow_stock (s : State) : (s.epochEdgeNow).stock = s.stock := by simp [State.epochEdgeNow]

@[simp] theorem State.epochBeatNow_stock (s : State) : (s.epochBeatNow).stock = s.stock := by simp [State.epochBeatNow]

@[simp] theorem State.enterHoldover_stock (s : State) : (s.enterHoldover).stock = s.stock := by simp [State.enterHoldover]

@[simp] theorem State.loseBeat_stock (s : State) : (s.loseBeat).stock = s.stock := by simp [State.loseBeat]

@[simp] theorem State.relockNow_stock (s : State) : (s.relockNow).stock = s.stock := by simp [State.relockNow]

@[simp] theorem State.relockDue_stock (s : State) : (s.relockDue).stock = s.stock := by simp [State.relockDue]

@[simp] theorem State.openGate_stock (s : State) (env : GateEnv) : (s.openGate env).stock = s.stock := by simp [State.openGate]

@[simp] theorem gateEffect_stock (env : GateEnv) (s : State) : (gateEffect env s).stock = s.stock := by simp [gateEffect]

@[simp] theorem State.gateRests_stock (s : State) : (s.gateRests).stock = s.stock := by simp [State.gateRests]

@[simp] theorem State.restsEnd_stock (s : State) : (s.restsEnd).stock = s.stock := by simp [State.restsEnd]

@[simp] theorem State.gateNow_stock (s : State) : (s.gateNow).stock = s.stock := by simp [State.gateNow]

/-! ### The beat -/

@[simp] theorem State.sampleEdge_stock (s : State) : (s.sampleEdge).stock = s.stock := by simp [State.sampleEdge]

@[simp] theorem lockEffect_stock (s : State) : (lockEffect s).stock = s.stock := by simp [lockEffect]

@[simp] theorem holdoverEntryEffect_stock (s : State) : (holdoverEntryEffect s).stock = s.stock := by simp [holdoverEntryEffect]

@[simp] theorem beatLostEffect_stock (s : State) : (beatLostEffect s).stock = s.stock := by simp [beatLostEffect]

@[simp] theorem relockEffect_stock (s : State) : (relockEffect s).stock = s.stock := by simp [relockEffect]

@[simp] theorem State.writeBeatControl_stock (s : State) (w : W32) :
    (s.writeBeatControl w).stock = s.stock := by simp [State.writeBeatControl]

@[simp] theorem epochArmEffect_stock (fn : Nat) (word : W32) (s : State) :
    (epochArmEffect fn word s).stock = s.stock := by simp [epochArmEffect]

@[simp] theorem epochDisarmEffect_stock (fn : Nat) (word : W32) (s : State) :
    (epochDisarmEffect fn word s).stock = s.stock := by simp [epochDisarmEffect]

@[simp] theorem State.countBeat_stock (s : State) (seen : Bool) : (s.countBeat seen).stock = s.stock := by simp [State.countBeat]

@[simp] theorem State.beginBeat_stock (s : State) (edge : Bool) : (s.beginBeat edge).stock = s.stock := by simp [State.beginBeat]

/-! ### Registers -/

@[simp] theorem State.latchRead_stock (s : State) (fn a : Nat) : (s.latchRead fn a).stock = s.stock := by
  unfold State.latchRead
  (repeat' split) <;> simp

@[simp] theorem lowHalfReadEffect_stock (fn addr : Nat) (s : State) :
    (lowHalfReadEffect fn addr s).stock = s.stock := by simp [lowHalfReadEffect]

@[simp] theorem State.writeGlb_stock (s : State) (off : Nat) (v : W32) : (s.writeGlb off v).stock = s.stock := by simp [State.writeGlb]

@[simp] theorem State.writeBeat_stock (s : State) (fn off : Nat) (v : W32) :
    (s.writeBeat fn off v).stock = s.stock := by simp [State.writeBeat]

@[simp] theorem State.writeIrq_stock (s : State) (off : Nat) (v : W32) : (s.writeIrq off v).stock = s.stock := by simp [State.writeIrq]

@[simp] theorem State.writeGpio_stock (s : State) (off : Nat) (v : W32) : (s.writeGpio off v).stock = s.stock := by simp [State.writeGpio]

@[simp] theorem State.writeRing_stock (s : State) (fn off : Nat) (v : W32) :
    (s.writeRing fn off v).stock = s.stock := by simp [State.writeRing]

@[simp] theorem State.writeQueue_stock (s : State) (fn b c off : Nat) (v : W32) :
    (s.writeQueue fn b c off v).stock = s.stock := by simp [State.writeQueue]

@[simp] theorem State.writeHurdle_stock (s : State) (b off : Nat) (v : W32) : (s.writeHurdle b off v).stock = s.stock := by
  unfold State.writeHurdle
  split <;> simp

@[simp] theorem State.writeBench_stock (s : State) (fn b off : Nat) (v : W32) :
    (s.writeBench fn b off v).stock = s.stock := by simp [State.writeBench]

@[simp] theorem State.writeLdg_stock (s : State) (fn off : Nat) (v : W32) :
    (s.writeLdg fn off v).stock = s.stock := by simp [State.writeLdg]

@[simp] theorem State.writeCkp_stock (s : State) (p off : Nat) (v : W32) : (s.writeCkp p off v).stock = s.stock := by simp [State.writeCkp]

@[simp] theorem State.writeAivia_stock (s : State) (fn f off : Nat) (v : W32) :
    (s.writeAivia fn f off v).stock = s.stock := by simp [State.writeAivia]

@[simp] theorem State.writeNarrow_stock (s : State) (fn : Nat) (x : Place) (v : W32) : (s.writeNarrow fn x v).stock = s.stock := by
  unfold State.writeNarrow
  split <;> simp

@[simp] theorem State.writeWide_stock (s : State) (fn : Nat) (x : Place) (h : Part64) (v : W64) :
    (s.writeWide fn x h v).stock = s.stock := by
  unfold State.writeWide
  split <;> simp

@[simp] theorem State.write32_stock (s : State) (fn a : Nat) (v : W32) : (s.write32 fn a v).stock = s.stock := by
  unfold State.write32
  (repeat' split) <;> simp

@[simp] theorem State.write64_stock (s : State) (fn a : Nat) (v : W64) : (s.write64 fn a v).stock = s.stock := by
  unfold State.write64
  split <;> simp

@[simp] theorem registerWriteEffect_stock (fn addr size : Nat) (value : W64) (s : State) :
    (registerWriteEffect fn addr size value s).stock = s.stock := by simp [registerWriteEffect]

end Sys2Proof.Machine
end

section
/-! R721, R722, R724: no command changes the fuses or the commands that wait, and none gives back a one-time slot (O56). -/

namespace Sys2Proof.Machine

/-! ### Slots that are used -/

/-- t follows s: the fuses and the commands that wait are the same, and slots have only been used, none beyond those a setting has. -/
structure State.Spends (s t : State) : Prop where
  pending : t.pending = s.pending
  fuses : t.fuses = s.fuses
  length : t.glue.used.length = s.glue.used.length
  grows : ∀ n, s.glue.used.getD n 0 ≤ t.glue.used.getD n 0
  bound : ∀ n, s.glue.used.getD n 0 ≤ glueSlots n → t.glue.used.getD n 0 ≤ glueSlots n

theorem State.Spends.of_stock {s t : State} (h : t.stock = s.stock) : s.Spends t := by
  obtain ⟨hp, h⟩ := Prod.mk.inj h
  obtain ⟨hf, hu⟩ := Prod.mk.inj h
  refine ⟨hp, hf, ?_, ?_, ?_⟩ <;> simp [hu]

theorem State.Spends.trans {s t u : State} (h : s.Spends t) (k : t.Spends u) : s.Spends u :=
  ⟨k.pending.trans h.pending, k.fuses.trans h.fuses, k.length.trans h.length, fun n => (h.grows n).trans (k.grows n),
    fun n hn => k.bound n (h.bound n hn)⟩

theorem State.Spends.then_stock {s t u : State} (h : s.Spends t) (k : u.stock = t.stock) : s.Spends u := h.trans (.of_stock k)

theorem State.Spends.foldl {α : Type} {f : State → α → State} (h : ∀ (s : State) (a : α), s.Spends (f s a)) (xs : List α) (s : State) :
    s.Spends (xs.foldl f s) := by
  induction xs generalizing s with
  | nil => exact .of_stock rfl
  | cons x xs ih => exact (h s x).trans (ih _)

/-- A slot is used where the setting has one left (R724). -/
theorem State.Spends.beginSlot {s : State} {n : Nat} (h : s.glue.left n ≠ 0) : s.Spends (s.beginSlot n) := by
  have hn : s.glue.used.getD n 0 < glueSlots n := Nat.lt_of_sub_ne_zero h
  have hused : (s.beginSlot n).glue.used = s.glue.used.modify n (· + 1) := rfl
  have hone : ∀ k, (s.beginSlot n).glue.used.getD k 0 = s.glue.used.getD k 0 ∨
      k = n ∧ (s.beginSlot n).glue.used.getD k 0 = s.glue.used.getD k 0 + 1 := by
    intro k
    rw [hused]
    by_cases hk : n = k
    · subst hk
      by_cases hl : n < s.glue.used.length
      · exact .inr ⟨rfl, getD_modify_same _ _ _ _ hl⟩
      · rw [List.modify_eq_self (Nat.not_lt.1 hl)]
        exact .inl rfl
    · exact .inl (getD_modify_ne _ _ _ _ _ hk)
  refine ⟨rfl, rfl, by rw [hused, List.length_modify], fun k => ?_, fun k hk => ?_⟩ <;> obtain h | ⟨rfl, h⟩ := hone k <;> omega

/-! ### Updates of the settings (R724, R725) -/

/-- A decision that waits for a slot's program is one on a setting that has a slot left. -/
theorem State.left_of_decideJob {s : State} {j : GlueJob} (h : s.decideJob j = none) : s.glue.left j.setting ≠ 0 := by
  intro hl
  unfold State.decideJob at h
  simp only [hl] at h
  (repeat' split at h) <;> simp_all

theorem State.Spends.glueStart (n : Nat) (s : State) : s.Spends (s.glueStart n) := by
  induction n generalizing s with
  | zero => exact .of_stock rfl
  | succ n ih =>
    unfold State.glueStart
    split
    · exact .of_stock rfl
    next j rest _ =>
      split
      next t ht =>
        have hrest : (t.modGlue fun g => { g with jobs := rest }).stock = t.stock := State.modGlue_stock _ fun _ => rfl
        exact (Spends.of_stock (hrest.trans (State.decideJob_stock ht))).trans (ih _)
      next hj =>
        refine (Spends.beginSlot (State.left_of_decideJob hj)).then_stock ?_
        split
        · exact State.makeSpare_stock _ _
        · rfl

theorem State.Spends.glueUpdate (s : State) (j : GlueJob) : s.Spends (s.glueUpdate j) := by
  have hjoin : (s.modGlue fun g => { g with jobs := g.jobs ++ [j] }).stock = s.stock := State.modGlue_stock _ fun _ => rfl
  unfold State.glueUpdate
  dsimp only
  split
  · exact (Spends.of_stock hjoin).trans (.glueStart 64 _)
  · exact .of_stock hjoin

theorem State.Spends.glueSpare (s : State) (b : Nat) : s.Spends (s.glueSpare b) := .glueUpdate s _

/-- The admission of a packet spends what its opcode does. -/
theorem State.Spends.admitPkt (s : State) (f op : Nat) {run : PktId → Nat → Pkt → State → State}
    (h : ∀ id p x (t : State), t.Spends (run id p x t)) : s.Spends (s.admitPkt f op run) := by
  unfold State.admitPkt
  split
  · exact .of_stock rfl
  · split
    · exact .of_stock rfl
    · refine Spends.then_stock ?_ (State.flushReserved_stock _ _ _)
      split
      · exact .of_stock (by simp)
      · exact (Spends.of_stock (State.takePkt_stock s f _)).trans (h _ _ _ _)

theorem State.Spends.glueWriteEffect (f : Nat) (s : State) : s.Spends (glueWriteEffect f s) := by
  refine .admitPkt s f _ fun id p x t => ?_
  dsimp only
  split
  · exact .of_stock (State.refuse_stock _ _ _ _ _)
  · exact .glueUpdate t _

theorem State.Spends.ringSpareSetEffect (f : Nat) (s : State) : s.Spends (ringSpareSetEffect f s) := by
  refine .admitPkt s f _ fun id p x t => ?_
  split
  · exact .of_stock (State.refuse_stock _ _ _ _ _)
  · exact .glueUpdate t _

theorem State.Spends.glueSlotProgrammedEffect (s : State) : s.Spends (glueSlotProgrammedEffect s) := by
  unfold Machine.glueSlotProgrammedEffect
  split
  · exact .of_stock rfl
  · refine Spends.trans (.of_stock ?_) (.glueStart 64 _)
    split <;> simp

/-! ### The spare's updates, and what closes a splice window (R153, R163, R166) -/

theorem State.Spends.rejoinDoneEffect (b : Nat) (pass : Bool) (s : State) : s.Spends (rejoinDoneEffect b pass s) := by
  unfold Machine.rejoinDoneEffect
  split
  · split
    · exact .of_stock rfl
    · refine Spends.then_stock ?_ (State.finish_stock _ _ _ _ _ _ _ _)
      split
      · exact (Spends.of_stock (by simp)).trans (.glueSpare _ b)
      · exact .of_stock (by simp)
  · exact .of_stock rfl

theorem State.Spends.closeTakeover (s : State) (p lost : Nat) : s.Spends (s.closeTakeover p lost) := by
  unfold State.closeTakeover
  extract_lets new k i j old s₁ s₂ s₃ s₄ s₅ s₆
  have h₃ : (s₃.ringEvent 1).stock = s.stock := by simp [s₁, s₂, s₃]
  have h₄ : s.Spends s₄ := (Spends.of_stock h₃).trans (.glueSpare _ lost)
  have h₆ : s₆.stock = s₄.stock := by
    simp only [s₆, s₅]
    split <;> simp
  refine (h₄.then_stock h₆).then_stock ?_
  split <;> simp

theorem State.Spends.closeChange (s : State) (r : SpliceReq) : s.Spends (s.closeChange r) := by
  unfold State.closeChange
  cases r.change with
  | takeover lost => exact .closeTakeover s r.part lost
  | _ => exact .of_stock (by simp)

theorem State.Spends.spliceWindowCloseEffect (s : State) : s.Spends (spliceWindowCloseEffect s) := by
  unfold Machine.spliceWindowCloseEffect
  split
  · exact .of_stock rfl
  next w _ =>
    split
    · exact .of_stock rfl
    · extract_lets s₁ s₂
      have h₂ : s₁.Spends s₂ := (Spends.foldl .closeChange w.reqs s₁).then_stock (State.ringEvent_stock _ 0)
      exact ((Spends.of_stock (State.modRing_stock s _)).trans h₂).then_stock (State.modRing_stock s₂ _)

/-! ### Core cycles and beats -/

theorem State.Spends.dueEvents (s : State) : s.Spends s.dueEvents := by
  refine Spends.then_stock (.trans (.of_stock ?_) (.spliceWindowCloseEffect s.epochEdgeNow.epochBeatNow.restsEnd.gateNow)) ?_
  · simp
  · simp [State.dueEvents]

theorem State.Spends.endCycle (s : State) : s.Spends s.endCycle := (Spends.dueEvents s).then_stock (by simp [State.endCycle])

theorem State.Spends.coreCycle (s : State) : s.Spends s.coreCycle := by
  unfold State.coreCycle
  split
  · exact .of_stock rfl
  · exact (Spends.endCycle s).then_stock (by simp)

theorem State.Spends.repeat_coreCycle (n : Nat) (s : State) : s.Spends (Nat.repeat State.coreCycle n s) := by
  induction n with
  | zero => exact .of_stock rfl
  | succ n ih => exact ih.trans (.coreCycle _)

theorem State.Spends.restOfBeat (s : State) : s.Spends s.restOfBeat := by
  unfold State.restOfBeat
  split
  · exact (Spends.repeat_coreCycle _ s).trans (.endCycle _)
  · exact .dueEvents s

theorem State.Spends.refBeatEdgeEffect (edge : Bool) (e : RefEdge) (s : State) : s.Spends (refBeatEdgeEffect edge e s) := by
  unfold Machine.refBeatEdgeEffect
  split
  · exact .of_stock rfl
  · exact (Spends.restOfBeat s).then_stock (by simp)

theorem State.Spends.timelyReturnEffect (s : State) : s.Spends (timelyReturnEffect s) := by
  unfold Machine.timelyReturnEffect
  split
  · exact .of_stock rfl
  · split
    · exact .of_stock (by simp)
    · exact (Spends.endCycle s).then_stock (State.beginBeat_stock _ _)

/-! ### Every command -/

/-- Every command has a meaning, which spends slots at the most: those that reach an update of the settings, and all others. -/
theorem exec_spends (c : Instr) (s : State) : ∃ t, exec c s = .next (settle s t) ∧ s.Spends t := by
  cases c
  case glueWrite f => exact ⟨_, rfl, .glueWriteEffect f s⟩
  case ringSpareSet f => exact ⟨_, rfl, .ringSpareSetEffect f s⟩
  case glueSlotProgrammed => exact ⟨_, rfl, .glueSlotProgrammedEffect s⟩
  case rejoinDone b pass => exact ⟨_, rfl, .rejoinDoneEffect b pass s⟩
  case spliceWindowClose => exact ⟨_, rfl, .spliceWindowCloseEffect s⟩
  case timelyReturn => exact ⟨_, rfl, .timelyReturnEffect s⟩
  case refBeatEdge edge e => exact ⟨_, rfl, .refBeatEdgeEffect edge e s⟩
  all_goals exact ⟨_, rfl, .of_stock (by simp)⟩

theorem State.slotsWf_iff (s : State) :
    s.slotsWf = true ↔ s.glue.used.length = 16 ∧ ∀ n < 16, s.glue.used.getD n 0 ≤ glueSlots n := by
  simp [State.slotsWf]

/-- Settles O56: every command spends at the most. -/
theorem fusesAndSpentSlotsStay : Obligations.FusesAndSpentSlotsStay := by
  intro c s hs
  obtain ⟨t, hc, h⟩ := exec_spends c s
  obtain ⟨hlen, hslots⟩ := s.slotsWf_iff.1 hs
  refine ⟨_, hc, ?_⟩
  rw [State.slotsWf_iff, settle_fuses, settle_pending, settle_glue]
  exact ⟨h.fuses, h.pending, ⟨h.length.trans hlen, fun n hn => h.bound n (hslots n hn)⟩, h.grows⟩

end Sys2Proof.Machine
end

section
/-! R749 to R754, R758 to R761: writes of the GPIO registers, and the filtered change of a pin (O51). -/

namespace Sys2Proof.Machine

theorem exec_gpioOutWrite (fn : Nat) (v : W64) (s : State) :
    exec (.gpioOutWrite fn v) s = .next (settle s (gpioOutWriteEffect fn v s)) := rfl
theorem exec_gpioFuncEnWrite (fn g : Nat) (v : W32) (s : State) :
    exec (.gpioFuncEnWrite fn g v) s = .next (settle s (gpioFuncEnWriteEffect fn g v s)) := rfl
theorem exec_gpioDebounceWrite (fn n : Nat) (v : W32) (s : State) :
    exec (.gpioDebounceWrite fn n v) s = .next (settle s (gpioDebounceWriteEffect fn n v s)) := rfl
theorem exec_gpioIntModeWrite (fn half : Nat) (v : W32) (s : State) :
    exec (.gpioIntModeWrite fn half v) s = .next (settle s (gpioIntModeWriteEffect fn half v s)) := rfl
theorem exec_gpioFilterChange (n : Nat) (s : State) :
    exec (.gpioFilterChange n) s = .next (settle s (gpioFilterChangeEffect n s)) := rfl

/-! ### Writes (R751, R752, R758, R812) -/

/-- The physical function's writes are taken while the device runs. -/
theorem State.gpioTakes_pf {s : State} (h : s.running = true) : s.gpioTakes 0 = true := by simp [State.gpioTakes, h]

/-- R751, R752: a mask in the low half, the values in the high half. -/
theorem Gpio.getLsbD_writeOut (g : Gpio) (v : W64) {n : Nat} (hn : n < 32) :
    (g.writeOut v).outValue.getLsbD n = if v.getLsbD n then v.getLsbD (n + 32) else g.outValue.getLsbD n := by
  simp only [Gpio.writeOut, BitVec.getLsbD_or, BitVec.getLsbD_and, BitVec.getLsbD_not, BitVec.getLsbD_setWidth, BitVec.getLsbD_ushiftRight, hn,
    decide_true, Bool.true_and, Nat.add_comm 32 n]
  cases v.getLsbD n <;> simp

/-- The masks of the two halves of a 64-bit register. -/
theorem getLsbD_halves : ∀ n < 64, (0xFFFFFFFF#64).getLsbD n = decide (n < 32) ∧ (0xFFFFFFFF00000000#64).getLsbD n = !decide (n < 32) := by
  decide

/-- R812: a 32-bit write reaches its half of a 64-bit register. -/
theorem getLsbD_setHalf (r : W64) {half : Nat} (h : half ≤ 1) (v : W32) {n : Nat} (hn : n < 64) :
    (setHalf r half v).getLsbD n = if n / 32 = half then v.getLsbD (n % 32) else r.getLsbD n := by
  obtain ⟨hlow, hhigh⟩ := getLsbD_halves n hn
  by_cases hl : n < 32
  · have hd : n / 32 = 0 := Nat.div_eq_of_lt hl
    have hm : n % 32 = n := Nat.mod_eq_of_lt hl
    obtain rfl | rfl : half = 0 ∨ half = 1 := by omega
    · simp [setHalf, -BitVec.getLsbD_eq_getElem, hhigh, hd, hm, hl, hn]
    · simp [setHalf, -BitVec.getLsbD_eq_getElem, hlow, hd, hl, hn]
  · have hd : n / 32 = 1 := by omega
    have hm : n % 32 = n - 32 := by omega
    have hv : v.getLsbD n = false := BitVec.getLsbD_of_ge v n (Nat.not_lt.1 hl)
    obtain rfl | rfl : half = 0 ∨ half = 1 := by omega
    · simp [setHalf, -BitVec.getLsbD_eq_getElem, hhigh, hd, hl, hn, hv]
    · simp [setHalf, -BitVec.getLsbD_eq_getElem, hlow, hd, hm, hl, hn, show n - 32 < 64 by omega]

/-! ### The filtered change of a pin (R757 to R761) -/

section
variable (g : Gpio) (n : Nat) (beat : W64)

theorem Gpio.change_filtered : (g.change n beat).filtered = g.filtered ^^^ (1#32 <<< n) := by
  simp only [Gpio.change]
  split <;> rfl

theorem Gpio.change_differing : (g.change n beat).differing = g.differing.set n 0 := by
  simp only [Gpio.change]
  split <;> rfl

/-- R759, R761: the event of a change that INT_MODE selects. -/
theorem Gpio.change_of_selects (h : g.selects n (!g.filtered.getLsbD n) = true) : g.change n beat =
    { g with filtered := g.filtered ^^^ (1#32 <<< n), differing := g.differing.set n 0 }.event n (!g.filtered.getLsbD n) beat :=
  if_pos h

theorem Gpio.change_intStatus_of_not_selects (h : g.selects n (!g.filtered.getLsbD n) = false) :
    (g.change n beat).intStatus = g.intStatus := by
  have hg : g.change n beat = { g with filtered := g.filtered ^^^ (1#32 <<< n), differing := g.differing.set n 0 } :=
    if_neg (Bool.eq_false_iff.1 h :)
  rw [hg]

end

/-- One bit of a register is inverted. -/
theorem getLsbD_xor_bit (w : W32) (n : Nat) (hn : n < 32) (k : Nat) :
    (w ^^^ (1#32 <<< n)).getLsbD k = if k = n then !w.getLsbD n else w.getLsbD k := by
  rw [BitVec.getLsbD_xor, BitVec.getLsbD_shiftLeft, BitVec.getLsbD_one]
  split
  next h => subst h; simp [hn]
  next h =>
    have : ¬ (k < n) → k - n ≠ 0 := by omega
    by_cases hk : k < n <;> simp_all

/-- Past its debounce count a pin's filtered level changes; the event register's running bits follow. -/
theorem gpioFilterChangeEffect_gpio {s : State} {n : Nat} (hn : n < 32) (h : s.gpio.debounce.getD n 0 < s.gpio.differing.getD n 0) :
    (gpioFilterChangeEffect n s).gpio = s.gpio.change n s.beat.count := by
  have hc : s.gpio.changes n = true := by simp only [Gpio.changes, hn, h, decide_true, Bool.and_self]
  simp only [gpioFilterChangeEffect, hc, Bool.not_true, Bool.false_eq_true, if_false]
  split
  · exact State.raise_gpio ..
  · rfl

/-- Settles O51, write by write, then the change of a pin. -/
theorem gpioWritesAndFilterChanges : Obligations.GpioWritesAndFilterChanges := by
  refine fun s => ⟨fun hs => ⟨fun v => ⟨_, exec_gpioOutWrite 0 v s, fun n hn => ?_⟩, fun g v _ => ⟨_, exec_gpioFuncEnWrite 0 g v s, ?_⟩,
    fun n v => ⟨_, exec_gpioDebounceWrite 0 n v s, ?_⟩, fun half v hh => ⟨_, exec_gpioIntModeWrite 0 half v s, fun n hn => ?_⟩⟩,
    fun n hn h => ⟨_, exec_gpioFilterChange n s, ?_⟩⟩
  · rw [settle_gpio, gpioOutWriteEffect, if_pos (State.gpioTakes_pf hs)]
    exact Gpio.getLsbD_writeOut _ v hn
  · rw [settle_gpio, gpioFuncEnWriteEffect, if_pos (State.gpioTakes_pf hs)]
    exact ⟨rfl, rfl⟩
  · rw [settle_gpio, gpioDebounceWriteEffect, if_pos (State.gpioTakes_pf hs)]
    exact ⟨rfl, rfl, rfl⟩
  · rw [settle_gpio, gpioIntModeWriteEffect, if_pos (State.gpioTakes_pf hs)]
    exact getLsbD_setHalf _ hh v hn
  · rw [settle_gpio, gpioFilterChangeEffect_gpio hn h, Gpio.change_filtered, Gpio.change_differing]
    have hlen : n < s.gpio.differing.length := by
      by_contra hl
      rw [List.getD_eq_default _ _ (Nat.not_lt.1 hl)] at h
      exact Nat.not_lt_zero _ h
    refine ⟨by rw [getLsbD_xor_bit _ n hn, if_pos rfl], fun k hk => by rw [getLsbD_xor_bit _ n hn, if_neg hk], by simp [hlen],
      fun hr => ?_, fun hr h0 => ?_, fun hr => Gpio.change_intStatus_of_not_selects _ _ _ hr⟩
    · rw [Gpio.change_of_selects _ _ _ hr]
      rfl
    · rw [Gpio.change_of_selects _ _ _ hr]
      simp [Gpio.event, h0]

end Sys2Proof.Machine
end

section
/-! R771 to R774: the temperature sample, and the SMBus reads (O52). -/

namespace Sys2Proof.Machine

theorem exec_tempSample (bench hbm : List (BitVec 16)) (s : State) :
    exec (.tempSample bench hbm) s = .next (settle s (tempSampleEffect bench hbm s)) := rfl

/-! ### The sample (R774) -/

/-- A bench's word in a sample. -/
def Bench.sampled (x : Bench) (bench : List (BitVec 16)) (seats b : Nat) : Bench :=
  { x with temp := if b < seats && x.power != 2 then bench.getD b noReading else noReading }

section
variable {s : State} (bench hbm : List (BitVec 16))

theorem tempSampleEffect_of_due (h : s.mgmt.sampleIn = 0) (hs : s.running = true) : tempSampleEffect bench hbm s = { s with
    benches := s.benches.zipIdx.map fun y => y.1.sampled bench s.nSeats y.2
    mgmt := { s.mgmt with
      sampleIn := 16384, hbmTemp := (List.range 8).map fun k => if k < s.nStacks then hbm.getD k noReading else noReading } } := by
  simp only [tempSampleEffect, h, hs]
  rfl

theorem State.getElem?_sampled (b : Nat) :
    (s.benches.zipIdx.map fun y => y.1.sampled bench s.nSeats y.2)[b]? = s.benches[b]?.map fun x => x.sampled bench s.nSeats b := by
  rw [List.getElem?_map, List.getElem?_zipIdx, Option.map_map, Nat.zero_add]
  rfl

end

section
variable {s t : State}

/-- What a message leaves of the temperatures: those of the HBM stacks depend on the grade and the last sample. -/
theorem State.hbmTempOf_congr (hf : t.fuses = s.fuses) (hm : t.mgmt = s.mgmt) (k : Nat) : t.hbmTempOf k = s.hbmTempOf k := by
  simp [State.hbmTempOf, State.nStacks, State.isC, hf, hm]

/-- The readings that follow a sample. -/
theorem State.benchTemp_sampled (bench : List (BitVec 16)) (h : t.benches = s.benches.zipIdx.map fun y => y.1.sampled bench s.nSeats y.2)
    (hf : t.fuses = s.fuses) (b : Nat) :
    t.benchTemp b = if b < s.nSeats ∧ (s.bench b).power ≠ 2 ∧ b < s.benches.length then bench.getD b 0x8000 else 0x8000 := by
  have hn : t.nSeats = s.nSeats := by simp [State.nSeats, State.isC, hf]
  rw [State.benchTemp, hn, State.bench, h, List.getD, State.getElem?_sampled]
  by_cases hb : b < s.benches.length
  · simp only [State.bench, List.getD, List.getElem?_eq_getElem hb, Option.map_some, Option.getD_some, Bench.sampled, noReading, hb,
      Bool.and_eq_true, decide_eq_true_eq, bne_iff_ne, and_true]
    split <;> rfl
  · simp [hb, noReading]

theorem sameBytes_sampled (bench : List (BitVec 16)) (h : t.benches = s.benches.zipIdx.map fun y => y.1.sampled bench s.nSeats y.2)
    (hm : t.hbm = s.hbm) : sameBytes s t := by
  refine .of_stores hm (List.ext_getElem? fun b => ?_)
  rw [State.shows, h, List.getElem?_map, State.getElem?_sampled, State.shows, List.getElem?_map, Option.map_map]
  rfl

/-! ### The SMBus (R771 to R773) -/

/-- A listed read without a PEC error sends its bytes and nothing else. -/
theorem settle_smbusRead (h : s.smbusAnswers = true) (data : Bytes) :
    settle s (s.smbusRead false data) = { s with out := .smbus data :: s.out } := by
  have hr : s.smbusRead false data = { s with out := .smbus data :: s.out } := by simp [State.smbusRead, h, State.emit]
  rw [hr]
  exact settle_of_causes_eq rfl rfl

theorem settle_smbusUnlisted (h : s.smbusAnswers = true) : settle s s.smbusUnlisted = { s with out := .smbusNack :: s.out } := by
  have hr : s.smbusUnlisted = { s with out := .smbusNack :: s.out } := by simp [State.smbusUnlisted, h, State.emit]
  rw [hr]
  exact settle_of_causes_eq rfl rfl

/-- R772: a PEC error is recorded. -/
theorem State.smbusRead_pecError (h : s.smbusAnswers = true) (data : Bytes) :
    s.smbusRead true data = (s.mgmtEvent 2).emit (.smbus data) := by
  simp [State.smbusRead, h]

end

/-- Settles O52: the sample, and each read as the bytes it sends. -/
theorem temperaturesAndSmbus : Obligations.TemperaturesAndSmbus := by
  refine ⟨fun s bench hbm h hs => ⟨_, exec_tempSample bench hbm s, ?_⟩, fun s hs => ?_⟩
  · rw [tempSampleEffect_of_due bench hbm h hs]
    refine ⟨by rw [settle_mgmt], State.benchTemp_sampled bench (settle_benches _ _) (settle_fuses _ _), fun k hk => ?_,
      sameBytes_sampled bench (settle_benches _ _) (settle_hbm _ _)⟩
    rw [State.hbmTempOf_congr (settle_fuses _ _) (settle_mgmt _ _)]
    change (if k < s.nStacks then _ else noReading) = _
    by_cases hn : k < s.nStacks
    · rw [if_pos hn, if_pos hn]
      simp [hk, hn, noReading]
    · rw [if_neg hn, if_neg hn]
      rfl
  · have hread (data : Bytes) : Host.Outcome.next (settle s (s.smbusRead false data)) =
        (.next { s with out := .smbus data :: s.out } : Host.Outcome State Fault Refusal) :=
      congrArg Host.Outcome.next (settle_smbusRead hs data)
    refine ⟨hread _, hread _, hread _, hread _, hread _, fun k hk => ?_, fun k hk => ?_,
      congrArg Host.Outcome.next (settle_smbusUnlisted hs), _, rfl, ?_⟩
    · have he : smbusBenchTempEffect k false s = s.smbusRead false (leBytes 2 (s.benchTemp k).toNat) := if_neg (Nat.not_lt.2 hk)
      exact congrArg Host.Outcome.next (he ▸ settle_smbusRead hs _)
    · have he : smbusHbmTempEffect k false s = s.smbusRead false (leBytes 2 (s.hbmTempOf k).toNat) := if_neg (Nat.not_lt.2 hk)
      exact congrArg Host.Outcome.next (he ▸ settle_smbusRead hs _)
    · rw [smbusIdentEffect, State.smbusRead_pecError hs]
      simp [State.mgmtEvent, setBit]

end Sys2Proof.Machine
end

section
/-! SUPPORT. What completions and messages leave (O33, O34, O36, O37, O40, O42, O44, O45). -/

namespace Sys2Proof.Machine

section
variable {s t : State} (h : s.AnswersMore t)
include h

theorem State.AnswersMore.beat : t.beat = s.beat := by obtain ⟨⟨_, _, _, rfl⟩, -⟩ := h; rfl
theorem State.AnswersMore.sessions : t.sessions = s.sessions := by obtain ⟨⟨_, _, _, rfl⟩, -⟩ := h; rfl
theorem State.AnswersMore.ports : t.ports = s.ports := by obtain ⟨⟨_, _, _, rfl⟩, -⟩ := h; rfl
theorem State.AnswersMore.mgmt : t.mgmt = s.mgmt := by obtain ⟨⟨_, _, _, rfl⟩, -⟩ := h; rfl
theorem State.AnswersMore.glb : t.glb = s.glb := by obtain ⟨⟨_, _, _, rfl⟩, -⟩ := h; rfl

end

/-- The completion of a packet leaves all but the functions' windows alone. -/
theorem State.AnswersMore.finish (s : State) (id : PktId) (part status detail r0 r1 r2 : Nat) :
    s.AnswersMore (s.finish id part status detail r0 r1 r2) := .post s _

section
variable {s : State} {f op : Nat}

/-- R666: the header's first failing check refuses the packet at the front. -/
theorem State.admitPkt_of_headerDetail {i d : Nat} {x : Pkt} (hn : s.nextPkt f = some (i, x)) (ho : x.op = op)
    (hd : s.headerDetail f x = some d) (run : PktId → Nat → Pkt → State → State) :
    s.admitPkt f op run = ((s.takePkt f i).refuseHeader (s.pktId f x) d).flushReserved f 64 := by
  simp [State.admitPkt, hn, ho, hd]

/-- A packet of another opcode waits for its own row. -/
theorem State.admitPkt_of_op_ne {i : Nat} {x : Pkt} (hn : s.nextPkt f = some (i, x)) (ho : x.op ≠ op)
    (run : PktId → Nat → Pkt → State → State) : s.admitPkt f op run = s := by
  simp [State.admitPkt, hn, ho]

theorem State.admitPkt_of_none (hn : s.nextPkt f = none) (run : PktId → Nat → Pkt → State → State) : s.admitPkt f op run = s := by
  simp [State.admitPkt, hn]

/-- The function of a packet at the front has not been reset since. -/
theorem State.hears_takePkt_of_nextPkt {i : Nat} {x : Pkt} (hn : s.nextPkt f = some (i, x)) : (s.takePkt f i).hears (s.pktId f x) := by
  have hf : f < s.fns.length := State.lt_length_of_nextPkt hn
  refine ⟨?_, (congrArg Aivia.epoch (State.fn_modFn s f _ hf) :)⟩
  simpa [State.takePkt, State.pktId, Pkt.id] using hf

end

end Sys2Proof.Machine
end

section
/-! R659, R666: packets whose header fails a check, and rows of another opcode (O36). -/

namespace Sys2Proof.Machine

/-- The state in which the gate looks for a packet of an opcode: for a RUN, the benches that it waits for are requested (R712). -/
def State.beforePkt (s : State) (f op : Nat) : State := if op = 0x11 then s.wakeForRun f else s

/-- Only benches' requested power states differ. -/
theorem State.beforePkt_cases (s : State) (f op : Nat) : ∃ bs, s.beforePkt f op = { s with benches := bs } := by
  unfold State.beforePkt
  split
  · obtain ⟨bs, h, -⟩ := s.wakeForRun_cases f
    exact ⟨bs, h⟩
  · exact ⟨s.benches, rfl⟩

/-- A packet row is the admission of a packet of its function and opcode. -/
theorem exec_of_packetRow {c : Instr} {f op : Nat} (h : packetRow c = some (f, op)) (s : State) :
    ∃ run, exec c s = .next (settle s ((s.beforePkt f op).admitPkt f op run)) := by
  cases c <;> cases h <;> exact ⟨_, rfl⟩

/-- Settles O36: a packet row is an admission, which refuses a header, or finds no packet of its opcode. -/
theorem packetsWithBadHeadersAreRefused : Obligations.PacketsWithBadHeadersAreRefused := by
  intro s c f op hc s'
  obtain ⟨run, hrun⟩ : ∃ run, exec c s = .next (settle s (s'.admitPkt f op run)) := exec_of_packetRow hc s
  obtain ⟨bs, hbs⟩ : ∃ bs, s' = { s with benches := bs } := s.beforePkt_cases f op
  have hid (x : Pkt) : s'.pktId f x = s.pktId f x := by rw [hbs]; rfl
  clear_value s'
  refine ⟨fun i x d hn ho hd => ⟨_, hrun, ?_⟩, fun i x hn ho => ?_, fun hn => ?_⟩
  · rw [State.admitPkt_of_headerDetail hn ho hd, ← hid]
    have hk : ((s'.takePkt f i).refuseHeader (s'.pktId f x) d).AnswersMore
        (settle s (((s'.takePkt f i).refuseHeader (s'.pktId f x) d).flushReserved f 64)) := (State.AnswersMore.flushReserved f 64 _).trans (.settle s _)
    refine ⟨((State.hears_takePkt_of_nextPkt hn).answered_finish 0xFF 7 d 0 0 0).of_answersMore hk, ?_⟩
    rw [hk.parts, hk.hbm, hk.ldg, hk.glue, hk.ring, hk.sessions, hbs]
    exact ⟨rfl, rfl, rfl, rfl, rfl, rfl⟩
  · rw [hrun, State.admitPkt_of_op_ne hn ho]
  · rw [hrun, State.admitPkt_of_none hn]

end Sys2Proof.Machine
end

section
/-! R667, R668, R770: NOP, IDENT_CERT and STORE_PORT_SET (O37). -/

namespace Sys2Proof.Machine

theorem exec_aiviaNop (f : Nat) (s : State) : exec (.aiviaNop f) s = .next (settle s (aiviaNopEffect f s)) := rfl
theorem exec_identCert (f : Nat) (s : State) : exec (.identCert f) s = .next (settle s (identCertEffect f s)) := rfl
theorem exec_storePortSet (f : Nat) (s : State) : exec (.storePortSet f) s = .next (settle s (storePortSetEffect f s)) := rfl

section
variable {s : State} {f i : Nat} {x : Pkt}

theorem aiviaNop_completes (ha : s.admits f 0x00 i x) :
    ∃ t, exec (.aiviaNop f) s = .next t ∧ t.answered (s.pktId f x) 0xFF 0 0 s.beat.count.toNat 0 0 ∧ t.parts = s.parts ∧
      t.benches = s.benches ∧ t.hbm = s.hbm := by
  have hk : State.AnswersMore _ (settle s (aiviaNopEffect f s)) := State.admitPkt_answersMore ha rfl
  exact ⟨_, exec_aiviaNop f s, (State.hears_takePkt ha).answered_of _ _ _ _ _ _ hk rfl, hk.parts, hk.benches, hk.hbm⟩

/-- A buffer that is too small is answered with the length needed. -/
theorem identCert_refused (ha : s.admits f 0x30 i x) (h : x.u 0x30 4 < (Config.certificate s.fuses.serial).length) :
    (settle s (identCertEffect f s)).answered (s.pktId f x) 0xFF 7 0x52 (Config.certificate s.fuses.serial).length 0 0 := by
  have hk : State.AnswersMore _ (settle s (identCertEffect f s)) := State.admitPkt_answersMore ha (if_pos h)
  exact (State.hears_takePkt ha).answered_of _ _ _ _ _ _ hk rfl

theorem identCert_writes (ha : s.admits f 0x30 i x) (h : (Config.certificate s.fuses.serial).length ≤ x.u 0x30 4) :
    Output.hostWrite (s.pktId f x).pasid (x.u 0x28 8) (Config.certificate s.fuses.serial) ∈ (settle s (identCertEffect f s)).out ∧
      (settle s (identCertEffect f s)).answered (s.pktId f x) 0xFF 0 0 (Config.certificate s.fuses.serial).length
        (Bytes.nat (Config.keyId s.fuses.serial) 0 8) 0 := by
  have hk : State.AnswersMore _ (settle s (identCertEffect f s)) := State.admitPkt_answersMore ha (if_neg (Nat.not_lt.2 h))
  exact ⟨mem_out_admitPkt ha (if_neg (Nat.not_lt.2 h)) List.mem_cons_self, (State.hears_takePkt ha).answered_of _ _ _ _ _ _ hk rfl⟩

/-- The port that a STORE_PORT_SET sets (R668). -/
def State.portOf (s : State) (x : Pkt) : StorePort :=
  { family := x.u 0x21 1, prefixLen := x.u 0x22 1, mtu := x.u 0x24 2, vlan := x.u 0x26 2, ip := Bytes.sub x.bytes 0x28 16
    gateway := Bytes.sub x.bytes 0x38 16, mac := BitVec.ofNat 48 (s.glue.value (7 + x.u 0x20 1)) }

/-- The fields of a STORE_PORT_SET lie in their ranges (R668). -/
structure Pkt.PortFits (x : Pkt) : Prop where
  port : x.u 0x20 1 ≤ 1
  family : x.u 0x21 1 = 4 ∨ x.u 0x21 1 = 6
  prefixLen : x.u 0x22 1 ≤ if x.u 0x21 1 = 4 then 32 else 128
  mtu : 1500 ≤ x.u 0x24 2
  mtu_le : x.u 0x24 2 ≤ 9000
  vlan : x.u 0x26 2 ≤ 4094

theorem Pkt.PortFits.not_refused (h : x.PortFits) :
    ¬ (1 < x.u 0x20 1 || (x.u 0x21 1 != 4 && x.u 0x21 1 != 6) || (if x.u 0x21 1 = 4 then 32 else 128) < x.u 0x22 1 || x.u 0x24 2 < 1500 ||
      9000 < x.u 0x24 2 || 4094 < x.u 0x26 2) = true := by
  obtain ⟨hp, hf, hl, hm, hm', hv⟩ := h
  have hf : (x.u 0x21 1 != 4 && x.u 0x21 1 != 6) = false := by rcases hf with hf | hf <;> simp [hf]
  simp [hp, hf, hl, hm, hm', hv]

/-- STORE_PORT_SET's own effect, where its fields fit (R668). -/
theorem storePortSet_of_fits (h : x.PortFits) (ha : s.admits f 0x20 i x) :
    State.AnswersMore
      (if s.sessions.any fun e => e.port = x.u 0x20 1 && e.state != .down then (s.takePkt f i).refuse (s.pktId f x) 0xFF stDEFERRED 0
       else { s.takePkt f i with ports := s.ports.set (x.u 0x20 1) (s.portOf x) }.finish (s.pktId f x) 0xFF stOK 0)
      (settle s (storePortSetEffect f s)) := State.admitPkt_answersMore ha (if_neg h.not_refused)

end

/-- Settles O37, packet by packet. -/
theorem nopCertificateAndStorePort : Obligations.NopCertificateAndStorePort := by
  refine fun s f i x => ⟨aiviaNop_completes, fun ha => ⟨_, exec_identCert f s, identCert_refused ha, identCert_writes ha⟩,
    fun ha hp hf hl hm hm' hv => ?_⟩
  have hk := storePortSet_of_fits ⟨hp, hf, hl, hm, hm', hv⟩ ha
  refine ⟨fun hs => ⟨_, exec_storePortSet f s, ?_⟩, fun hs => ⟨_, exec_storePortSet f s, ?_⟩⟩
  · rw [if_neg (by simpa using hs)] at hk
    exact ⟨hk.ports, (State.hears_takePkt ha).answered_of _ _ _ _ _ _ hk rfl⟩
  · rw [if_pos hs] at hk
    exact ⟨hk.ports, (State.hears_takePkt ha).answered_of _ _ _ _ _ _ hk rfl⟩

end Sys2Proof.Machine
end

section
/-! SUPPORT. Which functions have been reset (R626, R642): every event but a reset leaves a packet in work heard. -/

namespace Sys2Proof.Machine

/-- How often each function has been reset. -/
def State.epochs (s : State) : List Nat := s.fns.map Aivia.epoch

theorem State.hears_iff {s : State} {id : PktId} : s.hears id ↔ s.epochs[id.f]? = some id.epoch := by
  simp only [State.hears, State.epochs, List.getElem?_map, Option.map_eq_some_iff, State.fn, List.getD]
  constructor
  · rintro ⟨hf, he⟩
    rw [List.getElem?_eq_getElem hf] at he ⊢
    exact ⟨_, rfl, he⟩
  · rintro ⟨a, ha, he⟩
    rw [ha]
    exact ⟨(List.getElem?_eq_some_iff.1 ha).1, he⟩

theorem State.hears.of_epochs {s t : State} {id : PktId} (h : s.hears id) (he : t.epochs = s.epochs) : t.hears id := by
  rw [State.hears_iff, he]
  exact State.hears_iff.1 h

section
variable (s : State)

/-- An update of one window that is no reset. -/
theorem State.modFn_epochs (f : Nat) {g : Aivia → Aivia} (h : ∀ a, (g a).epoch = a.epoch) : (s.modFn f g).epochs = s.epochs := by
  refine List.ext_getElem (by simp [State.epochs]) fun i _ _ => ?_
  simp only [State.epochs, List.getElem_map, State.modFn_fns, List.getElem_modify]
  split
  · exact h _
  · rfl

@[simp] theorem State.post_epochs (c : Compl) : (s.post c).epochs = s.epochs := s.modFn_epochs _ fun a => by split <;> rfl
@[simp] theorem State.finish_epochs (id : PktId) (part status detail r0 r1 r2 : Nat) :
    (s.finish id part status detail r0 r1 r2).epochs = s.epochs := s.post_epochs _

end

theorem State.epochs_of_fns {s t : State} (h : t.fns = s.fns) : t.epochs = s.epochs := by rw [State.epochs, h, State.epochs]

end Sys2Proof.Machine
end

section
/-! R567 to R571, R576, R635: store sessions (O33). -/

namespace Sys2Proof.Machine

theorem exec_storeSessionConnected (i : Nat) (r : Connect) (s : State) :
    exec (.storeSessionConnected i r) s = .next (settle s (storeSessionConnectedEffect i r s)) := rfl
theorem exec_sessionClose (i : Nat) (why : CloseWhy) (s : State) :
    exec (.sessionClose i why) s = .next (settle s (sessionCloseEffect i why s)) := rfl
theorem exec_keepAlive (i : Nat) (s : State) : exec (.keepAlive i) s = .next (settle s (keepAliveEffect i s)) := rfl
theorem exec_keepAliveTimeout (i : Nat) (s : State) :
    exec (.keepAliveTimeout i) s = .next (settle s (keepAliveTimeoutEffect i s)) := rfl
theorem exec_nvmeCompletion (i status : Nat) (s : State) :
    exec (.nvmeCompletion i status) s = .next (settle s (nvmeCompletionEffect i status s)) := rfl
theorem exec_storeConnect (f : Nat) (s : State) : exec (.storeConnect f) s = .next (settle s (storeConnectEffect f s)) := rfl
theorem exec_storeDisconnect (f : Nat) (s : State) : exec (.storeDisconnect f) s = .next (settle s (storeDisconnectEffect f s)) := rfl

/-! ### Sessions that a device has -/

section
variable {s t : State} {i : Nat}

theorem State.session_lt_of {α : Type} {f : Session → α} (h : f (s.session i) ≠ f {}) : i < s.sessions.length := by
  by_contra hi
  exact h (congrArg f (List.getD_eq_default _ _ (Nat.not_lt.1 hi)))

theorem State.session_eq_of_sessions (h : t.sessions = s.sessions) (i : Nat) : t.session i = s.session i := by rw [State.session, h]

end

/-! ### A drain that fails (R576) -/

section
variable (s : State) (p status : Nat)

theorem State.failDrain_part_ne {q : Nat} (h : q ≠ p) : (s.failDrain p status).part q = s.part q := by
  unfold State.failDrain State.ckpEvent
  rw [State.part, State.raise_parts, ← State.part, State.part_modPart_ne _ _ _ _ h.symm, State.part_modPart_ne _ _ _ _ h.symm]
  rfl

variable {s p} in
theorem State.failDrain_ckp (h : p < s.parts.length) :
    ((s.failDrain p status).part p).ckp.drain = none ∧ ((s.failDrain p status).part p).ckp.event.getLsbD 2 = true := by
  unfold State.failDrain State.ckpEvent
  extract_lets k left u
  have hp : p < u.parts.length := h
  rw [State.part, State.raise_parts, ← State.part, State.part_modPart _ _ _ (by simpa using hp), State.part_modPart _ _ _ hp]
  exact ⟨rfl, getLsbD_setBit_self _ (by decide)⟩

/-- What a session is, the count of its commands for other drains left out. -/
def Session.core (e : Session) : Session := { e with others := 0 }

/-- What the sessions are, those counts left out. -/
def State.sessionCores (s : State) : List Session := s.sessions.map Session.core

theorem State.failDrain_sessionCores : (s.failDrain p status).sessionCores = s.sessionCores := by
  unfold State.failDrain State.ckpEvent
  extract_lets k left u
  rw [State.sessionCores, State.raise_sessions]
  refine List.ext_getElem (by simp [State.sessionCores, u]) fun j _ _ => ?_
  simp only [State.sessionCores, State.modPart_sessions, u, State.modSession_sessions, List.getElem_map, List.getElem_modify]
  split <;> rfl

theorem State.failDrain_fns : (s.failDrain p status).fns = s.fns := by
  unfold State.failDrain State.ckpEvent
  rw [State.raise_fns]
  rfl

end

/-! ### A session that goes down (R570, R576) -/

/-- Steps that each reach one partition: what the fold leaves of a partition of the list, the step on it leaves. -/
theorem State.part_foldl_of_mem {f : State → Nat → State} (h : ∀ s p q, q ≠ p → (f s p).part q = s.part q) {xs : List Nat} (hn : xs.Nodup)
    {p : Nat} (hp : p ∈ xs) (s : State) : ∃ u : State, u.part p = s.part p ∧ (xs.foldl f s).part p = (f u p).part p := by
  have hout : ∀ (ys : List Nat) (s : State), p ∉ ys → (ys.foldl f s).part p = s.part p := by
    intro ys
    induction ys with
    | nil => intro s _; rfl
    | cons y ys ih =>
      intro s hy
      obtain ⟨hy, hys⟩ := not_or.1 (mt List.mem_cons.2 hy)
      exact (ih _ hys).trans (h s y p hy)
  induction xs generalizing s with
  | nil => cases hp
  | cons x xs ih =>
    obtain ⟨hx, hn⟩ := List.nodup_cons.1 hn
    rcases List.mem_cons.1 hp with rfl | hp
    · exact ⟨s, rfl, hout xs _ hx⟩
    · obtain ⟨u, hu, hf⟩ := ih hn hp (f s x)
      exact ⟨u, hu.trans (h s x p fun hpx => hx (hpx ▸ hp)), hf⟩

section
variable (s : State) (i status : Nat)

/-- The drains of the session i fail. -/
def State.failDrains (s : State) (i status : Nat) : State :=
  (List.range 6).foldl (fun s p => if (s.part p).ckp.session = i && (s.part p).ckp.drain.isSome then s.failDrain p status else s) s

/-- A session that goes down, its waiting STORE_CONNECT answered. -/
def State.closing (s : State) (i : Nat) : State :=
  let u := s.modSession i fun y => { y with state := .down, id := none, rx := [], keepAlive := 0, disagree := 0 }
  match (s.session i).id with
  | some id => u.finish id 0xFF stABORTED 0x6D
  | none => u

theorem State.sessionDown_eq : s.sessionDown i status = ((s.closing i).failDrains i status).modSession i fun y => { y with others := 0 } :=
  rfl

theorem State.closing_parts : (s.closing i).parts = s.parts := by
  unfold State.closing
  split <;> rfl

theorem State.closing_sessions : (s.closing i).sessions =
    s.sessions.modify i fun y => { y with state := .down, id := none, rx := [], keepAlive := 0, disagree := 0 } := by
  unfold State.closing
  split <;> rfl

theorem State.closing_epochs : (s.closing i).epochs = s.epochs := by
  unfold State.closing
  dsimp only
  split
  · rw [State.finish_epochs]
    rfl
  · rfl

theorem State.failDrains_sessionCores : (s.failDrains i status).sessionCores = s.sessionCores :=
  foldl_keeps (view := State.sessionCores) (fun s p => view_ite _ (s.failDrain_sessionCores p status) rfl) _ s

theorem State.failDrains_fns : (s.failDrains i status).fns = s.fns :=
  foldl_keeps (view := State.fns) (fun s p => view_ite _ (s.failDrain_fns p status) rfl) _ s

theorem State.sessionDown_fns : (s.sessionDown i status).fns = (s.closing i).fns := by
  rw [State.sessionDown_eq, State.modSession_fns, State.failDrains_fns]

theorem State.sessionDown_epochs : (s.sessionDown i status).epochs = s.epochs :=
  (State.epochs_of_fns (s.sessionDown_fns i status)).trans (s.closing_epochs i)

theorem State.sessionDown_sessionCores : (s.sessionDown i status).sessionCores = (s.closing i).sessionCores := by
  rw [State.sessionDown_eq, ← State.failDrains_sessionCores (s.closing i) i status]
  generalize (s.closing i).failDrains i status = u
  refine List.ext_getElem (by simp [State.sessionCores]) fun j _ _ => ?_
  simp only [State.sessionCores, State.modSession_sessions, List.getElem_map, List.getElem_modify]
  split <;> rfl

theorem State.sessionDown_sessions_length : (s.sessionDown i status).sessions.length = s.sessions.length := by
  simpa [State.sessionCores, State.closing_sessions] using congrArg List.length (s.sessionDown_sessionCores i status)

/-- What the session i keeps as it goes down, its count of commands for other drains left out. -/
theorem State.sessionDown_core (h : i < s.sessions.length) : ((s.sessionDown i status).session i).core =
    { s.session i with state := .down, id := none, rx := [], keepAlive := 0, disagree := 0, others := 0 } := by
  have hcore := congrArg (fun xs => xs.getD i ({} : Session).core) (s.sessionDown_sessionCores i status)
  simp only [State.sessionCores, List.getD_eq_getElem?_getD, List.getElem?_map, Option.getD_map] at hcore
  simp only [← List.getD_eq_getElem?_getD, State.closing_sessions] at hcore
  rw [getD_modify_same _ _ _ _ h] at hcore
  exact hcore

variable {s i}

/-- R570: the session is DOWN. -/
theorem State.sessionDown_state : ((s.sessionDown i status).session i).state = .down := by
  by_cases h : i < s.sessions.length
  · exact (congrArg Session.state (s.sessionDown_core i status h) :)
  · exact congrArg Session.state (List.getD_eq_default _ _ (by rw [State.sessionDown_sessions_length]; exact Nat.not_lt.1 h))

/-- A session that goes down keeps its count of digest errors. -/
theorem State.sessionDown_digestErrors (h : i < s.sessions.length) :
    ((s.sessionDown i status).session i).digestErrors = (s.session i).digestErrors :=
  (congrArg Session.digestErrors (s.sessionDown_core i status h) :)

/-- R576: the drains on the session fail. -/
theorem State.sessionDown_drain {p : Nat} (hp : p < 6) (hs : (s.part p).ckp.session = i) (hd : (s.part p).ckp.drain.isSome = true) :
    ((s.sessionDown i status).part p).ckp.drain = none ∧ ((s.sessionDown i status).part p).ckp.event.getLsbD 2 = true := by
  obtain ⟨u, hu, hf⟩ := State.part_foldl_of_mem
    (f := fun s p => if (s.part p).ckp.session = i && (s.part p).ckp.drain.isSome then s.failDrain p status else s)
    (fun s p q hq => by
      split
      · exact s.failDrain_part_ne p status hq
      · rfl) List.nodup_range (List.mem_range.2 hp) (s.closing i)
  rw [State.part_eq_of_parts (s.closing_parts i)] at hu
  have hlen : p < u.parts.length := State.part_lt_of (f := fun x => x.ckp.drain.isSome) (by rw [hu, hd]; decide)
  rw [State.sessionDown_eq, State.part, State.modSession_parts, ← State.part, State.failDrains, hf,
    if_pos (by rw [hu, hd, hs, Bool.and_true]; exact decide_eq_true rfl)]
  exact State.failDrain_ckp status hlen

/-- A session that no drain uses goes down alone. -/
theorem State.sessionDown_parts (h : (s.parts.any fun y => y.ckp.session = i && y.ckp.drain.isSome) = false) :
    (s.sessionDown i status).parts = s.parts := by
  have hp (p : Nat) : ¬ (((s.closing i).part p).ckp.session = i && ((s.closing i).part p).ckp.drain.isSome) = true := by
    rw [State.part_eq_of_parts (s.closing_parts i), State.part, List.getD]
    cases hx : s.parts[p]? with
    | none => simp
    | some x => simpa using List.any_eq_false.1 h x (List.mem_of_getElem? hx)
  have hnone : (s.closing i).failDrains i status = s.closing i := List.foldl_fixed' (fun p => if_neg (hp p)) _
  rw [State.sessionDown_eq, hnone, State.modSession_parts, s.closing_parts]

end

/-! ### The outcome of a session that opens (R568, R569) -/

section
variable {s : State} {i : Nat} {id : PktId}

section
variable (hs : (s.session i).state = .connecting) (hid : (s.session i).id = some id)
include hs hid

theorem storeSessionConnectedEffect_failed : storeSessionConnectedEffect i .failed s =
    (s.modSession i fun e => { e with state := .down, id := none }).finish id 0xFF stABORTED 0x6D := by
  simp only [storeSessionConnectedEffect, hs, hid]

theorem storeSessionConnectedEffect_connected (lba : Nat) (md : Bool) (size alive : Nat) :
    storeSessionConnectedEffect i (.connected lba md true size alive) s =
      if lba != 4096 || md then (s.modSession i fun e => { e with state := .down, id := none }).finish id 0xFF stSHAPE 0
      else (s.modSession i fun e =>
        { e with state := .connected, id := none, sizeLbas := size, keepAlive := alive, aliveAt := s.beat.periods }).finish id 0xFF
          stOK 0 size := by
  simp only [storeSessionConnectedEffect, hs, hid]
  rfl

end

/-- An update of the session with its STORE_CONNECT's answer. -/
theorem session_answered_of_finish {e : Instr} {g : Session → Session} {status detail r0 : Nat} (hi : i < s.sessions.length)
    (hh : s.hears id) {u : State} (he : exec e s = .next (settle s u)) (hu : u = (s.modSession i g).finish id 0xFF status detail r0) :
    ∃ t, exec e s = .next t ∧ t.session i = g (s.session i) ∧ t.answered id 0xFF status detail r0 0 0 := by
  refine ⟨_, he, ?_, (State.hears.answered_of (s := s.modSession i g) hh _ _ _ _ _ _ (.settle s u) (by rw [hu]))⟩
  rw [State.session, settle_sessions, hu, ← State.session]
  exact s.session_modSession i g hi

theorem storeSessionConnected_clauses (hs : (s.session i).state = .connecting) (hid : (s.session i).id = some id) (hh : s.hears id) :
    (∀ size alive, ∃ t, exec (.storeSessionConnected i (.connected 4096 false true size alive)) s = .next t ∧
      t.session i = { s.session i with
        state := .connected, id := none, sizeLbas := size, keepAlive := alive, aliveAt := s.beat.periods } ∧
      t.answered id 0xFF 0 0 size 0 0) ∧
    (∀ lba md size alive, lba ≠ 4096 ∨ md = true → ∃ t, exec (.storeSessionConnected i (.connected lba md true size alive)) s = .next t ∧
      (t.session i).state = .down ∧ t.answered id 0xFF 7 0 0 0 0) ∧
    (∃ t, exec (.storeSessionConnected i .failed) s = .next t ∧ (t.session i).state = .down ∧ t.answered id 0xFF 0xE 0x6D 0 0 0) := by
  have hi : i < s.sessions.length := State.session_lt_of (f := Session.state) (by rw [hs]; decide)
  refine ⟨fun size alive => ?_, fun lba md size alive hbad => ?_, ?_⟩
  · obtain ⟨t, he, ht, ha⟩ := session_answered_of_finish hi hh (exec_storeSessionConnected ..)
      (storeSessionConnectedEffect_connected hs hid 4096 false size alive)
    exact ⟨t, he, ht, ha⟩
  · obtain ⟨t, he, ht, ha⟩ := session_answered_of_finish hi hh (exec_storeSessionConnected ..)
      ((storeSessionConnectedEffect_connected hs hid lba md size alive).trans (if_pos (by simpa using hbad)))
    exact ⟨t, he, by rw [ht], ha⟩
  · obtain ⟨t, he, ht, ha⟩ := session_answered_of_finish hi hh (exec_storeSessionConnected ..)
      (storeSessionConnectedEffect_failed hs hid)
    exact ⟨t, he, by rw [ht], ha⟩

end

/-! ### Sessions that close, Keep Alive and completions (R568, R570, R571, R576) -/

section
variable {s : State} {i : Nat}

/-- R576: what a session that goes down leaves of the drains on it. -/
def State.drainsFailed (s t : State) (i : Nat) : Prop :=
  ∀ p < 6, (s.part p).ckp.session = i → (s.part p).ckp.drain.isSome = true →
    (t.part p).ckp.drain = none ∧ (t.part p).ckp.event.getLsbD 2 = true

theorem State.drainsFailed_sessionDown (status : Nat) (a : State) : s.drainsFailed (settle a (s.sessionDown i status)) i :=
  fun p hp hs hd => by
    rw [State.part_eq_of_parts (settle_parts ..)]
    exact State.sessionDown_drain status hp hs hd

theorem sessionClose_clause (hs : (s.session i).state ≠ .down) (why : CloseWhy) :
    ∃ t, exec (.sessionClose i why) s = .next t ∧ (t.session i).state = .down ∧
      (t.session i).digestErrors = (if why = .digest then satAdd32 (s.session i).digestErrors 1 else (s.session i).digestErrors) ∧
      s.drainsFailed t i := by
  have hi : i < s.sessions.length := State.session_lt_of (f := Session.state) hs
  refine ⟨_, exec_sessionClose i why s, ?_⟩
  rw [State.session_eq_of_sessions (settle_sessions ..), sessionCloseEffect, if_neg hs]
  by_cases hw : why = .digest
  · rw [if_pos hw, if_pos hw]
    refine ⟨State.sessionDown_state 0, ?_, State.drainsFailed_sessionDown (s := s.modSession i _) 0 s⟩
    rw [State.sessionDown_digestErrors 0 (by simpa using hi), State.session_modSession _ _ _ hi]
  · rw [if_neg hw, if_neg hw]
    exact ⟨State.sessionDown_state 0, State.sessionDown_digestErrors 0 hi, State.drainsFailed_sessionDown 0 s⟩

theorem keepAliveTimeout_clause (hs : (s.session i).state = .connected) :
    ∃ t, exec (.keepAliveTimeout i) s = .next t ∧ (t.session i).state = .down ∧ s.drainsFailed t i := by
  refine ⟨_, exec_keepAliveTimeout i s, ?_⟩
  rw [State.session_eq_of_sessions (settle_sessions ..), keepAliveTimeoutEffect, if_pos hs]
  exact ⟨State.sessionDown_state 0, State.drainsFailed_sessionDown 0 s⟩

theorem keepAlive_due (hs : (s.session i).state = .connected) (hdue : (s.session i).aliveAt + (s.session i).keepAlive / 2 ≤ s.beat.periods) :
    keepAliveEffect i s = { s with
      sessions := s.sessions.modify i fun e => { e with aliveAt := s.beat.periods }, out := .keepAlive i :: s.out } :=
  if_pos (by rw [hs]; simpa using hdue)

theorem nvmeCompletion_connected (hs : (s.session i).state = .connected) (status : Nat) :
    nvmeCompletionEffect i status s = { s with sessions := s.sessions.modify i fun e => { e with rx := e.rx ++ [(s.beat.periods, status)] } } := by
  rw [nvmeCompletionEffect, if_pos hs]
  rfl

end

/-! ### STORE_CONNECT and STORE_DISCONNECT -/

section
variable {s : State} {f i : Nat} {x : Pkt}

/-- A STORE_CONNECT whose fields are legal (R567). -/
structure Pkt.connectFits (x : Pkt) (s : State) : Prop where
  session : x.u 0x20 1 ≤ 7
  port : x.u 0x21 1 ≤ 1
  family : x.u 0x23 1 = 4 ∨ x.u 0x23 1 = 6
  params : x.paramLen = 512
  owner : s.partExists (x.u 0x22 1) = true

theorem Pkt.connectFits.not_refused (h : x.connectFits s) :
    ¬ (7 < x.u 0x20 1 || 1 < x.u 0x21 1 || (x.u 0x23 1 != 4 && x.u 0x23 1 != 6) || x.paramLen != 512 || !s.partExists (x.u 0x22 1)) = true := by
  obtain ⟨hn, hp, hf, hl, ho⟩ := h
  have hf : (x.u 0x23 1 != 4 && x.u 0x23 1 != 6) = false := by rcases hf with hf | hf <;> simp [hf]
  simp [hn, hp, hf, hl, ho]

/-- A packet refused: it is answered, and partitions and sessions stay as they are. -/
theorem refused_of_admits {op : Nat} {run : PktId → Nat → Pkt → State → State} {p status detail : Nat} (ha : s.admits f op i x)
    (hr : run (s.pktId f x) (x.part f) x (s.takePkt f i) = (s.takePkt f i).refuse (s.pktId f x) p status detail) :
    (settle s (s.admitPkt f op run)).answered (s.pktId f x) p status detail 0 0 0 ∧
      (settle s (s.admitPkt f op run)).parts = s.parts ∧ (settle s (s.admitPkt f op run)).sessions = s.sessions := by
  have hk := State.admitPkt_answersMore ha hr
  exact ⟨(State.hears_takePkt ha).answered_of _ _ _ _ _ _ hk rfl, hk.parts, hk.sessions⟩

/-- What a packet's own effect leaves, and what it sends out, stays as its command ends. -/
theorem admitPkt_answersMore_out {op : Nat} {run : PktId → Nat → Pkt → State → State} {u : State} (ha : s.admits f op i x)
    (hr : run (s.pktId f x) (x.part f) x (s.takePkt f i) = u) :
    u.AnswersMore (settle s (s.admitPkt f op run)) ∧ ∀ o ∈ u.out, o ∈ (settle s (s.admitPkt f op run)).out :=
  ⟨State.admitPkt_answersMore ha hr, fun _ ho => mem_out_admitPkt ha hr ho⟩

/-- STORE_CONNECT opens a session that is DOWN. -/
def State.connecting (s : State) (id : PktId) (x : Pkt) : State :=
  (s.modSession (x.u 0x20 1) fun e =>
    { e with state := .connecting, port := x.u 0x21 1, owner := x.u 0x22 1, id := some id, rx := [] }).emit (.connect (x.u 0x20 1))

theorem storeConnect_clauses (ha : s.admits f 0x21 i x) (h : x.connectFits s) :
    (s.latched (32 + x.u 0x20 1) = true → ∃ t, exec (.storeConnect f) s = .next t ∧ t.answered (s.pktId f x) 0xFF 0xF 0 0 0 0 ∧
      t.sessions = s.sessions) ∧
    (s.latched (32 + x.u 0x20 1) = false → (s.session (x.u 0x20 1)).state ≠ .down → ∃ t, exec (.storeConnect f) s = .next t ∧
      t.answered (s.pktId f x) 0xFF 1 0 0 0 0 ∧ t.sessions = s.sessions) ∧
    (s.latched (32 + x.u 0x20 1) = false → (s.session (x.u 0x20 1)).state = .down → ∃ t, exec (.storeConnect f) s = .next t ∧
      Output.connect (x.u 0x20 1) ∈ t.out ∧ t.sessions = s.sessions.modify (x.u 0x20 1) fun e =>
        { e with state := .connecting, port := x.u 0x21 1, owner := x.u 0x22 1, id := some (s.pktId f x), rx := [] }) := by
  refine ⟨fun hl => ⟨_, exec_storeConnect f s, (refused_of_admits ha ((if_neg h.not_refused).trans (if_pos hl))).imp_right And.right⟩,
    fun hl hd => ⟨_, exec_storeConnect f s, (refused_of_admits ha ?_).imp_right And.right⟩, fun hl hd => ⟨_, exec_storeConnect f s, ?_⟩⟩
  · exact (if_neg h.not_refused).trans ((if_neg (Bool.not_eq_true _ ▸ hl)).trans (if_pos (bne_iff_ne.2 hd)))
  · obtain ⟨hk, hout⟩ : State.AnswersMore ((s.takePkt f i).connecting (s.pktId f x) x) (settle s (storeConnectEffect f s)) ∧ _ :=
      admitPkt_answersMore_out ha
        ((if_neg h.not_refused).trans ((if_neg (Bool.not_eq_true _ ▸ hl)).trans (if_neg fun hne => bne_iff_ne.1 hne hd)))
    exact ⟨hout _ List.mem_cons_self, hk.sessions⟩

/-- STORE_DISCONNECT's answer, after its session has closed. -/
def State.disconnected (s : State) (id : PktId) (n : Nat) : State := (s.emit (.disconnect n)).finish id 0xFF stOK 0

theorem State.disconnected_sessions (s : State) (id : PktId) (n : Nat) : (s.disconnected id n).sessions = s.sessions := (rfl)
theorem State.disconnected_parts (s : State) (id : PktId) (n : Nat) : (s.disconnected id n).parts = s.parts := (rfl)
theorem State.disconnected_out (s : State) (id : PktId) (n : Nat) : (s.disconnected id n).out = .disconnect n :: s.out := (rfl)

theorem State.disconnected_answered {s t : State} {id : PktId} (h : s.hears id) (n : Nat) (k : (s.disconnected id n).AnswersMore t) :
    t.answered id 0xFF 0 0 0 0 0 := h.answered_of _ _ _ _ _ _ k rfl

/-- STORE_DISCONNECT closes a session that no drain uses. -/
theorem storeDisconnect_clauses (ha : s.admits f 0x22 i x) (hn : x.u 0x20 1 ≤ 7) :
    ((s.parts.any fun y => y.ckp.session = x.u 0x20 1 && y.ckp.drain.isSome) = true → ∃ t, exec (.storeDisconnect f) s = .next t ∧
      t.answered (s.pktId f x) 0xFF 1 0 0 0 0 ∧ t.sessions = s.sessions) ∧
    ((s.parts.any fun y => y.ckp.session = x.u 0x20 1 && y.ckp.drain.isSome) = false → ∃ t, exec (.storeDisconnect f) s = .next t ∧
      (t.session (x.u 0x20 1)).state = .down ∧ Output.disconnect (x.u 0x20 1) ∈ t.out ∧ t.answered (s.pktId f x) 0xFF 0 0 0 0 0 ∧
      t.parts = s.parts) := by
  have hn : ¬ 7 < x.u 0x20 1 := Nat.not_lt.2 hn
  refine ⟨fun hd => ⟨_, exec_storeDisconnect f s, (refused_of_admits ha ((if_neg hn).trans (if_pos hd))).imp_right And.right⟩,
    fun hd => ⟨_, exec_storeDisconnect f s, ?_⟩⟩
  have hd' : ¬ ((s.takePkt f i).parts.any fun y => y.ckp.session = x.u 0x20 1 && y.ckp.drain.isSome) = true := by
    rw [Bool.not_eq_true]
    exact hd
  obtain ⟨hk, hout⟩ : State.AnswersMore (((s.takePkt f i).sessionDown (x.u 0x20 1) 0).disconnected (s.pktId f x) (x.u 0x20 1))
      (settle s (storeDisconnectEffect f s)) ∧ _ :=
    admitPkt_answersMore_out ha ((if_neg hn).trans (if_neg hd'))
  refine ⟨?_, hout _ (by rw [State.disconnected_out]; exact List.mem_cons_self),
    State.disconnected_answered ((State.hears_takePkt ha).of_epochs (State.sessionDown_epochs ..)) _ hk, hk.parts.trans ?_⟩
  · rw [State.session_eq_of_sessions (hk.sessions.trans (State.disconnected_sessions ..))]
    exact State.sessionDown_state 0
  · rw [State.disconnected_parts, State.sessionDown_parts 0 (by rw [← Bool.not_eq_true]; exact hd')]
    rfl

end

/-- Settles O33, event by event and packet by packet. -/
theorem storeSessions : Obligations.StoreSessions := by
  refine ⟨fun s i => ⟨fun id hs hid hh => storeSessionConnected_clauses hs hid hh, fun hs why => sessionClose_clause hs why,
    fun hs => ⟨keepAliveTimeout_clause hs, fun hdue => ?_, fun status => ?_⟩⟩,
    fun s f i x => ⟨fun ha hn hp hf hl ho => storeConnect_clauses ha ⟨hn, hp, hf, hl, ho⟩, fun ha hn => storeDisconnect_clauses ha hn⟩⟩
  · rw [exec_keepAlive, keepAlive_due hs hdue]
  · rw [exec_nvmeCompletion, nvmeCompletion_connected hs]

end Sys2Proof.Machine
end

section
/-! R558 to R561, R583 to R587: CKP_ARM, CKP_DISARM, BUDDY_SET and CKP_RESTORE (O42). -/

namespace Sys2Proof.Machine

theorem exec_ckpArm (f : Nat) (found : Container) (s : State) : exec (.ckpArm f found) s = .next (settle s (ckpArmEffect f found s)) := rfl
theorem exec_ckpDisarm (f : Nat) (s : State) : exec (.ckpDisarm f) s = .next (settle s (ckpDisarmEffect f s)) := rfl
theorem exec_buddySet (f : Nat) (s : State) : exec (.buddySet f) s = .next (settle s (buddySetEffect f s)) := rfl
theorem exec_ckpRestore (f : Nat) (found : Container) (s : State) :
    exec (.ckpRestore f found) s = .next (settle s (ckpRestoreEffect f found s)) := rfl

/-- What a packet's own effect leaves of the partition that it changes. -/
theorem State.AnswersMore.part_modPart {s u t : State} {p : Nat} {g : Part → Part} (k : u.AnswersMore t)
    (hu : u.parts = (s.modPart p g).parts) (hp : p < s.parts.length) : t.part p = g (s.part p) := by
  rw [State.part_eq_of_parts (k.parts.trans hu), State.part_modPart _ _ _ hp]

/-- The answer that an effect of a packet ends with. -/
theorem State.AnswersMore.answered {s u t : State} {id : PktId} {p status detail r0 r1 r2 : Nat}
    (k : (u.finish id p status detail r0 r1 r2).AnswersMore t) (h : s.hears id) (hu : u.fns = s.fns) :
    t.answered id p status detail r0 r1 r2 := ((h.of_fns hu).answered_finish ..).of_answersMore k

/-! ### CKP_ARM -/

section
variable {s : State} {f i : Nat} {x : Pkt} {found : Container}

/-- The generation that a CKP_ARM starts from (R560). -/
def Pkt.armGen (x : Pkt) (found : Container) : Nat := if x.armNew then 0 else Bytes.nat ((foundNewest found).getD []) 8 8

/-- What a CKP_ARM without a refusal sets (R558 to R560). -/
def State.armCkp (s : State) (p : Nat) (x : Pkt) (found : Container) (k : Ckp) : Ckp :=
  { k with
    armed := true, lastGen := BitVec.ofNat 64 (x.armGen found), session := x.armSession, lba := x.armLba
    containerId := if x.armNew then s.beat.count.toNat else Bytes.nat found.superblock 0x18 8
    region := x.armRegion, regionPages := x.armPages, clampBase := x.armClamp, interval := x.armInterval, units := x.armUnits
    dirty := List.range (s.nSlots p * slotPages + x.armPages), pending := []
    held := if x.armNew then [] else foundHeld found ((foundNewest found).getD []) }

/-- The superblock of a new container (R560, R580). -/
def State.armSuperblock (s : State) (p : Nat) (x : Pkt) (fp : Bytes) : Bytes :=
  superblockBytes (s.nSlots p) x.armPages (s.nSlots p * slotPages + x.armPages) s.beat.count.toNat (Config.keyId s.fuses.serial) fp

/-- The superblock of a new container goes out. -/
def State.writeSuperblock (s : State) (x : Pkt) (sb : Bytes) : State :=
  if x.armNew then
    (s.modSession x.armSession fun e => { e with others := e.others + 1 }).emit
      (.nvmeWrite x.armSession x.armLba (Memory.ofBytes 0 sb) 4096)
  else s

section
variable (s : State) (x : Pkt) (sb : Bytes)

theorem State.writeSuperblock_parts : (s.writeSuperblock x sb).parts = s.parts := view_ite _ rfl rfl
theorem State.writeSuperblock_fns : (s.writeSuperblock x sb).fns = s.fns := view_ite _ rfl rfl
theorem sameBytes.writeSuperblock : sameBytes s (s.writeSuperblock x sb) := by
  unfold State.writeSuperblock
  split
  · exact .refl s
  · exact .refl s

variable {x} in
theorem State.writeSuperblock_out (h : x.armNew = true) :
    Output.nvmeWrite x.armSession x.armLba (Memory.ofBytes 0 sb) 4096 ∈ (s.writeSuperblock x sb).out := by
  rw [State.writeSuperblock, if_pos h]
  exact List.mem_cons_self

end

/-- The fingerprint of the partition's program. -/
def Part.fingerprint (y : Part) : Bytes := match y.prog with
  | some g => g.fingerprint
  | none => []

/-- A CKP_ARM without a refusal, before it is answered. -/
def State.armedPart (s : State) (p : Nat) (x : Pkt) (found : Container) : State :=
  (s.modPart p fun y => { y with ckp := s.armCkp p x found y.ckp }).writeSuperblock x (s.armSuperblock p x (s.part p).fingerprint)

/-- A CKP_ARM without a refusal. -/
def State.armedBy (s : State) (id : PktId) (p : Nat) (x : Pkt) (found : Container) : State :=
  (s.armedPart p x found).finish id p stOK 0 (x.armGen found) (s.nSlots p * slotPages + x.armPages)

theorem State.armedPart_parts (s : State) (p : Nat) (x : Pkt) (found : Container) :
    (s.armedPart p x found).parts = (s.modPart p fun y => { y with ckp := s.armCkp p x found y.ckp }).parts :=
  State.writeSuperblock_parts ..

theorem sameBytes.armedBy (s : State) (id : PktId) (p : Nat) (x : Pkt) (found : Container) : sameBytes s (s.armedBy id p x found) :=
  sameBytes.writeSuperblock (s.modPart p fun y => { y with ckp := s.armCkp p x found y.ckp }) x _

theorem State.armAdmitted_of_none {id : PktId} {p : Nat} (h : s.armRefusal p x found = none) :
    s.armAdmitted found id p x = s.armedBy id p x found := by
  unfold State.armAdmitted
  rw [h]
  rfl

theorem State.armAdmitted_of_some {id : PktId} {p : Nat} {r : Nat × Nat} (h : s.armRefusal p x found = some r) :
    s.armAdmitted found id p x = s.refuse id p r.1 r.2 := by
  unfold State.armAdmitted
  rw [h]

/-- CKP_ARM: refused, or the checkpoint of the partition is armed. -/
theorem ckpArm_clauses (ha : s.admits f 0x18 i x) :
    (∀ r, s.armRefusal (x.part f) x found = some r → ∃ t, exec (.ckpArm f found) s = .next t ∧
      t.answered (s.pktId f x) (x.part f) r.1 r.2 0 0 0 ∧ t.parts = s.parts) ∧
    (s.armRefusal (x.part f) x found = none → ∃ t, exec (.ckpArm f found) s = .next t ∧
      (t.part (x.part f)).ckp = s.armCkp (x.part f) x found (s.part (x.part f)).ckp ∧
      (x.armNew = true → ∃ data, Output.nvmeWrite x.armSession x.armLba data 4096 ∈ t.out) ∧
      t.answered (s.pktId f x) (x.part f) 0 0 (x.armGen found) (s.nSlots (x.part f) * slotPages + x.armPages) 0 ∧ sameBytes s t) := by
  refine ⟨fun r hr => ⟨_, exec_ckpArm f found s, (refused_of_admits ha (State.armAdmitted_of_some hr)).imp_right And.left⟩,
    fun hr => ⟨_, exec_ckpArm f found s, ?_⟩⟩
  have hp : x.part f < s.parts.length := State.part_lt_of_admits ha rfl (by decide)
  have hu := State.armAdmitted_of_none (id := s.pktId f x) (s := s.takePkt f i) hr
  obtain ⟨hk, hout⟩ : State.AnswersMore _ (settle s (ckpArmEffect f found s)) ∧ _ := admitPkt_answersMore_out ha hu
  refine ⟨?_, fun hnew => ⟨_, hout _ (State.writeSuperblock_out _ _ hnew)⟩, ?_, ?_⟩
  · rw [hk.part_modPart (s := s.takePkt f i) (State.armedPart_parts ..) hp]
    rfl
  · exact hk.answered (State.hears_takePkt ha) (State.writeSuperblock_fns ..)
  · exact (sameBytes.armedBy (s.takePkt f i) (s.pktId f x) (x.part f) x found).of_answersMore hk

/-! ### CKP_DISARM and BUDDY_SET -/

theorem ckpDisarm_clause (ha : s.admits f 0x19 i x) : ∃ t, exec (.ckpDisarm f) s = .next t ∧
    (t.part (x.part f)).ckp = { (s.part (x.part f)).ckp with armed := false, dirty := [] } ∧
    t.answered (s.pktId f x) (x.part f) 0 0 0 0 0 ∧ sameBytes s t := by
  have hp : x.part f < s.parts.length := State.part_lt_of_admits ha rfl (by decide)
  have hk : State.AnswersMore _ (settle s (ckpDisarmEffect f s)) := State.admitPkt_answersMore ha rfl
  refine ⟨_, exec_ckpDisarm f s, ?_, hk.answered (State.hears_takePkt ha) rfl, sameBytes.of_answersMore ?_ hk⟩
  · rw [hk.part_modPart (s := s) (g := fun y => { y with ckp := { y.ckp with armed := false, dirty := [] } }) rfl hp]
  · exact .refl s

/-- What a BUDDY_SET that turns the buddy area off leaves of a partition. -/
def Part.buddyOff (y : Part) : Part :=
  { y with ckp := { y.ckp with buddyOn := false, buddyDirty := [], buddyBase := 0, buddyN := 0, buddySlot1 := [] } }

/-- What a BUDDY_SET that places the buddy area leaves of a partition, its pages about to be copied. -/
def Part.buddyAtBase (y : Part) (id : PktId) (base n : Nat) : Part :=
  { y with await := some (id, 0, 0), ckp := { y.ckp with buddyOn := true, buddyBase := base, buddyN := n, buddySlot1 := [] } }

/-- A buddy pause with every page to copy. -/
def Part.copyAll (y : Part) (now : Nat) : Part :=
  { y with stop := .pause (now + 32 * slotPages), ckp := { y.ckp with buddyDirty := y.ckp.allBuddy } }

/-- No work of the partition turns a BUDDY_SET away. -/
theorem State.buddyAdmitted_of_idle {id : PktId} {p : Nat} (ht : (s.part p).hasTask = false) (hl : (s.part p).hasLaunch = false)
    (hj : (s.part p).load = none) (hw : (s.part p).await = none) :
    s.buddyAdmitted id p x =
      if x.u 0x28 8 = 0 then (s.modPart p Part.buddyOff).finish id p stOK 0
      else if x.u 0x28 8 % 65536 != 0 || decide ((s.part p).hbmBytes < x.u 0x28 8 + s.buddySlots p * 234881024) then s.refuse id p stSPACE 0
      else (s.modPart p fun y => y.buddyAtBase id (x.u 0x28 8) (s.buddySlots p)).copyAll p :=
  if_neg (by rw [ht, hl, hj, hw]; decide)

theorem buddySet_deferred (ha : s.admits f 0x1B i x) (ht : (s.part (x.part f)).hasTask = true) :
    ∃ t, exec (.buddySet f) s = .next t ∧ t.answered (s.pktId f x) (x.part f) 1 0 0 0 0 ∧ t.parts = s.parts := by
  refine ⟨_, exec_buddySet f s, (refused_of_admits ha (if_pos ?_)).imp_right And.left⟩
  exact (by rw [ht]; rfl : ((s.part (x.part f)).hasTask || (s.part (x.part f)).hasLaunch || (s.part (x.part f)).load.isSome ||
    (s.part (x.part f)).await.isSome) = true)

section
variable (ha : s.admits f 0x1B i x) (ht : (s.part (x.part f)).hasTask = false) (hl : (s.part (x.part f)).hasLaunch = false)
  (hj : (s.part (x.part f)).load = none) (hw : (s.part (x.part f)).await = none)
include ha ht hl hj hw

theorem buddySet_off (hb : x.u 0x28 8 = 0) : ∃ t, exec (.buddySet f) s = .next t ∧ t.part (x.part f) = (s.part (x.part f)).buddyOff ∧
    t.answered (s.pktId f x) (x.part f) 0 0 0 0 0 ∧ sameBytes s t := by
  have hp : x.part f < s.parts.length := State.part_lt_of_admits ha rfl (by decide)
  have hk : State.AnswersMore _ (settle s (buddySetEffect f s)) :=
    State.admitPkt_answersMore ha ((State.buddyAdmitted_of_idle (s := s.takePkt f i) ht hl hj hw).trans (if_pos hb))
  refine ⟨_, exec_buddySet f s, hk.part_modPart (s := s) rfl hp, hk.answered (State.hears_takePkt ha) rfl,
    sameBytes.of_answersMore ?_ hk⟩
  exact .refl s

theorem buddySet_placed (hb : x.u 0x28 8 ≠ 0) (hal : x.u 0x28 8 % 65536 = 0)
    (hfit : x.u 0x28 8 + s.buddySlots (x.part f) * 234881024 ≤ (s.part (x.part f)).hbmBytes) :
    ∃ t, exec (.buddySet f) s = .next t ∧
      t.part (x.part f) = ((s.part (x.part f)).buddyAtBase (s.pktId f x) (x.u 0x28 8) (s.buddySlots (x.part f))).copyAll s.now ∧
      sameBytes s t := by
  have hp : x.part f < s.parts.length := State.part_lt_of_admits ha rfl (by decide)
  have hk : State.AnswersMore _ (settle s (buddySetEffect f s)) :=
    State.admitPkt_answersMore ha ((State.buddyAdmitted_of_idle (s := s.takePkt f i) ht hl hj hw).trans ((if_neg hb).trans (if_neg ?_)))
  · refine ⟨_, exec_buddySet f s, ?_, sameBytes.of_answersMore ?_ hk⟩
    · rw [hk.part_modPart (g := fun y => y.copyAll s.now) rfl (by rw [State.modPart_parts, List.length_modify]; exact hp)]
      exact congrArg (Part.copyAll · s.now) (State.part_modPart (s.takePkt f i) _ _ hp)
    · exact .refl s
  · show ¬ (x.u 0x28 8 % 65536 != 0 || decide ((s.part (x.part f)).hbmBytes < x.u 0x28 8 + s.buddySlots (x.part f) * 234881024)) = true
    rw [hal, decide_eq_false (Nat.not_lt.2 hfit)]
    decide

end

/-! ### CKP_RESTORE -/

/-- What the pages that a restore replaces leave as it is: the partitions and the windows. -/
theorem State.setScopePage_partsFns (s : State) (p q : Nat) (m : Mem) :
    ((s.setScopePage p q m).parts, (s.setScopePage p q m).fns) = (s.parts, s.fns) := by
  unfold State.setScopePage
  extract_lets n
  split <;> rfl

/-- The pages of a generation are in their places (R585). -/
def State.restorePages (s : State) (p : Nat) (found : Container) (h : Bytes) : State :=
  (foundHeld found h).foldl (fun s x => s.setScopePage p x.1 (foundPage found x.2 x.1)) s

theorem State.restorePages_partsFns (s : State) (p : Nat) (found : Container) (h : Bytes) :
    ((s.restorePages p found h).parts, (s.restorePages p found h).fns) = (s.parts, s.fns) :=
  foldl_keeps (view := fun s : State => (s.parts, s.fns)) (fun s x => s.setScopePage_partsFns p x.1 (foundPage found x.2 x.1)) _ s

theorem State.restorePages_parts (s : State) (p : Nat) (found : Container) (h : Bytes) : (s.restorePages p found h).parts = s.parts :=
  congrArg Prod.fst (s.restorePages_partsFns p found h)

theorem State.restorePages_fns (s : State) (p : Nat) (found : Container) (h : Bytes) : (s.restorePages p found h).fns = s.fns :=
  congrArg Prod.snd (s.restorePages_partsFns p found h)

/-- What a restored generation leaves of a partition. -/
def Part.restored (y : Part) (found : Container) (h : Bytes) : Part :=
  { y with ckp := { y.ckp with dirty := [], lastGen := BitVec.ofNat 64 (Bytes.nat h 8 8), held := foundHeld found h } }

/-- A CKP_RESTORE that starts (R583). -/
structure State.canRestore (s : State) (p : Nat) : Prop where
  armed : (s.part p).ckp.armed = true
  loaded : (s.part p).shownState = .loaded
  load : (s.part p).load = none
  await : (s.part p).await = none
  active : (s.activeBenches p).length = s.nSlots p

theorem State.restoreAdmitted_of_unarmed {id : PktId} {p : Nat} (h : (s.part p).ckp.armed = false) :
    s.restoreAdmitted found id p x = s.refuse id p stDEFERRED 0 := if_pos (by rw [h]; rfl)

section
variable {id : PktId} {p : Nat} (hc : s.canRestore p)
include hc

theorem State.restoreAdmitted_of_no_header (hn : foundNewest found = none) :
    s.restoreAdmitted found id p x = s.refuse id p stSHAPE 0 := by
  obtain ⟨ha, hl, hj, hw, hb⟩ := hc
  unfold State.restoreAdmitted
  simp only [ha, hl, hj, hw, hb, hn, bne_self_eq_false, Option.isSome_none, Bool.not_true, Bool.or_self, Bool.false_eq_true, if_false]

/-- R584 to R586: the newest header's generation, without buddy copies. -/
theorem State.restoreAdmitted_of_header {h : Bytes} (hn : foundNewest found = some h)
    (hs : superblockOk found.superblock (s.nSlots p) (s.part p).ckp.regionPages (s.scopePages p) = true)
    (hon : (s.part p).ckp.buddyOn = false) :
    s.restoreAdmitted found id p x = ((s.restorePages p found h).modPart p fun y => y.restored found h).finish id p stOK 0 (Bytes.nat h 8 8)
      (foundHeld found h).length := by
  obtain ⟨ha, hl, hj, hw, hb⟩ := hc
  unfold State.restoreAdmitted
  simp only [ha, hl, hj, hw, hb, hn, hs, hon, bne_self_eq_false, Option.isSome_none, Bool.not_true, Bool.or_self, Bool.false_eq_true,
    if_false]
  rfl

end

theorem ckpRestore_clauses (ha : s.admits f 0x1A i x) :
    ((s.part (x.part f)).ckp.armed = false → ∃ t, exec (.ckpRestore f found) s = .next t ∧
      t.answered (s.pktId f x) (x.part f) 1 0 0 0 0 ∧ t.parts = s.parts) ∧
    (s.canRestore (x.part f) →
      (foundNewest found = none → ∃ t, exec (.ckpRestore f found) s = .next t ∧
        t.answered (s.pktId f x) (x.part f) 7 0 0 0 0 ∧ t.parts = s.parts) ∧
      (∀ h, foundNewest found = some h →
        superblockOk found.superblock (s.nSlots (x.part f)) (s.part (x.part f)).ckp.regionPages (s.scopePages (x.part f)) = true →
        (s.part (x.part f)).ckp.buddyOn = false → ∃ t, exec (.ckpRestore f found) s = .next t ∧
          t.part (x.part f) = (s.part (x.part f)).restored found h ∧
          t.answered (s.pktId f x) (x.part f) 0 0 (Bytes.nat h 8 8) (foundHeld found h).length 0)) := by
  have hp : x.part f < s.parts.length := State.part_lt_of_admits ha rfl (by decide)
  refine ⟨fun hun => ⟨_, exec_ckpRestore f found s,
    (refused_of_admits ha (State.restoreAdmitted_of_unarmed (s := s.takePkt f i) hun)).imp_right And.left⟩, fun hc => ?_⟩
  have hc' : (s.takePkt f i).canRestore (x.part f) := ⟨hc.1, hc.2, hc.3, hc.4, hc.5⟩
  refine ⟨fun hn => ⟨_, exec_ckpRestore f found s, (refused_of_admits ha (State.restoreAdmitted_of_no_header hc' hn)).imp_right And.left⟩,
    fun h hn hs hb => ⟨_, exec_ckpRestore f found s, ?_⟩⟩
  have hk : State.AnswersMore _ (settle s (ckpRestoreEffect f found s)) :=
    State.admitPkt_answersMore ha (State.restoreAdmitted_of_header hc' hn hs hb)
  refine ⟨?_, hk.answered (State.hears_takePkt ha) (State.restorePages_fns ..)⟩
  exact hk.part_modPart (s := s) (congrArg (List.modify · _ _) (State.restorePages_parts ..)) hp

end

/-- Settles O42, packet by packet. -/
theorem checkpointPackets : Obligations.CheckpointPackets := by
  refine ⟨fun s f i x => ⟨fun found ha => ?_, ckpDisarm_clause, fun ha => ⟨buddySet_deferred ha, fun ht hl hj hw => ⟨fun hb => ?_,
    fun hb hal hfit => ?_⟩⟩⟩, fun s f i x found ha => ?_⟩
  · obtain ⟨hrefused, harmed⟩ := ckpArm_clauses (found := found) ha
    refine ⟨hrefused, fun hr => ?_⟩
    obtain ⟨t, he, hk, hout, hans, hb⟩ := harmed hr
    refine ⟨t, he, ?_, ?_, ?_, ?_, ?_, ?_, ?_, hout, hans, hb⟩ <;> rw [hk] <;> rfl
  · obtain ⟨t, he, hp, hans, hb⟩ := buddySet_off ha ht hl hj hw hb
    exact ⟨t, he, by rw [hp]; rfl, hans, hb⟩
  · obtain ⟨t, he, hp, hb⟩ := buddySet_placed ha ht hl hj hw hb hal hfit
    refine ⟨t, he, ?_, ?_, ?_, ?_, hb⟩ <;> rw [hp] <;> rfl
  · obtain ⟨hunarmed, hrestore⟩ := ckpRestore_clauses (found := found) ha
    refine ⟨hunarmed, fun hk hl hj hw hb => ?_⟩
    obtain ⟨hnone, hsome⟩ := hrestore ⟨hk, hl, hj, hw, hb⟩
    refine ⟨hnone, fun h hh hs hon => ?_⟩
    obtain ⟨t, he, hp, hans⟩ := hsome h hh hs hon
    refine ⟨t, he, ?_, ?_, ?_, hans⟩ <;> rw [hp] <;> rfl

end Sys2Proof.Machine
end

section
/-! R699, R721: a package reset takes the staging cycle off an entry of the stage (O47). -/

namespace Sys2Proof.Machine

theorem exec_perstAssert (env : StartEnv) (s : State) : exec (.perstAssert env) s = .next (settle s (perstAssertEffect env s)) := rfl

theorem State.bootFirmware_ldg (s : State) : s.bootFirmware.ldg = s.ldg := by
  unfold State.bootFirmware
  split
  · extract_lets s'
    exact view_ite _ rfl (State.raise_ldg ..)
  · rfl

theorem State.finishPages_of_none {s : State} (h : s.ldg.prog = none) : s.finishPages = s := by
  unfold State.finishPages
  rw [h]

theorem State.finishSlot_of_empty {s : State} (h : s.glue.jobs = []) : s.finishSlot = s := by
  unfold State.finishSlot
  rw [h]

/-- R721: the stage after a package reset names neither the stripe of an entry nor the cycle in which it was staged. -/
theorem State.packageReset_stage {s : State} (h : s.ldg.prog = none) (hj : s.glue.jobs = []) (env : StartEnv) {last : Nat} (hl : last ≠ 0) :
    (s.packageReset env last).ldg.stage = s.ldg.stage.map fun e => { e with inStripe := none, at_ := none } := by
  rw [State.packageReset, State.finishPages_of_none h, State.finishSlot_of_empty hj, State.startUp, State.bootFirmware_ldg]
  show (s.ldg.kept (last != 0)).stage = _
  rw [bne_iff_ne.2 hl]
  rfl

/-- A package after reset with one entry that was staged in cycle 0. -/
def State.oneStaged : State := { State.reset with ldg := { State.reset.ldg with stage := [{ at_ := some 0 }] } }

/-- Refutes O47: a package reset clears the staging cycle of an entry of the stage (R494, R721), and the statement keeps it. -/
theorem not_packageResetsAndStops : ¬ Obligations.PackageResetsAndStops := by
  intro h
  obtain ⟨t, he, -, -, -, -, -, -, -, -, -, -, -, -, -, -, -, -, -, -, hstage⟩ :=
    h.1 State.oneStaged {} (.perstAssert {}) 2 (.inr (.inl ⟨rfl, rfl, by decide⟩)) rfl rfl
  have hset : settle State.oneStaged (perstAssertEffect {} State.oneStaged) = t := Host.Outcome.next.inj ((exec_perstAssert ..).symm.trans he)
  have hmodel : t.ldg.stage = [{ at_ := none }] := by
    rw [← hset, settle_ldg, perstAssertEffect, if_pos (by decide), State.packageReset_stage rfl rfl {} (by decide)]
    rfl
  exact absurd (hmodel.symm.trans (hstage (by decide))) (by decide)

end Sys2Proof.Machine
end

section
/-! R401, R625, R702: a reset of a bench or of a virtual function completes the writes that its cores have issued, those of HBM among
them (O48, O49). -/

namespace Sys2Proof.Machine

theorem exec_flr (p : Nat) (s : State) : exec (.flr p) s = .next (settle s (flrEffect p s)) := rfl
theorem exec_benchReset (fn : Nat) (w : W32) (s : State) : exec (.benchReset fn w) s = .next (settle s (benchResetEffect fn w s)) := rfl

/-- A core that has issued a write of the byte at 0 of its activation store to byte 0 of the HBM share. -/
def Core.writingHbm : Core := { dma := { writes := [{ write := true, dstSpace := 2, len := 1, stage := .reading }] } }

/-- Partition 0 runs on bench 0 alone, and a core of the bench is writing a byte 1 to HBM. -/
def State.writingHbm : State :=
  { State.reset with
    life := .up
    parts := State.reset.parts.set 0 { valid := true, seats := 1, hbmSize := 1, state := .running, task := some {} }
    benches := State.reset.benches.set 0 { cores := [Core.writingHbm, {}], act := [(0, 1)], state := .active } }

/-- The function's reset completes the write. -/
theorem State.writingHbm_flr : (flrEffect 0 State.writingHbm).hbm = [(0, 1)] := by decide

/-- The bench's reset completes the write. -/
theorem State.writingHbm_benchReset : (benchResetEffect 0 2 State.writingHbm).hbm = [(0, 1)] := by decide

/-- Refutes O48: the BCH reset of a bench whose core has issued a write of HBM changes HBM (R401). -/
theorem not_benchAndEngineResets : ¬ Obligations.BenchAndEngineResets := by
  intro h
  obtain ⟨-, hbch, -⟩ := h State.writingHbm 2 rfl rfl (by decide)
  obtain ⟨-, howned⟩ := hbch rfl (by decide)
  obtain ⟨t, he, -, -, -, -, -, -, hhbm⟩ := howned 0 (by decide) (by decide) (by decide) (by decide)
  have ht : settle _ (benchResetEffect 0 2 State.writingHbm) = t := Host.Outcome.next.inj ((exec_benchReset ..).symm.trans he)
  rw [← ht, settle_hbm, State.writingHbm_benchReset] at hhbm
  exact absurd hhbm (by decide)

/-- Refutes O49: the FLR of a virtual function whose partition has issued a write of HBM changes HBM (R401). -/
theorem not_functionLevelResets : ¬ Obligations.FunctionLevelResets := by
  intro h
  obtain ⟨hvf, -⟩ := h State.writingHbm rfl
  obtain ⟨t, he, -, -, -, hhbm, -⟩ := hvf 0 (by decide) (by decide)
  have ht : settle _ (flrEffect 0 State.writingHbm) = t := Host.Outcome.next.inj ((exec_flr ..).symm.trans he)
  rw [← ht, settle_hbm, State.writingHbm_flr] at hhbm
  exact absurd hhbm (by decide)

end Sys2Proof.Machine
end

section
/-! R649, R651 to R657: Aivia doorbells, captures, ENABLE, and completions written at AIVIA_CQ_TAIL (O34). -/

namespace Sys2Proof.Machine

section
variable (s : State) (fn f : Nat) (w : W32)
theorem exec_aiviaDoorbell : exec (.aiviaDoorbell fn f w) s = .next (settle s (aiviaDoorbellEffect fn f w s)) := rfl
theorem exec_completionQueueFree : exec (.completionQueueFree fn f w) s = .next (settle s (completionQueueFreeEffect fn f w s)) := rfl
theorem exec_packetCapture (cap : Capture) : exec (.packetCapture f cap) s = .next (settle s (packetCaptureEffect f cap s)) := rfl
theorem exec_completionPost : exec (.completionPost f) s = .next (settle s (completionPostEffect f s)) := rfl
theorem exec_aiviaEnable : exec (.aiviaEnable fn f) s = .next (settle s (aiviaEnableEffect fn f s)) := rfl
theorem exec_aiviaDisable : exec (.aiviaDisable fn f) s = .next (settle s (aiviaDisableEffect fn f s)) := rfl
end

/-- A command whose effect on the windows is one window's. -/
theorem fn_of_modFn {s u : State} {f : Nat} {g : Aivia → Aivia} (hf : f < s.fns.length) (h : u.fns = (s.modFn f g).fns) :
    (settle s u).fn f = g (s.fn f) ∧ ∀ k, k ≠ f → (settle s u).fn k = s.fn k := by
  have hfn (k : Nat) : (settle s u).fn k = (s.modFn f g).fn k := by rw [State.fn, settle_fns, h, ← State.fn]
  exact ⟨(hfn f).trans (s.fn_modFn f g hf), fun k hk => (hfn k).trans (s.fn_modFn_ne f k g hk.symm)⟩

theorem settle_pfCompletion (a b : State) : (settle a b).irq.pfCompletion = b.irq.pfCompletion := by
  obtain ⟨_, h | h⟩ := settle_cases a b <;> rw [h]

section
variable {s : State} {fn f : Nat} (hf : f < s.fns.length)
include hf

/-- R652: a doorbell out of range sets BAD_DOORBELL, any other the tail. -/
theorem aiviaDoorbell_clause (ho : s.aiviaOpen fn f = true) (word : W32) :
    ∃ t, exec (.aiviaDoorbell fn f word) s = .next t ∧
      t.fn f = (if (s.fn f).sqSize < occupied (word.toNat % 8192 % (2 * (s.fn f).sqSize)) (s.fn f).sqHead (s.fn f).sqSize
        then { s.fn f with badDoorbell := true } else { s.fn f with sqTail := word.toNat % 8192 % (2 * (s.fn f).sqSize) }) ∧
      ∀ g, g ≠ f → t.fn g = s.fn g := by
  refine ⟨_, exec_aiviaDoorbell s fn f word, ?_⟩
  unfold aiviaDoorbellEffect
  rw [ho, if_neg (by decide)]
  extract_lets a t
  split
  · exact fn_of_modFn hf (State.raise_fns ..)
  · exact fn_of_modFn hf rfl

theorem completionQueueFree_clause (ho : s.aiviaOpen fn f = true) (word : W32) :
    ∃ t, exec (.completionQueueFree fn f word) s = .next t ∧
      t.fn f = { s.fn f with cqHead := word.toNat % 8192 % (2 * (s.fn f).cqSize) } := by
  refine ⟨_, exec_completionQueueFree s fn f word, ?_⟩
  rw [completionQueueFreeEffect, if_pos ho]
  exact (fn_of_modFn hf rfl).1

/-- R651: a capture joins the gate buffer. -/
theorem packetCapture_packet (hr : (s.fn f).fetches = true) (hl : s.life = .up) (bytes : Bytes) (ext : Option Bytes) :
    ∃ t, exec (.packetCapture f (.packet bytes ext)) s = .next t ∧
      t.fn f = { s.fn f with
        gateBuf := (s.fn f).gateBuf ++ [{ bytes := bytes, ext := ext, at_ := s.beat.periods }]
        sqHead := ((s.fn f).sqHead + 1) % (2 * (s.fn f).sqSize) } := by
  refine ⟨_, exec_packetCapture s f _, ?_⟩
  unfold packetCaptureEffect
  rw [hr, hl, if_neg (by decide)]
  exact (fn_of_modFn hf rfl).1

/-- R653: queue memory that cannot be translated stops the fetching. -/
theorem packetCapture_unresolvable (hr : (s.fn f).fetches = true) (hl : s.life = .up) :
    ∃ t, exec (.packetCapture f .unresolvable) s = .next t ∧ (t.fn f).fetchFault = true ∧ (t.fn f).enable = false ∧
      (t.fn f).gateBuf = (s.fn f).gateBuf := by
  refine ⟨_, exec_packetCapture s f _, ?_⟩
  unfold packetCaptureEffect
  rw [hr, hl, if_neg (by decide)]
  have h := (fn_of_modFn hf (State.raise_fns (s := s.modFn f fun a =>
    { a with fetchFault := true, enable := false, ready := !a.gateBuf.isEmpty || a.inWork != 0 }) (key := aiviaKey f) (n := 3))).1
  exact ⟨(congrArg Aivia.fetchFault h :), (congrArg Aivia.enable h :), (congrArg Aivia.gateBuf h :)⟩

/-- R657: ENABLE zeroes the indices and sets READY. -/
theorem aiviaEnable_clause (ho : s.aiviaOpen fn f = true) (he : (s.fn f).enable = false) :
    ∃ t, exec (.aiviaEnable fn f) s = .next t ∧
      t.fn f = { s.fn f with enable := true, ready := true, sqHead := 0, sqTail := 0, cqHead := 0, cqTail := 0 } ∧
      ∀ g, g ≠ f → t.fn g = s.fn g := by
  refine ⟨_, exec_aiviaEnable s fn f, ?_⟩
  rw [aiviaEnableEffect, ho, he, if_neg (by decide)]
  exact fn_of_modFn hf rfl

/-- R657: READY stays while captured packets are in work. -/
theorem aiviaDisable_clause (ho : s.aiviaOpen fn f = true) :
    ∃ t, exec (.aiviaDisable fn f) s = .next t ∧
      t.fn f = { s.fn f with enable := false, ready := (s.fn f).ready && (!(s.fn f).gateBuf.isEmpty || (s.fn f).inWork != 0) } ∧
      ∀ g, g ≠ f → t.fn g = s.fn g := by
  refine ⟨_, exec_aiviaDisable s fn f, ?_⟩
  rw [aiviaDisableEffect, if_pos ho]
  exact fn_of_modFn hf rfl

end

/-! ### COMPLETION_POST (R654, R656) -/

section
variable {s : State} {f : Nat} {c : Compl}

/-- A window after a completion of it is written. -/
def Aivia.posted (a : Aivia) (c : Compl) (next : Nat) : Aivia :=
  Aivia.rest { a with
    compl := a.compl.erase c, cqTail := (a.cqTail + 1) % (2 * a.cqSize), inWork := a.inWork - 1
    notBefore := if c.ends then next else a.notBefore }

/-- The completion is in the host's queue, and no message has followed yet. -/
def State.writeCompl (s : State) (f : Nat) (c : Compl) : State :=
  (s.emit (.hostWrite none ((s.fn f).cqBase.toNat + 32 * ((s.fn f).cqTail % (s.fn f).cqSize)) (complBytes c (s.fn f)))).modFn f fun a =>
    a.posted c (s.beat.periods + 1)

theorem completionPostEffect_of_nextPost (hq : (s.fn f).cqFull = false) (hc : s.nextPost false (s.fn f).compl = some c) :
    completionPostEffect f s = if f = 0 then ((s.writeCompl f c).modIrq fun i => { i with pfCompletion := true }).raise 13 0
      else (s.writeCompl f c).emit (.msix f) := by
  unfold completionPostEffect
  dsimp only
  rw [hq, if_neg (by decide), hc]
  rfl

theorem completionPost_clause (hf : f < s.fns.length) (hq : (s.fn f).cqFull = false) (hc : s.nextPost false (s.fn f).compl = some c) :
    ∃ t, exec (.completionPost f) s = .next t ∧ (t.fn f).compl = (s.fn f).compl.erase c ∧
      (t.fn f).cqTail = ((s.fn f).cqTail + 1) % (2 * (s.fn f).cqSize) ∧
      Output.hostWrite none ((s.fn f).cqBase.toNat + 32 * ((s.fn f).cqTail % (s.fn f).cqSize)) (complBytes c (s.fn f)) ∈ t.out ∧
      (f = 0 → t.irq.pfCompletion = true) ∧ (f ≠ 0 → Output.msix f ∈ t.out) := by
  have hfn {u : State} (hu : u.fns = (s.writeCompl f c).fns) :
      ((settle s u).fn f).compl = (s.fn f).compl.erase c ∧
        ((settle s u).fn f).cqTail = ((s.fn f).cqTail + 1) % (2 * (s.fn f).cqSize) := by
    rw [(fn_of_modFn hf hu).1]
    exact ⟨rfl, rfl⟩
  refine ⟨_, exec_completionPost s f, ?_⟩
  rw [completionPostEffect_of_nextPost hq hc]
  by_cases h0 : f = 0
  · rw [if_pos h0]
    obtain ⟨hcompl, htail⟩ :=
      hfn (u := ((s.writeCompl f c).modIrq fun i => { i with pfCompletion := true }).raise 13 0) (State.raise_fns ..)
    refine ⟨hcompl, htail, mem_out_settle (by rw [State.raise_out]; exact List.mem_cons_self), fun _ => ?_, fun hne => absurd h0 hne⟩
    rw [settle_pfCompletion, State.raise_irq]
    rfl
  · rw [if_neg h0]
    obtain ⟨hcompl, htail⟩ := hfn (u := (s.writeCompl f c).emit (.msix f)) rfl
    exact ⟨hcompl, htail, mem_out_settle (List.mem_cons_of_mem _ List.mem_cons_self), fun h => absurd h h0,
      fun _ => mem_out_settle List.mem_cons_self⟩

end

/-- Settles O34, command by command. -/
theorem windowsQueuesAndCompletions : Obligations.WindowsQueuesAndCompletions :=
  ⟨fun _ _ _ hf => ⟨fun ho word => ⟨aiviaDoorbell_clause hf ho word, completionQueueFree_clause hf ho word⟩,
    fun hr hl => ⟨packetCapture_packet hf hr hl, packetCapture_unresolvable hf hr hl⟩, fun _ hq hc => completionPost_clause hf hq hc⟩,
    fun _ _ _ hf ho => ⟨aiviaEnable_clause hf ho, aiviaDisable_clause hf ho⟩⟩

end Sys2Proof.Machine
end

section
/-! R722, R724 to R727: GLUE_WRITE and the end of a slot's program (O40). -/

namespace Sys2Proof.Machine

theorem exec_glueWrite (f : Nat) (s : State) : exec (.glueWrite f) s = .next (settle s (glueWriteEffect f s)) := rfl
theorem exec_glueSlotProgrammed (s : State) : exec .glueSlotProgrammed s = .next (settle s (glueSlotProgrammedEffect s)) := rfl

/-! ### An update that a GLUE_WRITE asks for, with no other (R724) -/

/-- The update of a GLUE_WRITE. -/
def GlueJob.ofPacket (id : PktId) (n v : Nat) : GlueJob := { setting := n, value := v, who := .packet id }

/-- The update stands alone in the queue of updates. -/
def State.only (s : State) (j : GlueJob) : State := s.modGlue fun g => { g with jobs := [j] }

/-- No update waits. -/
def State.noUpdate (s : State) : State := s.modGlue fun g => { g with jobs := [] }

section
variable {s t : State} {id : PktId} {n v : Nat}

theorem State.glueUpdate_of_decided (hj : s.glue.jobs = []) {j : GlueJob} (h : (s.only j).decideJob j = some t) :
    s.glueUpdate j = t.noUpdate := by
  rw [State.glueUpdate_of_idle hj]
  exact State.glueStart_of_decided (s := s.only j) rfl h 62

/-- Step 5 of R724: the next slot is consumed. -/
theorem State.glueUpdate_of_slot (hj : s.glue.jobs = []) (h : (s.only (.ofPacket id n v)).decideJob (.ofPacket id n v) = none) :
    s.glueUpdate (.ofPacket id n v) = (s.only (.ofPacket id n v)).beginSlot n := by
  rw [State.glueUpdate_of_idle hj]
  show (s.only (.ofPacket id n v)).glueStart 64 = _
  rw [State.glueStart]
  simp only [State.only, State.modGlue] at h ⊢
  rw [h]
  rfl

/-- The five steps of R724, which look at the settings and not at the updates. -/
theorem State.decideJob_packet (s : State) (id : PktId) (n v : Nat) : (s.only (.ofPacket id n v)).decideJob (.ofPacket id n v) =
    if !s.glueRange n v then some ((s.only (.ofPacket id n v)).refuse id 0xFF stSHAPE 0x52)
    else if s.glue.value n = v then some ((s.only (.ofPacket id n v)).finish id 0xFF stOK 0 (s.glue.left n))
    else if s.glue.left n = 0 && glueSlots n = 1 then
      some (((s.only (.ofPacket id n v)).writeLocked (0x300000 + 8 * n) 0).refuse id 0xFF stLOCKED 0)
    else if s.glue.left n = 0 then some (((s.only (.ofPacket id n v)).glueEvent 1).refuse id 0xFF stGLUE 0)
    else none := rfl

end

/-! ### The events of a GLUE_WRITE without a slot (R724, R727) -/

section
variable (s : State)

theorem State.glueEvent_glue (n : Nat) : (s.glueEvent n).glue = { s.glue with event := setBit s.glue.event n } := State.raise_glue ..
theorem State.glueEvent_fns (n : Nat) : (s.glueEvent n).fns = s.fns := State.raise_fns ..

theorem State.writeLocked_used (off fn : Nat) : (s.writeLocked off fn).glue.used = s.glue.used := by
  rw [State.writeLocked_glue]
  dsimp only
  split <;> rfl

theorem State.writeLocked_fns (off fn : Nat) : (s.writeLocked off fn).fns = s.fns := State.glueEvent_fns ..

end

/-! ### GLUE_WRITE -/

/-- Step 1 is passed. -/
theorem State.glueRange_takePkt {s : State} {f i n v : Nat} (hr : s.glueRange n v = true) : ¬ (!(s.takePkt f i).glueRange n v) = true := by
  show ¬ (!s.glueRange n v) = true
  rw [hr]
  decide

section
variable {s : State} {f i : Nat} {x : Pkt} (ha : s.admits f 0x31 i x)
include ha

/-- A setting above 15 is refused. -/
theorem glueWrite_unlisted (hn : 15 < x.u 0x20 1) : ∃ t, exec (.glueWrite f) s = .next t ∧
    t.answered (s.pktId f x) 0xFF 7 0x52 0 0 0 ∧ t.glue = s.glue := by
  have hk : State.AnswersMore _ (settle s (glueWriteEffect f s)) := State.admitPkt_answersMore ha (if_pos hn)
  exact ⟨_, exec_glueWrite f s, (State.hears_takePkt ha).answered_of _ _ _ _ _ _ hk rfl, hk.glue⟩

variable (hn : x.u 0x20 1 ≤ 15) (hj : s.glue.jobs = [])
include hn hj

/-- An update that is decided without a slot. -/
theorem glueWrite_decided {u : State} {status detail r0 : Nat}
    (h : ((s.takePkt f i).only (.ofPacket (s.pktId f x) (x.u 0x20 1) (x.u 0x28 8))).decideJob
      (.ofPacket (s.pktId f x) (x.u 0x20 1) (x.u 0x28 8)) = some (u.finish (s.pktId f x) 0xFF status detail r0))
    (hu : u.fns = (s.takePkt f i).fns) :
    ∃ t, exec (.glueWrite f) s = .next t ∧ t.answered (s.pktId f x) 0xFF status detail r0 0 0 ∧
      t.glue = { u.glue with jobs := [] } := by
  have hk : State.AnswersMore _ (settle s (glueWriteEffect f s)) := State.admitPkt_answersMore ha
    ((if_neg (Nat.not_lt.2 hn)).trans (State.glueUpdate_of_decided (s := s.takePkt f i) hj h))
  exact ⟨_, exec_glueWrite f s, ((State.hears_takePkt ha).of_fns hu).answered_of _ _ _ _ _ _ hk rfl, hk.glue⟩

/-- Step 1: a value out of range. -/
theorem glueWrite_outOfRange (hr : s.glueRange (x.u 0x20 1) (x.u 0x28 8) = false) : ∃ t, exec (.glueWrite f) s = .next t ∧
    t.answered (s.pktId f x) 0xFF 7 0x52 0 0 0 ∧ t.glue = s.glue := by
  obtain ⟨t, he, hans, hg⟩ := glueWrite_decided ha hn hj (u := (s.takePkt f i).only _)
    ((State.decideJob_packet ..).trans (if_pos (congrArg not hr))) rfl
  exact ⟨t, he, hans, hg.trans (by rw [← hj]; rfl)⟩

variable (hr : s.glueRange (x.u 0x20 1) (x.u 0x28 8) = true)
include hr

/-- Step 2: the value is in force already. -/
theorem glueWrite_same (hv : s.glue.value (x.u 0x20 1) = x.u 0x28 8) : ∃ t, exec (.glueWrite f) s = .next t ∧
    t.answered (s.pktId f x) 0xFF 0 0 (s.glue.left (x.u 0x20 1)) 0 0 ∧ t.glue = s.glue := by
  obtain ⟨t, he, hans, hg⟩ := glueWrite_decided ha hn hj (u := (s.takePkt f i).only _)
    ((State.decideJob_packet ..).trans ((if_neg (State.glueRange_takePkt hr)).trans (if_pos hv))) rfl
  exact ⟨t, he, hans, hg.trans (by rw [← hj]; rfl)⟩

variable (hv : s.glue.value (x.u 0x20 1) ≠ x.u 0x28 8)
include hv

/-- Step 3: a setting of one slot is locked. -/
theorem glueWrite_locked (hl : s.glue.left (x.u 0x20 1) = 0) (h1 : glueSlots (x.u 0x20 1) = 1) :
    ∃ t, exec (.glueWrite f) s = .next t ∧ t.answered (s.pktId f x) 0xFF 9 0 0 0 0 ∧ t.glue.event.getLsbD 0 = true ∧
      t.glue.values = s.glue.values ∧ t.glue.used = s.glue.used := by
  obtain ⟨t, he, hans, hg⟩ := glueWrite_decided ha hn hj
    (u := ((s.takePkt f i).only (.ofPacket (s.pktId f x) (x.u 0x20 1) (x.u 0x28 8))).writeLocked (0x300000 + 8 * x.u 0x20 1) 0)
    ((State.decideJob_packet ..).trans ((if_neg (State.glueRange_takePkt hr)).trans ((if_neg hv).trans (if_pos
      (Bool.and_eq_true_iff.2 ⟨decide_eq_true hl, decide_eq_true h1⟩))))) (State.writeLocked_fns ..)
  exact ⟨t, he, hans, by rw [hg]; exact State.writeLocked_event .., by rw [hg]; exact State.writeLocked_values ..,
    by rw [hg]; exact State.writeLocked_used ..⟩

/-- Step 4: no slot is left. -/
theorem glueWrite_exhausted (hl : s.glue.left (x.u 0x20 1) = 0) (h1 : glueSlots (x.u 0x20 1) ≠ 1) :
    ∃ t, exec (.glueWrite f) s = .next t ∧ t.answered (s.pktId f x) 0xFF 8 0 0 0 0 ∧ t.glue.event.getLsbD 1 = true ∧
      t.glue.values = s.glue.values ∧ t.glue.used = s.glue.used := by
  obtain ⟨t, he, hans, hg⟩ := glueWrite_decided ha hn hj
    (u := ((s.takePkt f i).only (.ofPacket (s.pktId f x) (x.u 0x20 1) (x.u 0x28 8))).glueEvent 1)
    ((State.decideJob_packet ..).trans ((if_neg (State.glueRange_takePkt hr)).trans ((if_neg hv).trans ((if_neg
      fun h => h1 (of_decide_eq_true (Bool.and_eq_true_iff.1 h).2)).trans (if_pos hl))))) (State.glueEvent_fns ..)
  rw [State.glueEvent_glue] at hg
  exact ⟨t, he, hans, by rw [hg]; exact getLsbD_setBit_self _ (by decide), by rw [hg]; rfl, by rw [hg]; rfl⟩

/-- Step 5: the next slot is consumed, and its program begins. -/
theorem glueWrite_slot (hl : s.glue.left (x.u 0x20 1) ≠ 0) : ∃ t, exec (.glueWrite f) s = .next t ∧
    t.glue = { s.glue with
      used := s.glue.used.modify (x.u 0x20 1) (· + 1)
      jobs := [{ setting := x.u 0x20 1, value := x.u 0x28 8, who := .packet (s.pktId f x) }] } := by
  have hk : State.AnswersMore _ (settle s (glueWriteEffect f s)) := State.admitPkt_answersMore ha
    ((if_neg (Nat.not_lt.2 hn)).trans (State.glueUpdate_of_slot (s := s.takePkt f i) hj ((State.decideJob_packet ..).trans
      ((if_neg (State.glueRange_takePkt hr)).trans ((if_neg hv).trans ((if_neg
        fun h => hl (of_decide_eq_true (Bool.and_eq_true_iff.1 h).1)).trans (if_neg hl)))))))
  exact ⟨_, exec_glueWrite f s, hk.glue⟩

end

/-! ### The end of a slot's program (R724 step 5, R725) -/

section
variable {s : State} {j : GlueJob}

theorem State.setGlue_fns (s : State) (n v : Nat) : (s.setGlue n v).fns = s.fns := by
  unfold State.setGlue
  exact view_ite _ rfl rfl

theorem State.setGlue_glue (s : State) (n v : Nat) : (s.setGlue n v).glue = { s.glue with values := s.glue.values.set n v } := by
  unfold State.setGlue
  exact view_ite _ rfl rfl

theorem State.glueStart_of_none (h : s.glue.jobs = []) (n : Nat) : s.glueStart (n + 1) = s := by
  rw [State.glueStart, h]

/-- The slot's value is in force, and no update waits. -/
def State.programmed (s : State) (j : GlueJob) : State := (s.setGlue j.setting j.value).noUpdate

theorem State.programmed_glue (s : State) (j : GlueJob) :
    (s.programmed j).glue = { s.glue with values := s.glue.values.set j.setting j.value, jobs := [] } := by
  rw [State.programmed, State.noUpdate, State.modGlue_glue, State.setGlue_glue]

section
variable (hj : s.glue.jobs = [j])
include hj

theorem glueSlotProgrammedEffect_of_packet {id : PktId} (hw : j.who = .packet id) :
    glueSlotProgrammedEffect s = (s.programmed j).finish id 0xFF stOK 0 (s.glue.left j.setting) := by
  unfold glueSlotProgrammedEffect
  simp only [hj, hw]
  refine (State.glueStart_of_none (by rfl) 63).trans ?_
  show (s.programmed j).finish id 0xFF stOK 0 ((s.programmed j).glue.left j.setting) = _
  rw [State.programmed_glue]
  rfl

theorem glueSlotProgrammedEffect_glue : (glueSlotProgrammedEffect s).glue = (s.programmed j).glue := by
  unfold glueSlotProgrammedEffect
  simp only [hj]
  rw [State.glueStart_of_none (by split <;> rfl)]
  split <;> rfl

theorem glueSlotProgrammed_clause : ∃ t, exec .glueSlotProgrammed s = .next t ∧
    t.glue = { s.glue with values := s.glue.values.set j.setting j.value, jobs := [] } ∧
    ∀ id, j.who = .packet id → s.hears id → t.answered id 0xFF 0 0 (s.glue.left j.setting) 0 0 := by
  refine ⟨_, exec_glueSlotProgrammed s, ?_, fun id hw hh => ?_⟩
  · rw [settle_glue, glueSlotProgrammedEffect_glue hj, State.programmed_glue]
  · rw [glueSlotProgrammedEffect_of_packet hj hw]
    exact ((hh.of_fns (State.setGlue_fns ..)).answered_finish (s := s.programmed j) ..).of_answersMore (.settle ..)

end
end

/-- Settles O40, step by step. -/
theorem glueWritesConsumeSlots : Obligations.GlueWritesConsumeSlots :=
  fun _ => ⟨fun _ _ _ ha => ⟨glueWrite_unlisted ha, fun hn hj => ⟨glueWrite_outOfRange ha hn hj, fun hr =>
    ⟨glueWrite_same ha hn hj hr, glueWrite_locked ha hn hj hr, glueWrite_exhausted ha hn hj hr, glueWrite_slot ha hn hj hr⟩⟩⟩,
    fun _ => glueSlotProgrammed_clause⟩

end Sys2Proof.Machine
end

section
/-! R735 to R740, R763 to R767: CALIBRATE and its end, and FW_STAGE (O45). -/

namespace Sys2Proof.Machine

theorem exec_calibrate (f : Nat) (s : State) : exec (.calibrate f) s = .next (settle s (calibrateEffect f s)) := rfl
theorem exec_calibrateStart (s : State) : exec .calibrateStart s = .next (settle s (calibrateStartEffect s)) := rfl
theorem exec_calibrateDone (s : State) : exec .calibrateDone s = .next (settle s (calibrateDoneEffect s)) := rfl
theorem exec_fwStage (f : Nat) (image : Xfer) (s : State) : exec (.fwStage f image) s = .next (settle s (fwStageEffect f image s)) := rfl

/-! ### A calibration begins (R735, R737) -/

section
variable (s : State) (j : CalJob)

theorem State.beginCal_glb : (s.beginCal j).glb =
    { s.glb with cal := some { j with begun := some (s.beat.count, s.beat.periods + calBeats j.kind) } } := by
  unfold State.beginCal
  exact view_ite _ rfl rfl

/-- R737: a KIND 0 clears LOCKED. -/
theorem State.beginCal_locked : (s.beginCal j).beat.locked = (decide (j.kind ≠ 0) && s.beat.locked) := by
  unfold State.beginCal
  dsimp only
  split
  · rw [decide_eq_false (not_not_intro ‹_›)]
    rfl
  · rw [decide_eq_true ‹_›]
    rfl

end

section
variable {s : State} {f i : Nat} {x : Pkt} (ha : s.admits f 0x33 i x) (hkind : x.u 0x20 1 ≤ 1)
include ha hkind

theorem calibrate_clauses :
    (s.glb.cal.isSome = true → ∃ t, exec (.calibrate f) s = .next t ∧ t.answered (s.pktId f x) 0xFF 1 0 0 0 0 ∧ t.glb = s.glb) ∧
    (s.glb.cal = none → s.quiescent = true → ∃ t, exec (.calibrate f) s = .next t ∧
      t.glb.cal = some { id := s.pktId f x, kind := x.u 0x20 1, begun := some (s.beat.count, s.beat.periods + calBeats (x.u 0x20 1)) } ∧
      t.beat.locked = (decide (x.u 0x20 1 ≠ 0) && s.beat.locked)) ∧
    (s.glb.cal = none → s.quiescent = false → ∃ t, exec (.calibrate f) s = .next t ∧
      t.glb.cal = some { id := s.pktId f x, kind := x.u 0x20 1, deferred := true } ∧ t.beat = s.beat) := by
  have hfree (hc : s.glb.cal = none) : ¬ (s.takePkt f i).glb.cal.isSome = true := by
    show ¬ s.glb.cal.isSome = true
    rw [hc]
    decide
  have hk1 : ¬ 1 < x.u 0x20 1 := Nat.not_lt.2 hkind
  refine ⟨fun hc => ?_, fun hc hq => ?_, fun hc hq => ?_⟩
  · have hk : State.AnswersMore _ (settle s (calibrateEffect f s)) := State.admitPkt_answersMore ha ((if_neg hk1).trans (if_pos hc))
    exact ⟨_, exec_calibrate f s, hk.answered (State.hears_takePkt ha) rfl, hk.glb⟩
  · have hk : State.AnswersMore _ (settle s (calibrateEffect f s)) := State.admitPkt_answersMore ha
      ((if_neg hk1).trans ((if_neg (hfree hc)).trans (if_pos hq)))
    refine ⟨_, exec_calibrate f s, ?_, ?_⟩
    · rw [hk.glb, State.beginCal_glb]
      rfl
    · rw [hk.beat, State.beginCal_locked]
      rfl
  · have hk : State.AnswersMore _ (settle s (calibrateEffect f s)) := State.admitPkt_answersMore ha
      ((if_neg hk1).trans ((if_neg (hfree hc)).trans (if_neg (Bool.not_eq_true _ ▸ hq))))
    exact ⟨_, exec_calibrate f s, congrArg Glb.cal hk.glb, hk.beat⟩

end

/-- R736: at the first quiescent gate. -/
theorem calibrateStart_begins {s : State} {j : CalJob} (hc : s.glb.cal = some j) (hb : j.begun = none) (hg : s.beat.gateOpen = true)
    (hq : s.quiescent = true) : ∃ t, exec .calibrateStart s = .next t ∧
      t.glb.cal = some { j with begun := some (s.beat.count, s.beat.periods + calBeats j.kind) } := by
  refine ⟨_, exec_calibrateStart s, ?_⟩
  unfold calibrateStartEffect
  simp only [hc, hb, hg, hq, Option.isNone_none, Bool.and_self, if_true]
  rw [settle_glb, State.beginCal_glb]

/-! ### The end of a calibration (R738 to R740): the accesses of BAR2 that it held are served -/

/-- The windows, the package's registers and the beat. -/
def State.board (s : State) : List Aivia × Glb × Beat := (s.fns, s.glb, s.beat)

theorem State.bar2Serve_board (s : State) (fn off : Nat) (acc : Bar2) : (s.bar2Serve fn off acc).board = s.board := by
  unfold State.bar2Serve
  (repeat' split) <;> rfl

theorem State.bar2Flush_board (s : State) (n : Nat) : (s.bar2Flush n).board = s.board := by
  induction n generalizing s with
  | zero => rfl
  | succ n ih =>
    unfold State.bar2Flush
    split
    · exact (ih _).trans (State.bar2Serve_board ..)
    · rfl

/-- The calibration is over: a relock has ended. -/
def State.relock (s : State) (j : CalJob) : State :=
  (if j.kind = 0 then s.modBeat fun b => { b with locked := !b.lost } else s).modGlb fun g => { g with cal := none }

/-- The calibration is answered, and no access is served yet. -/
def State.endCal (s : State) (j : CalJob) (count : W64) : State :=
  (s.relock j).finish j.id 0xFF (if j.deferred then stDEFERRED else stOK) 0 count.toNat

theorem State.relock_fns (s : State) (j : CalJob) : (s.relock j).fns = s.fns := view_ite (view := State.fns) _ rfl rfl

theorem calibrateDoneEffect_board {s : State} {j : CalJob} {count : W64} {e : Nat} (hc : s.glb.cal = some j)
    (hb : j.begun = some (count, e)) (he : e ≤ s.beat.periods) : (calibrateDoneEffect s).board = (s.endCal j count).board := by
  unfold calibrateDoneEffect
  simp only [hc, hb, if_neg (Nat.not_lt.2 he)]
  exact State.bar2Flush_board ..

theorem calibrateDone_clause {s : State} {j : CalJob} {count : W64} {e : Nat} (hc : s.glb.cal = some j) (hb : j.begun = some (count, e))
    (he : e ≤ s.beat.periods) (hh : s.hears j.id) : ∃ t, exec .calibrateDone s = .next t ∧ t.glb.cal = none ∧
      t.answered j.id 0xFF (if j.deferred then 1 else 0) 0 count.toNat 0 0 ∧
      (j.kind = 0 → t.beat.locked = !s.beat.lost) ∧ (j.kind ≠ 0 → t.beat.locked = s.beat.locked) := by
  obtain ⟨hfns, hboard⟩ := Prod.mk.inj (calibrateDoneEffect_board hc hb he)
  obtain ⟨hglb, hbeat⟩ := Prod.mk.inj hboard
  refine ⟨_, exec_calibrateDone s, ?_, ?_, fun hk => ?_, fun hk => ?_⟩
  · rw [settle_glb, hglb]
    rfl
  · have hans : (s.endCal j count).answered j.id 0xFF (if j.deferred then 1 else 0) 0 count.toNat 0 0 :=
      (hh.of_fns (s.relock_fns j)).answered_finish ..
    exact (hans.of_fns hfns).of_answersMore (.settle ..)
  · rw [settle_beat, hbeat, State.endCal, State.relock, if_pos hk]
    rfl
  · rw [settle_beat, hbeat, State.endCal, State.relock, if_neg hk]
    rfl

/-! ### FW_STAGE (R763 to R767) -/

/-- The image is in the bank that does not run. -/
def State.stageFw (s : State) (img : Bytes) : State := (s.modMgmt fun m => { m with banks := m.banks.set (1 - m.bank) (some img) }).mgmtEvent 0

theorem State.stageFw_mgmt (s : State) (img : Bytes) : (s.stageFw img).mgmt =
    { s.mgmt with banks := s.mgmt.banks.set (1 - s.mgmt.bank) (some img), event := setBit s.mgmt.event 0 } := State.raise_mgmt ..
theorem State.stageFw_fns (s : State) (img : Bytes) : (s.stageFw img).fns = s.fns := State.raise_fns ..

/-- An image of the length announced is judged by its authenticity alone. -/
theorem State.fwStageAdmitted_of_length {s : State} {id : PktId} {p : Nat} {x : Pkt} {img : Bytes} (hlen : img.length = x.u 0x30 4)
    (hmax : img.length ≤ 4194304) : s.fwStageAdmitted (.ok img) id p x =
      if !s.fwAuthentic img then s.refuse id 0xFF stSHAPE 0x52 else (s.stageFw img).finish id 0xFF stOK 0 := by
  simp only [State.fwStageAdmitted, hlen, bne_self_eq_false, decide_eq_false (Nat.not_lt.2 (hlen ▸ hmax)), Bool.false_or]
  rfl

section
variable {s : State} {f i : Nat} {x : Pkt} {img : Bytes} (ha : s.admits f 0x34 i x) (hlen : img.length = x.u 0x30 4)
  (hmax : img.length ≤ 4194304)
include ha hlen hmax

theorem fwStage_authentic (h : s.fwAuthentic img = true) : ∃ t, exec (.fwStage f (.ok img)) s = .next t ∧
    t.mgmt.banks = s.mgmt.banks.set (1 - s.mgmt.bank) (some img) ∧ t.mgmt.event.getLsbD 0 = true ∧ t.mgmt.bank = s.mgmt.bank ∧
    t.answered (s.pktId f x) 0xFF 0 0 0 0 0 := by
  have h' : ¬ (!(s.takePkt f i).fwAuthentic img) = true := by
    show ¬ (!s.fwAuthentic img) = true
    rw [h]
    decide
  have hk : State.AnswersMore _ (settle s (fwStageEffect f (.ok img) s)) := State.admitPkt_answersMore ha
    ((State.fwStageAdmitted_of_length hlen hmax).trans (if_neg h'))
  have hm := hk.mgmt.trans (State.stageFw_mgmt (s.takePkt f i) img)
  refine ⟨_, exec_fwStage f _ s, ?_, ?_, ?_, hk.answered (State.hears_takePkt ha) (State.stageFw_fns ..)⟩
  · rw [hm]
    rfl
  · rw [hm]
    exact getLsbD_setBit_self _ (by decide)
  · rw [hm]
    rfl

theorem fwStage_refused (h : s.fwAuthentic img = false) : ∃ t, exec (.fwStage f (.ok img)) s = .next t ∧ t.mgmt = s.mgmt ∧
    t.answered (s.pktId f x) 0xFF 7 0x52 0 0 0 := by
  have hk : State.AnswersMore _ (settle s (fwStageEffect f (.ok img) s)) := State.admitPkt_answersMore ha
    ((State.fwStageAdmitted_of_length hlen hmax).trans (if_pos (congrArg not h)))
  exact ⟨_, exec_fwStage f _ s, hk.mgmt, (State.hears_takePkt ha).answered_of _ _ _ _ _ _ hk rfl⟩

end

/-- Settles O45, packet by packet. -/
theorem calibrationAndFirmware : Obligations.CalibrationAndFirmware :=
  fun _ => ⟨fun _ _ _ ha hkind => calibrate_clauses ha hkind, fun _ => calibrateStart_begins,
    fun _ _ _ hc hb => calibrateDone_clause hc hb,
    fun _ _ _ _ ha hlen hmax => ⟨fwStage_authentic ha hlen hmax, fwStage_refused ha hlen hmax⟩⟩

end Sys2Proof.Machine
end

section
/-! R632, R636, R728 to R733, R785: supply monitors, RECONCILE, SELF_TEST, its deferred start and its end (O44). -/

namespace Sys2Proof.Machine

section
variable (s : State)
theorem exec_supplyMonitorTrip (b : Nat) : exec (.supplyMonitorTrip b) s = .next (settle s (supplyMonitorTripEffect b s)) := rfl
theorem exec_reconcile (f m d : Nat) : exec (.reconcile f m d) s = .next (settle s (reconcileEffect f m d s)) := rfl
theorem exec_selfTest (f : Nat) : exec (.selfTest f) s = .next (settle s (selfTestEffect f s)) := rfl
theorem exec_deferredSelfTestStart (b : Nat) :
    exec (.deferredSelfTestStart b) s = .next (settle s (deferredSelfTestStartEffect b s)) := rfl
theorem exec_selfTestDone (b : Nat) (pass : Bool) :
    exec (.selfTestDone b pass) s = .next (settle s (selfTestDoneEffect b pass s)) := rfl

/-! ### A tripped supply monitor (R785) -/

theorem supplyMonitorTrip_clause (b : Nat) : ∃ t, exec (.supplyMonitorTrip b) s = .next t ∧
    t.benches = s.benches.modify b (fun y => { y with supplyBad := 16 }) ∧ ∀ env, b < s.benches.length → t.mgmtView env 0 b = 1 := by
  refine ⟨_, exec_supplyMonitorTrip s b, settle_benches .., fun env hb => ?_⟩
  have hbench : (settle s (supplyMonitorTripEffect b s)).bench b = { s.bench b with supplyBad := 16 } :=
    (State.bench_eq_of_benches (settle_benches ..) b).trans (s.bench_modBench b _ hb)
  rw [State.mgmtView, if_pos rfl, hbench]
  rfl

end

/-! ### RECONCILE (R636) -/

section
variable {s : State} {f i m d : Nat} {x : Pkt}

/-- Clearing one latch leaves every other. -/
theorem getLsbD_clear_ne (w : W64) {n k : Nat} (hk : k ≠ n) : (w &&& ~~~(1#64 <<< n)).getLsbD k = w.getLsbD k := by
  by_cases hlt : k < 64
  · have hbit : (1#64 <<< n).getLsbD k = false := by
      rw [BitVec.getLsbD_shiftLeft, BitVec.getLsbD_one]
      simp only [Bool.and_eq_false_iff, Bool.not_eq_false', decide_eq_true_eq, decide_eq_false_iff_not]
      omega
    rw [BitVec.getLsbD_and, BitVec.getLsbD_not, hbit, decide_eq_true hlt, Bool.not_false, Bool.and_true, Bool.and_true]
  · rw [BitVec.getLsbD_of_ge _ _ (Nat.not_lt.1 hlt), BitVec.getLsbD_of_ge _ _ (Nat.not_lt.1 hlt)]

/-- A latched unit is cleared, and RECONCILED is set. -/
def State.unlatch (s : State) (n : Nat) : State :=
  if s.latched n then
    (s.modGlb fun g => { g with disLatch := g.disLatch &&& ~~~(1#64 <<< n), disStatus := setBit g.disStatus 1 }).raise 2 1
  else s

theorem State.unlatch_of_latched {n : Nat} (h : s.latched n = true) :
    (s.unlatch n).glb = { s.glb with disLatch := s.glb.disLatch &&& ~~~(1#64 <<< n), disStatus := setBit s.glb.disStatus 1 } := by
  rw [State.unlatch, if_pos h]
  exact State.raise_glb ..

theorem State.unlatch_of_not_latched {n : Nat} (h : s.latched n = false) : s.unlatch n = s := if_neg (Bool.not_eq_true _ ▸ h)

theorem State.unlatch_fns (n : Nat) : (s.unlatch n).fns = s.fns := by
  unfold State.unlatch
  exact view_ite _ (State.raise_fns ..) rfl

theorem State.latched_unlatch (n : Nat) : (s.unlatch n).latched n = false := by
  cases h : s.latched n with
  | false => rw [State.unlatch_of_not_latched h, h]
  | true =>
    rw [State.latched, State.unlatch_of_latched h]
    simp [-BitVec.getLsbD_eq_getElem]

theorem State.latched_unlatch_ne {n k : Nat} (hk : k ≠ n) : (s.unlatch n).latched k = s.latched k := by
  cases h : s.latched n with
  | false => rw [State.unlatch_of_not_latched h]
  | true =>
    rw [State.latched, State.unlatch_of_latched h]
    exact getLsbD_clear_ne _ hk

/-- A unit that the package has. -/
theorem State.reconcileAdmitted_of_unit {id : PktId} {p : Nat} (hkind : x.u 0x20 1 ≤ 2) (hunit : x.u 0x21 1 < s.unitCount (x.u 0x20 1)) :
    s.reconcileAdmitted m d id p x =
      if (min m 2 = 0) != (min d 2 = 0) then s.refuse id 0xFF stDISAGREE 0
      else (s.unlatch (16 * x.u 0x20 1 + x.u 0x21 1)).finish id 0xFF stOK 0 (min m 2 + 16 * min d 2) := by
  refine (if_neg ?_).trans rfl
  simp [Nat.not_lt.2 hkind, Nat.not_le.2 hunit]

section
variable (ha : s.admits f 0x0A i x) (hkind : x.u 0x20 1 ≤ 2) (hunit : x.u 0x21 1 < s.unitCount (x.u 0x20 1))
include ha hkind hunit

theorem reconcile_disagree (h : (m = 0 ∧ d ≠ 0) ∨ (m ≠ 0 ∧ d = 0)) : ∃ t, exec (.reconcile f m d) s = .next t ∧
    t.answered (s.pktId f x) 0xFF 0xF 0 0 0 0 ∧ t.glb = s.glb := by
  have hdis : ((min m 2 = 0) != (min d 2 = 0)) = true := by
    rcases h with ⟨hm, hd⟩ | ⟨hm, hd⟩ <;> simp [hm, hd]
  have hk : State.AnswersMore _ (settle s (reconcileEffect f m d s)) :=
    State.admitPkt_answersMore ha ((State.reconcileAdmitted_of_unit (s := s.takePkt f i) hkind hunit).trans (if_pos hdis))
  exact ⟨_, exec_reconcile s f m d, (State.hears_takePkt ha).answered_of _ _ _ _ _ _ hk rfl, hk.glb⟩

theorem reconcile_agree (h : (m = 0 ∧ d = 0) ∨ (m ≠ 0 ∧ d ≠ 0)) : ∃ t, exec (.reconcile f m d) s = .next t ∧
    t.answered (s.pktId f x) 0xFF 0 0 (min m 2 + 16 * min d 2) 0 0 ∧ t.latched (16 * x.u 0x20 1 + x.u 0x21 1) = false ∧
    (∀ k, k ≠ 16 * x.u 0x20 1 + x.u 0x21 1 → t.latched k = s.latched k) ∧
    (s.latched (16 * x.u 0x20 1 + x.u 0x21 1) = true → t.glb.disStatus.getLsbD 1 = true) := by
  have hdis : ¬ ((min m 2 = 0) != (min d 2 = 0)) = true := by
    rcases h with ⟨hm, hd⟩ | ⟨hm, hd⟩ <;> simp [hm, hd]
  have hk : State.AnswersMore _ (settle s (reconcileEffect f m d s)) :=
    State.admitPkt_answersMore ha ((State.reconcileAdmitted_of_unit (s := s.takePkt f i) hkind hunit).trans (if_neg hdis))
  have hlatched (k : Nat) : (settle s (reconcileEffect f m d s)).latched k =
      ((s.takePkt f i).unlatch (16 * x.u 0x20 1 + x.u 0x21 1)).latched k := congrArg (fun g => g.disLatch.getLsbD k) hk.glb
  refine ⟨_, exec_reconcile s f m d, hk.answered (State.hears_takePkt ha) (State.unlatch_fns _),
    (hlatched _).trans (State.latched_unlatch _), fun k hne => (hlatched k).trans (State.latched_unlatch_ne hne), fun hl => ?_⟩
  have hglb := hk.glb.trans (State.unlatch_of_latched (s := s.takePkt f i) hl)
  rw [hglb]
  exact getLsbD_setBit_self _ (by decide)

end
end

/-! ### The benches that a SELF_TEST names (R728 to R730) -/

/-- A bench whose test begins in a beat: with the time of its exit from a power state (R709, R728). -/
def Bench.startsTest (x : Bench) (now : Nat) : Bench :=
  { x.resetAll with
    state := .testing, power := 0, powerMove := none, testDeferred := false
    test := some { why := .selfTest, former := x.state
                   endAt := now + 50000 + (if x.power = 2 then 10000 else if x.power = 1 then 16 else 0) } }

/-- A bench that a SELF_TEST names: it is tested already, tested now, or deferred. -/
def Bench.named (x : Bench) (testable : Bool) (now : Nat) : Bench :=
  if x.testCounts then x else if testable then x.startsTest now else { x with testDeferred := true }

section
variable {x : Bench} (h : x.testCounts = false) (now : Nat)
include h

theorem Bench.named_of_testable : x.named true now = x.startsTest now := if_neg (Bool.not_eq_true _ ▸ h)
theorem Bench.named_of_not_testable : x.named false now = { x with testDeferred := true } := if_neg (Bool.not_eq_true _ ▸ h)

end

/-- What a SELF_TEST that has named the benches bs, in the state s, leaves; d says whether one named before them is deferred. -/
structure State.Named (s : State) (d : Bool) (bs : List Nat) (r : State × Bool) : Prop where
  benches : ∃ xs, r.1 = { s with benches := xs }
  length : r.1.benches.length = s.benches.length
  other : ∀ c, c ∉ bs → r.1.bench c = s.bench c
  named : ∀ c ∈ bs, c < s.benches.length → r.1.bench c = (s.bench c).named (s.testable c) s.beat.periods
  deferred : r.2 = (d || bs.any fun b => !(s.bench b).testCounts && !s.testable b)

section
variable (s : State)

theorem State.bench_startTest {b : Nat} (hb : b < s.benches.length) :
    (s.startTest b .selfTest).bench b = (s.bench b).startsTest s.beat.periods := by
  rw [State.startTest]
  rw [State.bench_modBench _ _ _ (by simpa [State.beginTest] using hb), State.bench_beginTest _ _ hb]
  rfl

theorem State.bench_startTest_ne {b c : Nat} (why : TestWhy) (h : c ≠ b) : (s.startTest b why).bench c = s.bench c := by
  rw [State.startTest]
  rw [State.bench_modBench_ne _ _ _ _ h.symm]
  exact State.bench_modBench_ne _ _ _ _ h.symm

theorem State.nameTest_benches (b : Nat) : ∃ xs, (s.nameTest b).1 = { s with benches := xs } := by
  unfold State.nameTest
  split
  · exact ⟨_, rfl⟩
  · split
    · exact ⟨_, rfl⟩
    · exact ⟨_, rfl⟩

theorem State.nameTest_length (b : Nat) : (s.nameTest b).1.benches.length = s.benches.length := by
  unfold State.nameTest
  split
  · rfl
  · split
    · simp [State.startTest, State.beginTest]
    · simp

theorem State.bench_nameTest_ne {b c : Nat} (h : c ≠ b) : (s.nameTest b).1.bench c = s.bench c := by
  unfold State.nameTest
  split
  · rfl
  · split
    · exact s.bench_startTest_ne _ h
    · exact s.bench_modBench_ne _ _ _ h.symm

theorem State.bench_nameTest {b : Nat} (hb : b < s.benches.length) :
    (s.nameTest b).1.bench b = (s.bench b).named (s.testable b) s.beat.periods := by
  unfold State.nameTest Bench.named
  split
  · rfl
  · split
    · exact s.bench_startTest hb
    · exact s.bench_modBench _ _ hb

/-- R730: deferred where no test that counts runs and the bench may not be tested. -/
theorem State.nameTest_deferred (b : Nat) : (s.nameTest b).2 = (!(s.bench b).testCounts && !s.testable b) := by
  unfold State.nameTest
  cases (s.bench b).testCounts <;> cases s.testable b <;> rfl

/-- R728 looks at the bench's own state, the partitions' seats and the ring. -/
theorem State.testable_of_benches {s t : State} (h : ∃ xs, t = { s with benches := xs }) {b : Nat} (hb : t.bench b = s.bench b) :
    t.testable b = s.testable b := by
  unfold State.testable
  rw [hb]
  obtain ⟨xs, rfl⟩ := h
  rfl

/-- Every bench of a list is named, one after the other. -/
theorem State.nameTests_named (s : State) (d : Bool) {bs : List Nat} (hn : bs.Nodup) :
    s.Named d bs (bs.foldl (fun (acc : State × Bool) b => ((acc.1.nameTest b).1, acc.2 || (acc.1.nameTest b).2)) (s, d)) := by
  induction bs generalizing s d with
  | nil => exact ⟨⟨_, rfl⟩, rfl, fun _ _ => rfl, fun _ h => (List.not_mem_nil h).elim, (Bool.or_false d).symm⟩
  | cons b bs ih =>
    obtain ⟨hb, hn⟩ := List.nodup_cons.1 hn
    have hbenches := s.nameTest_benches b
    have hlength := s.nameTest_length b
    obtain ⟨hbenches', hlength', hother, hnamed, hdeferred⟩ := ih (s.nameTest b).1 (d || (s.nameTest b).2) hn
    have hne {c : Nat} (hc : c ∈ bs) : c ≠ b := fun h => hb (h ▸ hc)
    have htestable {c : Nat} (hc : c ∈ bs) : (s.nameTest b).1.testable c = s.testable c :=
      State.testable_of_benches hbenches (s.bench_nameTest_ne (hne hc))
    refine ⟨?_, hlength'.trans hlength, fun c hc => ?_, fun c hc hlt => ?_, ?_⟩
    · obtain ⟨xs, hxs⟩ := hbenches
      obtain ⟨ys, hys⟩ := hbenches'
      exact ⟨ys, hys.trans (by rw [hxs])⟩
    · obtain ⟨hcb, hcbs⟩ := not_or.1 (mt List.mem_cons.2 hc)
      exact (hother c hcbs).trans (s.bench_nameTest_ne hcb)
    · rcases List.mem_cons.1 hc with rfl | hc
      · exact (hother c hb).trans (s.bench_nameTest hlt)
      · have hbeat : (s.nameTest b).1.beat = s.beat := by obtain ⟨xs, hxs⟩ := hbenches; rw [hxs]
        refine (hnamed c hc (hlength ▸ hlt)).trans ?_
        rw [htestable hc, hbeat, s.bench_nameTest_ne (hne hc)]
    · rw [List.foldl_cons, hdeferred, s.nameTest_deferred, List.any_cons, Bool.or_assoc]
      have hany : (bs.any fun c => !((s.nameTest b).1.bench c).testCounts && !(s.nameTest b).1.testable c) =
          bs.any fun c => !(s.bench c).testCounts && !s.testable c := by
        rw [Bool.eq_iff_iff, List.any_eq_true, List.any_eq_true]
        exact exists_congr fun c => and_congr_right fun hc => by rw [htestable hc, s.bench_nameTest_ne (hne hc)]
      rw [hany]

end

/-! ### SELF_TEST (R728, R730, R732) -/

/-- Of the completions of SELF_TEST packets and the list of those in work nothing else depends (R732). -/
theorem State.endTests_answersMore (s : State) :
    (s.modGlb fun g => { g with tests := g.tests.filter fun j => j.left != 0 }).AnswersMore s.endTests :=
  (.foldl (fun s (j : TestJob) => .finish s j.id 0xFF _ 0 _ _ 0) _ _)

/-- A SELF_TEST in work. -/
def State.addTest (s : State) (j : TestJob) : State := s.modGlb fun g => { g with tests := g.tests ++ [j] }

theorem State.mem_tests_endTests {s : State} {j : TestJob} (hj : j.left ≠ 0) : j ∈ (s.addTest j).endTests.glb.tests := by
  rw [(s.addTest j).endTests_answersMore.glb]
  exact List.mem_filter.2 ⟨List.mem_append_right _ List.mem_cons_self, bne_iff_ne.2 hj⟩

/-- The benches of a mask, and which of them are deferred. -/
def State.nameTests (s : State) (mask : Nat) : State × Bool :=
  ((List.range 13).filter fun b => bitOf mask b).foldl (fun (acc : State × Bool) b =>
    ((acc.1.nameTest b).1, acc.2 || (acc.1.nameTest b).2)) (s, false)

theorem State.nameTests_mask (s : State) (mask : Nat) :
    s.Named false ((List.range 13).filter fun b => bitOf mask b) (s.nameTests mask) :=
  s.nameTests_named false (List.nodup_range.filter _)

section
variable {s : State} {f i : Nat} {x : Pkt}

theorem State.selfTestAdmitted_of_mask {id : PktId} {p : Nat} (h : x.u 0x20 2 % 2 ^ 13 < 2 ^ s.nSeats) :
    s.selfTestAdmitted id p x = ((s.nameTests (x.u 0x20 2 % 2 ^ 13)).1.addTest
      { id := id, left := x.u 0x20 2 % 2 ^ 13, deferred := (s.nameTests (x.u 0x20 2 % 2 ^ 13)).2 }).endTests :=
  if_neg (Nat.not_le.2 h)

/-- R730: a bench of the mask is deferred where a partition owns it. -/
theorem State.nameTests_deferred (s : State) (mask : Nat) : (s.nameTests mask).2 = true ↔
    ∃ b, b < 13 ∧ bitOf mask b = true ∧ (s.bench b).testCounts = false ∧ s.testable b = false := by
  rw [(s.nameTests_mask mask).deferred]
  simp

theorem selfTest_clause (ha : s.admits f 0x32 i x) (hm : x.u 0x20 2 % 2 ^ 13 < 2 ^ s.nSeats) (h0 : x.u 0x20 2 % 2 ^ 13 ≠ 0) :
    ∃ t, exec (.selfTest f) s = .next t ∧
      (∃ d, ({ id := s.pktId f x, left := x.u 0x20 2 % 2 ^ 13, deferred := d } : TestJob) ∈ t.glb.tests ∧
        (d = true ↔ ∃ b, b < 13 ∧ bitOf (x.u 0x20 2 % 2 ^ 13) b = true ∧ (s.bench b).testCounts = false ∧ s.testable b = false)) ∧
      (∀ b, b < 13 → b < s.benches.length → bitOf (x.u 0x20 2 % 2 ^ 13) b = true → (s.bench b).testCounts = false →
        (s.testable b = true → (t.bench b).state = .testing ∧ (t.bench b).rack = [] ∧ (t.bench b).act = []) ∧
        (s.testable b = false → (t.bench b).testDeferred = true ∧ (t.bench b).state = (s.bench b).state)) ∧
      (∀ b, bitOf (x.u 0x20 2 % 2 ^ 13) b = false → t.bench b = s.bench b) := by
  have hk : State.AnswersMore _ (settle s (selfTestEffect f s)) :=
    State.admitPkt_answersMore ha (State.selfTestAdmitted_of_mask (s := s.takePkt f i) hm)
  obtain ⟨-, -, hother, hnamed, -⟩ := (s.takePkt f i).nameTests_mask (x.u 0x20 2 % 2 ^ 13)
  have hbench (b : Nat) : (settle s (selfTestEffect f s)).bench b = ((s.takePkt f i).nameTests (x.u 0x20 2 % 2 ^ 13)).1.bench b :=
    State.bench_eq_of_benches (hk.benches.trans (State.endTests_answersMore _).benches) b
  refine ⟨_, exec_selfTest s f, ⟨_, hk.glb ▸ State.mem_tests_endTests h0, (s.takePkt f i).nameTests_deferred _⟩,
    fun b hb hlt hbit hc => ?_, fun b hbit => ?_⟩
  · have hn : (settle s (selfTestEffect f s)).bench b = (s.bench b).named (s.testable b) s.beat.periods :=
      (hbench b).trans (hnamed b (List.mem_filter.2 ⟨List.mem_range.2 hb, hbit⟩) hlt)
    refine ⟨fun ht => ?_, fun ht => ?_⟩
    · rw [hn, ht, Bench.named_of_testable hc]
      exact ⟨rfl, rfl, rfl⟩
    · rw [hn, ht, Bench.named_of_not_testable hc]
      exact ⟨rfl, rfl⟩
  · exact (hbench b).trans (hother b fun hmem => absurd (List.mem_filter.1 hmem).2 (by rw [hbit]; decide))

end

/-! ### The deferred start and the end of a self-test (R729 to R733) -/

section
variable {s : State} {b : Nat}

theorem deferredSelfTestStart_clause (hg : s.beat.gateOpen = true) (hd : (s.bench b).testDeferred = true) (ht : s.testable b = true) :
    ∃ t, exec (.deferredSelfTestStart b) s = .next t ∧ (t.bench b).state = .testing ∧ (t.bench b).testDeferred = false ∧
      ∀ c, c ≠ b → t.bench c = s.bench c := by
  have hb : b < s.benches.length := State.bench_lt_of (f := Bench.testDeferred) (by rw [hd]; decide)
  have heff : deferredSelfTestStartEffect b s = s.startTest b .selfTest := if_pos (by rw [hg, hd, ht]; rfl)
  have hbench (c : Nat) : (settle s (deferredSelfTestStartEffect b s)).bench c = (s.startTest b .selfTest).bench c := by
    rw [State.bench_eq_of_benches (settle_benches ..), heff]
  refine ⟨_, exec_deferredSelfTestStart s b, ?_, ?_, fun c hc => (hbench c).trans (s.bench_startTest_ne _ hc)⟩
  · rw [hbench, s.bench_startTest hb]
    rfl
  · rw [hbench, s.bench_startTest hb]
    rfl

variable {w : BenchTest} {pass : Bool}

/-- What the end of a test leaves before the packets are answered. -/
def State.testEnded (s : State) (b : Nat) (pass : Bool) (st : BState) : State :=
  (s.endTest b pass st).modGlb fun g => { g with tests := g.tests.map fun j => j.tested b pass s.beat.count }

theorem selfTestDoneEffect_of_test (h : (s.bench b).test = some w) (hw : w.why = .selfTest) (he : w.endAt ≤ s.beat.periods)
    (hst : (s.bench b).state = .testing) : selfTestDoneEffect b pass s = (s.testEnded b pass w.former).endTests := by
  have hc : (s.bench b).testCounts = true := by
    simp only [Bench.testCounts, h, hw]
    rfl
  unfold selfTestDoneEffect
  simp only [h, hc, hst, decide_eq_false (Nat.not_lt.2 he), Bool.not_true, Bool.or_self, Bool.false_eq_true, if_false, if_true]
  rfl

theorem bitOf_two_pow_self (b : Nat) : bitOf (2 ^ b) b = true := by
  rw [bitOf, Nat.div_self (Nat.two_pow_pos b)]
  rfl

/-- A packet whose last bench's test ends. -/
theorem TestJob.tested_last {j : TestJob} (hl : j.left = 2 ^ b) (pass : Bool) (count : W64) :
    j.tested b pass count = { j with left := 0, passed := j.passed + (if pass then 2 ^ b else 0), last := count } := by
  rw [TestJob.tested, hl, if_pos (bitOf_two_pow_self b), Nat.sub_self]

/-- R732: the only packet in work, whose last bench this is. -/
theorem State.testEnded_last {j : TestJob} {st : BState} (ht : s.glb.tests = [j]) (hl : j.left = 2 ^ b) :
    (s.testEnded b pass st).endTests = ((s.testEnded b pass st).modGlb fun g => { g with tests := [] }).finish j.id 0xFF
      (if j.deferred then stDEFERRED else stOK) 0 (j.passed + if pass then 2 ^ b else 0) s.beat.count.toNat := by
  have htests : (s.testEnded b pass st).glb.tests =
      [{ j with left := 0, passed := j.passed + (if pass then 2 ^ b else 0), last := s.beat.count }] := by
    show (s.glb.tests.map fun j => j.tested b pass s.beat.count) = _
    rw [ht, List.map_singleton, TestJob.tested_last hl]
  generalize s.testEnded b pass st = u at htests
  simp only [State.endTests, State.modGlb, htests]
  rfl

theorem selfTestDone_clause (h : (s.bench b).test = some w) (hw : w.why = .selfTest) (he : w.endAt ≤ s.beat.periods)
    (hst : (s.bench b).state = .testing) :
    ∃ t, exec (.selfTestDone b pass) s = .next t ∧ (t.bench b).state = w.former ∧ (t.bench b).testPass = pass ∧ (t.bench b).test = none ∧
      (t.bench b).rack = [] ∧ (t.bench b).act = [] ∧ ∀ j, s.glb.tests = [j] → j.left = 2 ^ b → s.hears j.id →
        t.answered j.id 0xFF (if j.deferred then 1 else 0) 0 (j.passed + if pass then 2 ^ b else 0) s.beat.count.toNat 0 := by
  have hb : b < s.benches.length := State.bench_lt_of (f := Bench.test) (by rw [h]; exact Option.some_ne_none _)
  have heff := selfTestDoneEffect_of_test (pass := pass) h hw he hst
  have hbench : (settle s (selfTestDoneEffect b pass s)).bench b =
      { (s.bench b).zeroFill with state := w.former, test := none, testPass := pass } := by
    rw [State.bench_eq_of_benches (settle_benches ..), heff, State.bench_eq_of_benches (State.endTests_answersMore _).benches]
    exact State.bench_modBench _ _ _ hb
  refine ⟨_, exec_selfTestDone s b pass, (congrArg Bench.state hbench :), (congrArg Bench.testPass hbench :), (congrArg Bench.test hbench :),
    (congrArg Bench.rack hbench :), (congrArg Bench.act hbench :), fun j ht hl hh => ?_⟩
  rw [heff, State.testEnded_last ht hl]
  exact (State.hears.answered_finish (s := (s.testEnded b pass w.former).modGlb fun g => { g with tests := [] }) hh ..).of_answersMore
    (.settle ..)

end

/-- Settles O44, event by event and packet by packet. -/
theorem reconcileSuppliesAndSelfTests : Obligations.ReconcileSuppliesAndSelfTests :=
  ⟨fun s => ⟨supplyMonitorTrip_clause s,
      fun _ _ _ _ _ ha hkind hunit => ⟨reconcile_disagree ha hkind hunit, reconcile_agree ha hkind hunit⟩⟩,
    fun _ => ⟨fun _ _ _ ha hm h0 => selfTest_clause ha hm h0, fun _ hg hd ht => deferredSelfTestStart_clause hg hd ht,
      fun _ _ _ h hw he hst => selfTestDone_clause h hw he hst⟩⟩

end Sys2Proof.Machine
end
